-- ==== Sys2Proof/Word.lean ====
section
/-!
DEFINITION. The words of the machine and the sparse map that every repeated part of the state is held in.

A sparse map is a list of key and value pairs, its keys strictly rising and no value equal to the
default that an unlisted key reads as, so that equal maps are equal lists. Memory is the sparse map
of bytes.
-/

namespace Sys2Proof

/-- A byte of memory. -/
abbrev Byte := BitVec 8

/-- A 32-bit register. -/
abbrev Word := BitVec 32

/-- A 64-bit value: a register pair, an address, a system register. -/
abbrev DWord := BitVec 64

/-- A 96-bit instruction word (R333), or a directional register (R213). -/
abbrev Word96 := BitVec 96

/-- A sparse map from numbers to values. -/
abbrev FMap (α : Type) := List (Nat × α)

/-- The value at key `k`; an unlisted key reads `d`. -/
def FMap.get {α : Type} (d : α) : FMap α → Nat → α
  | [], _ => d
  | (j, a) :: rest, k => if k = j then a else FMap.get d rest k

/-- `m` with the entry of `k` taken out. -/
def FMap.erase {α : Type} : FMap α → Nat → FMap α
  | [], _ => []
  | (j, a) :: rest, k =>
    if k = j then rest else if k < j then (j, a) :: rest else (j, a) :: FMap.erase rest k

/-- `m` with the entry of `k` put at its place in the rising order. -/
def FMap.insert {α : Type} : FMap α → Nat → α → FMap α
  | [], k, b => [(k, b)]
  | (j, a) :: rest, k, b =>
    if k = j then (k, b) :: rest
    else if k < j then (k, b) :: (j, a) :: rest
    else (j, a) :: FMap.insert rest k b

/-- `m` with the value `b` at `k`: writing the default takes the entry out, so the form stays canonical. -/
def FMap.set {α : Type} [DecidableEq α] (d : α) (m : FMap α) (k : Nat) (b : α) : FMap α :=
  if b = d then FMap.erase m k else FMap.insert m k b

/-- The keys rise strictly, from above `lo` on. -/
def FMap.risingFrom {α : Type} : Nat → FMap α → Bool
  | _, [] => true
  | lo, (k, _) :: rest => decide (lo ≤ k) && FMap.risingFrom (k + 1) rest

/-- No listed value is the default. -/
def FMap.noDefault {α : Type} [DecidableEq α] (d : α) : FMap α → Bool
  | [] => true
  | (_, a) :: rest => decide (a ≠ d) && FMap.noDefault d rest

/-- The canonical form: keys rising, no default listed. -/
def FMap.wf {α : Type} [DecidableEq α] (d : α) (m : FMap α) : Bool :=
  FMap.risingFrom 0 m && FMap.noDefault d m

/-- A strictly rising list of numbers: a set. -/
abbrev NSet := List Nat

/-- `n` put into the set. -/
def NSet.add : NSet → Nat → NSet
  | [], n => [n]
  | m :: rest, n => if n = m then m :: rest else if n < m then n :: m :: rest else m :: NSet.add rest n

/-- `n` taken out of the set. -/
def NSet.del : NSet → Nat → NSet
  | [], _ => []
  | m :: rest, n => if n = m then rest else m :: NSet.del rest n

/-- `n` is in the set. -/
def NSet.has (s : NSet) (n : Nat) : Bool := s.any (· == n)

/-- The bits [hi:lo] of a number as an unsigned value (R11). -/
def bits (x hi lo : Nat) : Nat := x / 2 ^ lo % 2 ^ (hi + 1 - lo)

end Sys2Proof
end

