-- ==== Sys2Proof/Syntax.lean ====
section
/-!
DEFINITION. The syntax: operands, the seven instruction formats (R347 to R355), and `Instr`, one
constructor for each row of the opcode table.

Rows of the table that an instruction word encodes carry the common header and the fields of their
format. The other rows are steps of the device or of the host; they carry what the step names.
-/

namespace Sys2Proof

/-- Execution scope, header bits [87:86] (R174). -/
inductive Scope where
  | lane | group | set | block
deriving DecidableEq, Repr

/-- Guard conditions, header bits [83:80] (R340). -/
inductive Cond where
  | al | eq | ne | lt | ge | gt | le | lo | hs | hi | ls | mi | pl | vs | vc | nv
deriving DecidableEq, Repr

/-- What a 10-bit register code names (R343). A reserved code keeps its bits. -/
inductive Opnd where
  | v (n : Nat) | s (n : Nat) | spec (n : Nat) | t (n : Nat) | d (n : Nat) | c (n : Nat)
  | imm (k : Int) | zr | rsvd (code : BitVec 10)
deriving DecidableEq, Repr

/-- A 12-bit source field: empty policy, last-read mark, register code (R342). -/
structure Src where
  ep : Bool
  lr : Bool
  reg : Opnd
deriving DecidableEq, Repr

/-- The common header [95:79] less the opcode (R339). `fin` is the END bit. -/
structure Hdr where
  scope : Scope
  gc : Fin 4
  cond : Cond
  fin : Bool
deriving DecidableEq, Repr

/-- Format A (R347). -/
structure FmtA where
  dst : Opnd
  cw : BitVec 3
  sa : Src
  sb : Src
  sc : Src
  fn : BitVec 30
deriving DecidableEq, Repr

/-- Format I (R348). -/
structure FmtI where
  dst : Opnd
  cw : BitVec 3
  sa : Src
  imm : BitVec 32
  fn : BitVec 22
deriving DecidableEq, Repr

/-- Format M (R349). -/
structure FmtM where
  data : Opnd
  ord : BitVec 3
  base : Src
  index : Src
  off : BitVec 24
  space : BitVec 3
  size : BitVec 3
  mscope : BitVec 3
  cache : BitVec 3
  scl : BitVec 3
  fn : BitVec 3
deriving DecidableEq, Repr

/-- Format B (R351, R352). `tgt` is [78:53]: FOFF and SLOT of an immediate target, or the source field
[78:67] and the zero bits [66:53] of a register target. -/
structure FmtB where
  tgt : BitVec 26
  await : List Opnd
  safe : Bool
  hint : Bool
  fn : BitVec 11
deriving DecidableEq, Repr

/-- Format C: COLO alone (R353). -/
structure FmtC where
  await : List Opnd
  safe : Bool
  yieldHint : Bool
  rsv : BitVec 7
deriving DecidableEq, Repr

/-- Format E (R354). -/
structure FmtE where
  desc : Opnd
  bar : BitVec 6
  ben : Bool
  evq : Bool
  sa : Src
  sb : Src
  imm : BitVec 24
  fn : BitVec 13
deriving DecidableEq, Repr

/-- Format X (R355). -/
structure FmtX where
  acc : BitVec 3
  sla : BitVec 3
  slb : BitVec 3
  pa : BitVec 4
  pb : BitVec 4
  abase : Src
  bbase : Src
  shape : Src
  tri : BitVec 2
  mask : BitVec 4
  fn : BitVec 20
deriving DecidableEq, Repr

/-- One constructor for each row of the opcode table: the device and host steps, then the encoded
instructions in the order of their opcodes. -/
inductive Instr where
  /-- DOORBELL (R70). -/
  | doorbell (q : Nat) (v : BitVec 64)
  /-- COMPLETION_ACKNOWLEDGEMENT (R78). -/
  | completionAcknowledgement (q : Nat) (v : BitVec 64)
  /-- QUEUE_ENABLE (R68). -/
  | queueEnable (q : Nat)
  /-- QUEUE_DISABLE (R68). -/
  | queueDisable (q : Nat)
  /-- REGISTER_WRITE (R67). -/
  | registerWrite (off size : Nat) (v : BitVec 64)
  /-- LAUNCH_COMMAND (R93). -/
  | launchCommand (q : Nat)
  /-- COPY_COMMAND (R73). -/
  | copyCommand (q : Nat)
  /-- COPY_COMMAND_COMPLETE (R77). -/
  | copyCommandComplete (q n : Nat)
  /-- SIGNAL_COMMAND (R76). -/
  | signalCommand (q : Nat)
  /-- WAIT_COMMAND (R76). -/
  | waitCommand (q : Nat)
  /-- WAIT_SATISFIED (R76). -/
  | waitSatisfied (q : Nat)
  /-- CTX_CREATE (R74). -/
  | ctxCreate (q : Nat)
  /-- CTX_DESTROY (R74). -/
  | ctxDestroy (q : Nat)
  /-- CTX_REGISTER (R74). -/
  | ctxRegister (q : Nat)
  /-- CTX_REVOKE (R74). -/
  | ctxRevoke (q : Nat)
  /-- RESYNC (R81). -/
  | resync (q : Nat)
  /-- DUMP_STATUS (R84). -/
  | dumpStatus (q : Nat)
  /-- DUMP_RELEASE (R84). -/
  | dumpRelease (q : Nat)
  /-- ATTEST (R87). -/
  | attest (q : Nat)
  /-- BADKIND (R77). -/
  | badkind (q : Nat)
  /-- RDMA_WRITE (R65). -/
  | rdmaWrite (conn : Nat) (key : BitVec 32) (addr : BitVec 64) (data : List (BitVec 8))
  /-- RDMA_READ (R65). -/
  | rdmaRead (conn : Nat) (key : BitVec 32) (addr : BitVec 64) (len : Nat)
  /-- SEND (R64). -/
  | send (conn : Nat) (data : List (BitVec 8))
  /-- CE_MARK_RECEIVED (R64). -/
  | ceMarkReceived (conn : Nat)
  /-- PORT_ENABLE_MASK_WRITE (R88). -/
  | portEnableMaskWrite (mask : BitVec 8)
  /-- MODULE_RESET (R88). -/
  | moduleReset
  /-- BOOT_STAGE_VERIFY (R85). -/
  | bootStageVerify (stage : Nat) (image sig : List (BitVec 8))
  /-- FATAL_ERROR (R82). -/
  | fatalError (cause : BitVec 9)
  /-- UNCORRECTABLE_MEMORY_ERROR (R311). -/
  | uncorrectableMemoryError (detail unit line : Nat)
  /-- PHASE_LOSS (R41). -/
  | phaseLoss (rail count : Nat)
  /-- DIE_LINK_MODULE_OFF (R22). -/
  | dieLinkModuleOff (a b m : Nat)
  /-- DIE_OFFLINE_REQUEST (R29). -/
  | dieOfflineRequest (die reason : Nat)
  /-- DIE_ONLINE_REQUEST (R30). -/
  | dieOnlineRequest (die : Nat)
  /-- PENDING_TRANSITION_START (R31). -/
  | pendingTransitionStart
  /-- DIE_PREEMPT_COMPLETE (R29). -/
  | diePreemptComplete (die : Nat)
  /-- PAGE_MIGRATE (R29). -/
  | pageMigrate (die ctx : Nat) (va : BitVec 64) (pa : Nat)
  /-- DIE_EVACUATE_COMPLETE (R29). -/
  | dieEvacuateComplete (die : Nat)
  /-- DIE_REMAP_COMPLETE (R29). -/
  | dieRemapComplete (die : Nat)
  /-- DIE_WAKE_COMPLETE (R30). -/
  | dieWakeComplete (die : Nat) (trained : Bool)
  /-- DIE_REMAPIN_COMPLETE (R30). -/
  | dieRemapinComplete (die : Nat)
  /-- FRAME_BOUNDARY (R44). -/
  | frameBoundary
  /-- L_SLOT_ANNOUNCE (R46). -/
  | lSlotAnnounce (frame lenNs : Nat)
  /-- DRAIN_WINDOW_BEGIN (R52). -/
  | drainWindowBegin (cl : Nat)
  /-- CLUSTER_SLOT_OPEN (R49). -/
  | clusterSlotOpen (cl : Nat)
  /-- SLOT_PUBLISHED_END (R50). -/
  | slotPublishedEnd (done : Bool)
  /-- SLOT_WORK_DONE (R60). -/
  | slotWorkDone (actualNs : Nat)
  /-- SLOT_CLOSE_MESSAGE (R49). -/
  | slotCloseMessage (cl : Nat)
  /-- MSWIN_CLAIM_EXPIRY (R59). -/
  | mswinClaimExpiry (cl : Nat)
  /-- CONTROL_INTERVAL_BOUNDARY (R116). -/
  | controlIntervalBoundary (cl : Nat)
  /-- SPEED_CHANGE_STOP_END (R38). -/
  | speedChangeStopEnd (cl : Nat)
  /-- RATIO_CHANGE_APPLY (R38). -/
  | ratioChangeApply (cl : Nat)
  /-- C0RSV_APPLY (R102). -/
  | c0rsvApply (cl : Nat)
  /-- CLASS0_ADMISSION (R105). -/
  | class0Admission (lid : Nat) (places : List (List Nat))
  /-- BLOCK_PLACE (R96). -/
  | blockPlace (lid : Nat) (places : List (List Nat))
  /-- TASK_PLACE (R117). -/
  | taskPlace (cl : Nat) (n : Nat) (cores : List Nat)
  /-- BLOCK_ADMIT (R114). -/
  | blockAdmit (bid : Nat)
  /-- BLOCK_THROTTLE (R115). -/
  | blockThrottle (bid : Nat)
  /-- BLOCK_RETIRE (R97). -/
  | blockRetire (bid : Nat)
  /-- EVENT_QUEUE_DEQUEUE (R119). -/
  | eventQueueDequeue (cl : Nat)
  /-- ISSUE_ARBITRATION (R125). -/
  | issueArbitration (core quarter : Nat)
  /-- LOWER_CLASS_PARK (R126). -/
  | lowerClassPark (gid n : Nat)
  /-- LONG_LATENCY_WRITEBACK (R200). -/
  | longLatencyWriteback (gid n : Nat)
  /-- WATCHDOG_EXPIRY (R130). -/
  | watchdogExpiry (gid : Nat)
  /-- BLOCK_PREEMPT (R166). -/
  | blockPreempt (bid : Nat)
  /-- PREEMPT_SAVE (R166). -/
  | preemptSave (bid : Nat)
  /-- BLOCK_RESUME (R167). -/
  | blockResume (bid : Nat) (cores : List Nat)
  /-- ASYNC_OP_COMPLETE (R295). -/
  | asyncOpComplete (gid n : Nat)
  /-- OPERAND_BEAT_ARRIVE (R24). -/
  | operandBeatArrive (cl dir : Nat)
  /-- PAGE_WALK_COMPLETE (R276). -/
  | pageWalkComplete (ctx : Nat) (va : BitVec 64)
  /-- SEGMENT_WAKE_COMPLETE (R254). -/
  | segmentWakeComplete (core seg : Nat)
  /-- BUCKET_MOVE (R268). -/
  | bucketMove (bucket slice : Nat)
  /-- L2_WAY_DISABLE (R270). -/
  | l2WayDisable (slice ways : Nat)
  /-- UPGRADE (R307). -/
  | upgrade (die line : Nat)
  /-- READ_EXCLUSIVE (R308). -/
  | readExclusive (die line : Nat)
  /-- READ_SHARED (R269). -/
  | readShared (die line : Nat) (near : Option Nat)
  /-- INVALIDATION (R263). -/
  | invalidation (die line : Nat)
  /-- INVALIDATION_ACKNOWLEDGEMENT (R307). -/
  | invalidationAcknowledgement (die line : Nat)
  /-- FORWARDED_SNOOP (R309). -/
  | forwardedSnoop (die line : Nat)
  /-- SNOOP_ACKNOWLEDGEMENT (R309). -/
  | snoopAcknowledgement (die line : Nat)
  /-- WRITE_BACK (R309). -/
  | writeBack (die line : Nat)
  /-- WRITE_BACK_ACKNOWLEDGEMENT (R309). -/
  | writeBackAcknowledgement (die line : Nat)
  /-- EXCLUSIVE_DATA_GRANT (R308). -/
  | exclusiveDataGrant (die line : Nat)
  /-- REGISTER_ECC_ERROR (R319). -/
  | registerEccError (gid code lane : Nat) (uncorrectable : Bool)
  /-- EMIT_BUFFER_READ (R135). -/
  | emitBufferRead (draw : Nat)
  /-- PRIMITIVE_BIN (R140). -/
  | primitiveBin (draw : Nat)
  /-- PARTIAL_FLUSH (R141). -/
  | partialFlush (draw : Nat)
  /-- TILE_ASSIGN (R146). -/
  | tileAssign (draw tile core : Nat)
  /-- TILE_CHECKPOINT (R146). -/
  | tileCheckpoint (draw tile : Nat)
  /-- FRAGMENT_WAVE_DISPATCH (R148). -/
  | fragmentWaveDispatch (draw tile gid : Nat)
  /-- BINNING_END (R145). -/
  | binningEnd (draw : Nat)
  /-- TILE_RETIRE (R149). -/
  | tileRetire (draw tile : Nat)
  /-- HIT_DISPATCH (R157). -/
  | hitDispatch (bid core : Nat) (rays : List (Nat × Nat))
  /-- CHILD_RAY_TRACE (R158). -/
  | childRayTrace (gid lane : Nat)
  /-- HIT_RECORD_FILL (R494). -/
  | hitRecordFill (gid lane : Nat)
  /-- ENTRY_TRANSLATION_FAULT (R71). -/
  | entryTranslationFault (q : Nat)
  /-- HOST_ABORT (R34). -/
  | hostAbort (q : Nat) (tag : BitVec 32)
  /-- STORE_QUEUE_DRAIN (R281). -/
  | storeQueueDrain (gid : Nat)
  /-- LINE_EVICTION (R309). -/
  | lineEviction (die line : Nat)
  /-- NOP, opcode 0x00 (R381). -/
  | nop (h : Hdr) (f : FmtA)
  /-- COLO, opcode 0x01 (R207). -/
  | colo (h : Hdr) (f : FmtC)
  /-- BRA, opcode 0x02 (R375). -/
  | bra (h : Hdr) (f : FmtB)
  /-- BRX, opcode 0x03 (R376). -/
  | brx (h : Hdr) (f : FmtB)
  /-- CALL, opcode 0x04 (R377). -/
  | call (h : Hdr) (f : FmtB)
  /-- CALLX, opcode 0x05 (R377). -/
  | callx (h : Hdr) (f : FmtB)
  /-- RET, opcode 0x06 (R376). -/
  | ret (h : Hdr) (f : FmtB)
  /-- EXIT, opcode 0x07 (R381). -/
  | exit (h : Hdr) (f : FmtA)
  /-- BANY, opcode 0x08 (R379). -/
  | bany (h : Hdr) (f : FmtB)
  /-- BALL, opcode 0x09 (R379). -/
  | ball (h : Hdr) (f : FmtB)
  /-- YIELD, opcode 0x0A (R187). -/
  | yield (h : Hdr) (f : FmtA)
  /-- TRAP, opcode 0x0B (R382). -/
  | trap (h : Hdr) (f : FmtI)
  /-- BKPT, opcode 0x0C (R382). -/
  | bkpt (h : Hdr) (f : FmtI)
  /-- RFT, opcode 0x0D (R316). -/
  | rft (h : Hdr) (f : FmtI)
  /-- LOOP, opcode 0x0E (R378). -/
  | loop (h : Hdr) (f : FmtB)
  /-- JMPT, opcode 0x0F (R380). -/
  | jmpt (h : Hdr) (f : FmtB)
  /-- IADD, opcode 0x10 (R384). -/
  | iadd (h : Hdr) (f : FmtA)
  /-- ISUB, opcode 0x11 (R384). -/
  | isub (h : Hdr) (f : FmtA)
  /-- IMUL, opcode 0x12 (R384). -/
  | imul (h : Hdr) (f : FmtA)
  /-- IMULH, opcode 0x13 (R384). -/
  | imulh (h : Hdr) (f : FmtA)
  /-- IMAD, opcode 0x14 (R384). -/
  | imad (h : Hdr) (f : FmtA)
  /-- IMADW, opcode 0x15 (R384). -/
  | imadw (h : Hdr) (f : FmtA)
  /-- IDIV, opcode 0x16 (R385). -/
  | idiv (h : Hdr) (f : FmtA)
  /-- IREM, opcode 0x17 (R385). -/
  | irem (h : Hdr) (f : FmtA)
  /-- IMIN, opcode 0x18 (R384). -/
  | imin (h : Hdr) (f : FmtA)
  /-- IMAX, opcode 0x19 (R384). -/
  | imax (h : Hdr) (f : FmtA)
  /-- IABS, opcode 0x1A (R384). -/
  | iabs (h : Hdr) (f : FmtA)
  /-- INEG, opcode 0x1B (R384). -/
  | ineg (h : Hdr) (f : FmtA)
  /-- IADDC, opcode 0x1C (R386). -/
  | iaddc (h : Hdr) (f : FmtA)
  /-- ISUBB, opcode 0x1D (R386). -/
  | isubb (h : Hdr) (f : FmtA)
  /-- ISAD, opcode 0x1E (R384). -/
  | isad (h : Hdr) (f : FmtA)
  /-- IDOT4, opcode 0x1F (R387). -/
  | idot4 (h : Hdr) (f : FmtA)
  /-- IADDI, opcode 0x20 (R388). -/
  | iaddi (h : Hdr) (f : FmtI)
  /-- IMULI, opcode 0x21 (R388). -/
  | imuli (h : Hdr) (f : FmtI)
  /-- IMADI, opcode 0x22 (R388). -/
  | imadi (h : Hdr) (f : FmtI)
  /-- IMINI, opcode 0x23 (R388). -/
  | imini (h : Hdr) (f : FmtI)
  /-- IMAXI, opcode 0x24 (R388). -/
  | imaxi (h : Hdr) (f : FmtI)
  /-- ANDI, opcode 0x25 (R388). -/
  | andi (h : Hdr) (f : FmtI)
  /-- ORI, opcode 0x26 (R388). -/
  | ori (h : Hdr) (f : FmtI)
  /-- XORI, opcode 0x27 (R388). -/
  | xori (h : Hdr) (f : FmtI)
  /-- SHLI, opcode 0x28 (R388). -/
  | shli (h : Hdr) (f : FmtI)
  /-- SHRI, opcode 0x29 (R388). -/
  | shri (h : Hdr) (f : FmtI)
  /-- SARI, opcode 0x2A (R388). -/
  | sari (h : Hdr) (f : FmtI)
  /-- MOVI, opcode 0x2B (R388). -/
  | movi (h : Hdr) (f : FmtI)
  /-- LEA, opcode 0x2C (R389). -/
  | lea (h : Hdr) (f : FmtM)
  /-- LEAX, opcode 0x2D (R389). -/
  | leax (h : Hdr) (f : FmtM)
  /-- SPTEST, opcode 0x2E (R390). -/
  | sptest (h : Hdr) (f : FmtA)
  /-- SPCAST, opcode 0x2F (R391). -/
  | spcast (h : Hdr) (f : FmtA)
  /-- AND, opcode 0x30 (R392). -/
  | and_ (h : Hdr) (f : FmtA)
  /-- OR, opcode 0x31 (R392). -/
  | or_ (h : Hdr) (f : FmtA)
  /-- XOR, opcode 0x32 (R392). -/
  | xor_ (h : Hdr) (f : FmtA)
  /-- BTAB, opcode 0x33 (R392). -/
  | btab (h : Hdr) (f : FmtA)
  /-- SHL, opcode 0x34 (R392). -/
  | shl (h : Hdr) (f : FmtA)
  /-- SHR, opcode 0x35 (R392). -/
  | shr (h : Hdr) (f : FmtA)
  /-- SAR, opcode 0x36 (R392). -/
  | sar (h : Hdr) (f : FmtA)
  /-- ROT, opcode 0x37 (R392). -/
  | rot (h : Hdr) (f : FmtA)
  /-- FUNNEL, opcode 0x38 (R392). -/
  | funnel (h : Hdr) (f : FmtA)
  /-- POPC, opcode 0x39 (R392). -/
  | popc (h : Hdr) (f : FmtA)
  /-- CLZ, opcode 0x3A (R392). -/
  | clz (h : Hdr) (f : FmtA)
  /-- BREV, opcode 0x3B (R392). -/
  | brev (h : Hdr) (f : FmtA)
  /-- BFX, opcode 0x3C (R393). -/
  | bfx (h : Hdr) (f : FmtA)
  /-- BFI, opcode 0x3D (R393). -/
  | bfi (h : Hdr) (f : FmtA)
  /-- ICMP, opcode 0x3E (R394). -/
  | icmp (h : Hdr) (f : FmtA)
  /-- SEL, opcode 0x3F (R394). -/
  | sel (h : Hdr) (f : FmtA)
  /-- FADD, opcode 0x40 (R409). -/
  | fadd (h : Hdr) (f : FmtA)
  /-- FSUB, opcode 0x41 (R409). -/
  | fsub (h : Hdr) (f : FmtA)
  /-- FMUL, opcode 0x42 (R409). -/
  | fmul (h : Hdr) (f : FmtA)
  /-- FFMA, opcode 0x43 (R409). -/
  | ffma (h : Hdr) (f : FmtA)
  /-- FMIN, opcode 0x44 (R410). -/
  | fmin (h : Hdr) (f : FmtA)
  /-- FMAX, opcode 0x45 (R410). -/
  | fmax (h : Hdr) (f : FmtA)
  /-- FCMP, opcode 0x46 (R411). -/
  | fcmp (h : Hdr) (f : FmtA)
  /-- FCLASS, opcode 0x47 (R412). -/
  | fclass (h : Hdr) (f : FmtA)
  /-- FRND, opcode 0x48 (R409). -/
  | frnd (h : Hdr) (f : FmtA)
  /-- FFRC, opcode 0x49 (R409). -/
  | ffrc (h : Hdr) (f : FmtA)
  /-- FSCALE, opcode 0x4A (R409). -/
  | fscale (h : Hdr) (f : FmtA)
  /-- FDIV, opcode 0x4B (R409). -/
  | fdiv (h : Hdr) (f : FmtA)
  /-- FSQRT, opcode 0x4C (R409). -/
  | fsqrt (h : Hdr) (f : FmtA)
  /-- FDOT2, opcode 0x4D (R409). -/
  | fdot2 (h : Hdr) (f : FmtA)
  /-- FMED3, opcode 0x4E (R409). -/
  | fmed3 (h : Hdr) (f : FmtA)
  /-- FSGN, opcode 0x4F (R413). -/
  | fsgn (h : Hdr) (f : FmtA)
  /-- HADD2, opcode 0x50 (R414). -/
  | hadd2 (h : Hdr) (f : FmtA)
  /-- HMUL2, opcode 0x51 (R414). -/
  | hmul2 (h : Hdr) (f : FmtA)
  /-- HFMA2, opcode 0x52 (R414). -/
  | hfma2 (h : Hdr) (f : FmtA)
  /-- HMIN2, opcode 0x53 (R414). -/
  | hmin2 (h : Hdr) (f : FmtA)
  /-- HMAX2, opcode 0x54 (R414). -/
  | hmax2 (h : Hdr) (f : FmtA)
  /-- HCMP2, opcode 0x55 (R414). -/
  | hcmp2 (h : Hdr) (f : FmtA)
  /-- HDOT2, opcode 0x56 (R414). -/
  | hdot2 (h : Hdr) (f : FmtA)
  /-- CADD, opcode 0x57 (R415). -/
  | cadd (h : Hdr) (f : FmtA)
  /-- CMUL, opcode 0x58 (R415). -/
  | cmul (h : Hdr) (f : FmtA)
  /-- CMAD, opcode 0x59 (R415). -/
  | cmad (h : Hdr) (f : FmtA)
  /-- CMULC, opcode 0x5A (R415). -/
  | cmulc (h : Hdr) (f : FmtA)
  /-- CABS2, opcode 0x5B (R415). -/
  | cabs2 (h : Hdr) (f : FmtA)
  /-- CEXPI, opcode 0x5C (R415). -/
  | cexpi (h : Hdr) (f : FmtA)
  /-- CSCALE, opcode 0x5D (R415). -/
  | cscale (h : Hdr) (f : FmtA)
  /-- CROT, opcode 0x5E (R415). -/
  | crot (h : Hdr) (f : FmtA)
  /-- CMAG, opcode 0x5F (R415). -/
  | cmag (h : Hdr) (f : FmtA)
  /-- RCP, opcode 0x60 (R416). -/
  | rcp (h : Hdr) (f : FmtA)
  /-- RSQ, opcode 0x61 (R416). -/
  | rsq (h : Hdr) (f : FmtA)
  /-- EX2, opcode 0x62 (R416). -/
  | ex2 (h : Hdr) (f : FmtA)
  /-- LG2, opcode 0x63 (R416). -/
  | lg2 (h : Hdr) (f : FmtA)
  /-- SINT, opcode 0x64 (R416). -/
  | sint (h : Hdr) (f : FmtA)
  /-- COST, opcode 0x65 (R416). -/
  | cost (h : Hdr) (f : FmtA)
  /-- TANH, opcode 0x66 (R416). -/
  | tanh (h : Hdr) (f : FmtA)
  /-- SIGM, opcode 0x67 (R416). -/
  | sigm (h : Hdr) (f : FmtA)
  /-- CVT, opcode 0x68 (R418). -/
  | cvt (h : Hdr) (f : FmtA)
  /-- CVPK2, opcode 0x69 (R419). -/
  | cvpk2 (h : Hdr) (f : FmtA)
  /-- CVPK4, opcode 0x6A (R419). -/
  | cvpk4 (h : Hdr) (f : FmtA)
  /-- UNPK, opcode 0x6B (R420). -/
  | unpk (h : Hdr) (f : FmtA)
  /-- PK6, opcode 0x6C (R421). -/
  | pk6 (h : Hdr) (f : FmtA)
  /-- UPK6, opcode 0x6D (R421). -/
  | upk6 (h : Hdr) (f : FmtA)
  /-- PKI4, opcode 0x6E (R422). -/
  | pki4 (h : Hdr) (f : FmtA)
  /-- QSCL, opcode 0x6F (R423). -/
  | qscl (h : Hdr) (f : FmtA)
  /-- PULL, opcode 0x70 (R426). -/
  | pull (h : Hdr) (f : FmtA)
  /-- PULLT, opcode 0x71 (R426). -/
  | pullt (h : Hdr) (f : FmtA)
  /-- BCST, opcode 0x72 (R425). -/
  | bcst (h : Hdr) (f : FmtA)
  /-- POLL, opcode 0x73 (R427). -/
  | poll (h : Hdr) (f : FmtA)
  /-- VMASK, opcode 0x74 (R427). -/
  | vmask (h : Hdr) (f : FmtA)
  /-- LRED, opcode 0x75 (R428). -/
  | lred (h : Hdr) (f : FmtA)
  /-- LSCAN, opcode 0x76 (R428). -/
  | lscan (h : Hdr) (f : FmtA)
  /-- PEERS, opcode 0x77 (R425). -/
  | peers (h : Hdr) (f : FmtA)
  /-- REORD, opcode 0x78 (R188). -/
  | reord (h : Hdr) (f : FmtA)
  /-- PERM, opcode 0x79 (R430). -/
  | perm (h : Hdr) (f : FmtA)
  /-- MOV, opcode 0x7A (R425). -/
  | mov (h : Hdr) (f : FmtA)
  /-- MOVS, opcode 0x7B (R425). -/
  | movs (h : Hdr) (f : FmtA)
  /-- CCSET, opcode 0x7C (R431). -/
  | ccset (h : Hdr) (f : FmtA)
  /-- CCMOV, opcode 0x7D (R431). -/
  | ccmov (h : Hdr) (f : FmtA)
  /-- CCLOG, opcode 0x7E (R431). -/
  | cclog (h : Hdr) (f : FmtA)
  /-- FIRST, opcode 0x7F (R425). -/
  | first (h : Hdr) (f : FmtA)
  /-- DMOV, opcode 0x80 (R433). -/
  | dmov (h : Hdr) (f : FmtA)
  /-- DFROMV, opcode 0x81 (R433). -/
  | dfromv (h : Hdr) (f : FmtA)
  /-- DTOV, opcode 0x82 (R433). -/
  | dtov (h : Hdr) (f : FmtA)
  /-- DDOT, opcode 0x83 (R238). -/
  | ddot (h : Hdr) (f : FmtA)
  /-- DCROSS, opcode 0x84 (R433). -/
  | dcross (h : Hdr) (f : FmtA)
  /-- DREFL, opcode 0x85 (R433). -/
  | drefl (h : Hdr) (f : FmtA)
  /-- DREFR, opcode 0x86 (R434). -/
  | drefr (h : Hdr) (f : FmtA)
  /-- DSCL, opcode 0x87 (R237). -/
  | dscl (h : Hdr) (f : FmtA)
  /-- DNORM, opcode 0x88 (R433). -/
  | dnorm (h : Hdr) (f : FmtA)
  /-- DSETN, opcode 0x89 (R433). -/
  | dsetn (h : Hdr) (f : FmtA)
  /-- DSLERP, opcode 0x8A (R434). -/
  | dslerp (h : Hdr) (f : FmtA)
  /-- DCMP, opcode 0x8B (R435). -/
  | dcmp (h : Hdr) (f : FmtA)
  /-- DNEG, opcode 0x8C (R433). -/
  | dneg (h : Hdr) (f : FmtA)
  /-- DADD, opcode 0x8D (R433). -/
  | dadd (h : Hdr) (f : FmtA)
  /-- DPROJ, opcode 0x8E (R433). -/
  | dproj (h : Hdr) (f : FmtA)
  /-- DFRAME, opcode 0x8F (R434). -/
  | dframe (h : Hdr) (f : FmtA)
  /-- LD, opcode 0x90 (R439). -/
  | ld (h : Hdr) (f : FmtM)
  /-- ST, opcode 0x91 (R439). -/
  | st (h : Hdr) (f : FmtM)
  /-- LDT, opcode 0x92 (R439). -/
  | ldt (h : Hdr) (f : FmtM)
  /-- STT, opcode 0x93 (R439). -/
  | stt (h : Hdr) (f : FmtM)
  /-- LDP, opcode 0x94 (R439). -/
  | ldp (h : Hdr) (f : FmtM)
  /-- STP, opcode 0x95 (R439). -/
  | stp (h : Hdr) (f : FmtM)
  /-- LDS, opcode 0x96 (R439). -/
  | lds (h : Hdr) (f : FmtM)
  /-- STS, opcode 0x97 (R439). -/
  | sts (h : Hdr) (f : FmtM)
  /-- LDC, opcode 0x98 (R250). -/
  | ldc (h : Hdr) (f : FmtM)
  /-- LDPL, opcode 0x99 (R443). -/
  | ldpl (h : Hdr) (f : FmtM)
  /-- STPL, opcode 0x9A (R443). -/
  | stpl (h : Hdr) (f : FmtM)
  /-- PREF, opcode 0x9B (R442). -/
  | pref (h : Hdr) (f : FmtM)
  /-- LDGN, opcode 0x9C (R439). -/
  | ldgn (h : Hdr) (f : FmtM)
  /-- STGN, opcode 0x9D (R439). -/
  | stgn (h : Hdr) (f : FmtM)
  /-- CCTL, opcode 0x9E (R444). -/
  | cctl (h : Hdr) (f : FmtM)
  /-- STASH_MAP, opcode 0x9F (R445). -/
  | stashMap (h : Hdr) (f : FmtE)
  /-- STASH_UNMAP, opcode 0x9F (R445). -/
  | stashUnmap (h : Hdr) (f : FmtE)
  /-- AADD, opcode 0xA0 (R446). -/
  | aadd (h : Hdr) (f : FmtM)
  /-- AMIN, opcode 0xA1 (R446). -/
  | amin (h : Hdr) (f : FmtM)
  /-- AMAX, opcode 0xA2 (R446). -/
  | amax (h : Hdr) (f : FmtM)
  /-- AAND, opcode 0xA3 (R446). -/
  | aand (h : Hdr) (f : FmtM)
  /-- AOR, opcode 0xA4 (R446). -/
  | aor (h : Hdr) (f : FmtM)
  /-- AXOR, opcode 0xA5 (R446). -/
  | axor (h : Hdr) (f : FmtM)
  /-- AXCHG, opcode 0xA6 (R446). -/
  | axchg (h : Hdr) (f : FmtM)
  /-- ACAS, opcode 0xA7 (R446). -/
  | acas (h : Hdr) (f : FmtM)
  /-- AFADD, opcode 0xA8 (R446). -/
  | afadd (h : Hdr) (f : FmtM)
  /-- AINC, opcode 0xA9 (R446). -/
  | ainc (h : Hdr) (f : FmtM)
  /-- ADEC, opcode 0xAA (R446). -/
  | adec (h : Hdr) (f : FmtM)
  /-- RADD, opcode 0xAB (R446). -/
  | radd (h : Hdr) (f : FmtM)
  /-- RMIN, opcode 0xAC (R446). -/
  | rmin (h : Hdr) (f : FmtM)
  /-- RMAX, opcode 0xAD (R446). -/
  | rmax (h : Hdr) (f : FmtM)
  /-- RFADD, opcode 0xAE (R446). -/
  | rfadd (h : Hdr) (f : FmtM)
  /-- ACAS2, opcode 0xAF (R446). -/
  | acas2 (h : Hdr) (f : FmtM)
  /-- FENCE, opcode 0xB0 (R449). -/
  | fence (h : Hdr) (f : FmtM)
  /-- ARV, opcode 0xB1 (R450). -/
  | arv (h : Hdr) (f : FmtI)
  /-- ARVX, opcode 0xB2 (R450). -/
  | arvx (h : Hdr) (f : FmtI)
  /-- WAITP, opcode 0xB3 (R301). -/
  | waitp (h : Hdr) (f : FmtI)
  /-- WAITC, opcode 0xB4 (R296). -/
  | waitc (h : Hdr) (f : FmtI)
  /-- BINIT, opcode 0xB5 (R451). -/
  | binit (h : Hdr) (f : FmtI)
  /-- BQRY, opcode 0xB6 (R451). -/
  | bqry (h : Hdr) (f : FmtI)
  /-- RPUT, opcode 0xB7 (R171). -/
  | rput (h : Hdr) (f : FmtA)
  /-- RGET, opcode 0xB8 (R171). -/
  | rget (h : Hdr) (f : FmtA)
  /-- RREL, opcode 0xB9 (R171). -/
  | rrel (h : Hdr) (f : FmtA)
  /-- RDV, opcode 0xBA (R452). -/
  | rdv (h : Hdr) (f : FmtA)
  /-- MSWIN, opcode 0xBB (R58). -/
  | mswin (h : Hdr) (f : FmtI)
  /-- MSLOT, opcode 0xBC (R57). -/
  | mslot (h : Hdr) (f : FmtA)
  /-- SPEED, opcode 0xBD (R453). -/
  | speed (h : Hdr) (f : FmtI)
  /-- EVREC, opcode 0xBE (R454). -/
  | evrec (h : Hdr) (f : FmtI)
  /-- SIGNAL, opcode 0xBF (R455). -/
  | signal (h : Hdr) (f : FmtI)
  /-- CPY, opcode 0xC0 (R460). -/
  | cpy (h : Hdr) (f : FmtE)
  /-- CPY2D, opcode 0xC1 (R460). -/
  | cpy2d (h : Hdr) (f : FmtE)
  /-- CPYT, opcode 0xC2 (R460). -/
  | cpyt (h : Hdr) (f : FmtE)
  /-- GATH, opcode 0xC3 (R461). -/
  | gath (h : Hdr) (f : FmtE)
  /-- SCAT, opcode 0xC4 (R461). -/
  | scat (h : Hdr) (f : FmtE)
  /-- STSP, opcode 0xC5 (R462). -/
  | stsp (h : Hdr) (f : FmtE)
  /-- LDSP, opcode 0xC6 (R463). -/
  | ldsp (h : Hdr) (f : FmtE)
  /-- CPYPL, opcode 0xC7 (R464). -/
  | cpypl (h : Hdr) (f : FmtE)
  /-- COLL, opcode 0xC8 (R465). -/
  | coll (h : Hdr) (f : FmtE)
  /-- RDMA, opcode 0xC9 (R466). -/
  | rdma (h : Hdr) (f : FmtE)
  /-- NSEND, opcode 0xCA (R467). -/
  | nsend (h : Hdr) (f : FmtE)
  /-- NRECV, opcode 0xCB (R467). -/
  | nrecv (h : Hdr) (f : FmtE)
  /-- CFILL, opcode 0xCC (R468). -/
  | cfill (h : Hdr) (f : FmtE)
  /-- CINV, opcode 0xCD (R468). -/
  | cinv (h : Hdr) (f : FmtE)
  /-- CSTAT, opcode 0xCE (R468). -/
  | cstat (h : Hdr) (f : FmtE)
  /-- CABORT, opcode 0xCF (R468). -/
  | cabort (h : Hdr) (f : FmtE)
  /-- MMA, opcode 0xD0 (R473). -/
  | mma (h : Hdr) (f : FmtX)
  /-- MMAP, opcode 0xD1 (R474). -/
  | mmap (h : Hdr) (f : FmtX)
  /-- MMAT, opcode 0xD2 (R475). -/
  | mmat (h : Hdr) (f : FmtX)
  /-- MMAPT, opcode 0xD3 (R475). -/
  | mmapt (h : Hdr) (f : FmtX)
  /-- ACZ, opcode 0xD4 (R476). -/
  | acz (h : Hdr) (f : FmtX)
  /-- ACLD, opcode 0xD5 (R476). -/
  | acld (h : Hdr) (f : FmtX)
  /-- ACST, opcode 0xD6 (R476). -/
  | acst (h : Hdr) (f : FmtX)
  /-- ACMV, opcode 0xD7 (R477). -/
  | acmv (h : Hdr) (f : FmtX)
  /-- NET, opcode 0xD8 (R482). -/
  | net (h : Hdr) (f : FmtX)
  /-- NETR, opcode 0xD9 (R482). -/
  | netr (h : Hdr) (f : FmtX)
  /-- PLCV, opcode 0xDA (R483). -/
  | plcv (h : Hdr) (f : FmtE)
  /-- PLQ, opcode 0xDB (R484). -/
  | plq (h : Hdr) (f : FmtX)
  /-- MSCL, opcode 0xDC (R478). -/
  | mscl (h : Hdr) (f : FmtX)
  /-- MSOFT, opcode 0xDD (R480). -/
  | msoft (h : Hdr) (f : FmtX)
  /-- MPAIR_BIND, opcode 0xDE (R474). -/
  | mpairBind (h : Hdr) (f : FmtI)
  /-- MPAIR_REL, opcode 0xDE (R474). -/
  | mpairRel (h : Hdr) (f : FmtI)
  /-- MEPI, opcode 0xDF (R478). -/
  | mepi (h : Hdr) (f : FmtX)
  /-- EMIT, opcode 0xE0 (R487). -/
  | emit (h : Hdr) (f : FmtA)
  /-- EMITV, opcode 0xE1 (R487). -/
  | emitv (h : Hdr) (f : FmtA)
  /-- BLEND, opcode 0xE2 (R489). -/
  | blend (h : Hdr) (f : FmtA)
  /-- ZTEST, opcode 0xE3 (R488). -/
  | ztest (h : Hdr) (f : FmtA)
  /-- TRES, opcode 0xE4 (R490). -/
  | tres (h : Hdr) (f : FmtA)
  /-- SPLAT, opcode 0xE5 (R492). -/
  | splat (h : Hdr) (f : FmtE)
  /-- SPLATC, opcode 0xE6 (R492). -/
  | splatc (h : Hdr) (f : FmtE)
  /-- TRACE, opcode 0xE7 (R494). -/
  | trace (h : Hdr) (f : FmtA)
  /-- SPAWN, opcode 0xE8 (R496). -/
  | spawn (h : Hdr) (f : FmtA)
  /-- HIT, opcode 0xE9 (R496). -/
  | hit (h : Hdr) (f : FmtA)
  /-- RQRY, opcode 0xEA (R496). -/
  | rqry (h : Hdr) (f : FmtA)
  /-- BLDF_OPEN, opcode 0xEB (R493). -/
  | bldfOpen (h : Hdr) (f : FmtE)
  /-- BLDF_ADD, opcode 0xEB (R493). -/
  | bldfAdd (h : Hdr) (f : FmtE)
  /-- BLDC, opcode 0xEC (R493). -/
  | bldc (h : Hdr) (f : FmtE)
  /-- TLCK, opcode 0xED (R491). -/
  | tlck (h : Hdr) (f : FmtE)
  /-- TLRST, opcode 0xEE (R491). -/
  | tlrst (h : Hdr) (f : FmtE)
  /-- DRAWX, opcode 0xEF (R486). -/
  | drawx (h : Hdr) (f : FmtE)
  /-- RDSR, opcode 0xF0 (R396). -/
  | rdsr (h : Hdr) (f : FmtI)
  /-- WRSR, opcode 0xF1 (R396). -/
  | wrsr (h : Hdr) (f : FmtI)
  /-- SAVE, opcode 0xF2 (R397). -/
  | save (h : Hdr) (f : FmtI)
  /-- REST, opcode 0xF3 (R397). -/
  | rest (h : Hdr) (f : FmtI)
  /-- CTXSW, opcode 0xF4 (R398). -/
  | ctxsw (h : Hdr) (f : FmtI)
  /-- TLBI, opcode 0xF5 (R399). -/
  | tlbi (h : Hdr) (f : FmtI)
  /-- CFLUSH, opcode 0xF6 (R400). -/
  | cflush (h : Hdr) (f : FmtI)
  /-- WAKE, opcode 0xF7 (R401). -/
  | wake (h : Hdr) (f : FmtI)
  /-- DIEQ, opcode 0xF8 (R402). -/
  | dieq (h : Hdr) (f : FmtI)
  /-- LOGR, opcode 0xF9 (R402). -/
  | logr (h : Hdr) (f : FmtI)
  /-- PERF, opcode 0xFA (R402). -/
  | perf (h : Hdr) (f : FmtI)
  /-- BUD, opcode 0xFB (R402). -/
  | bud (h : Hdr) (f : FmtI)
  /-- HALT, opcode 0xFC (R403). -/
  | halt (h : Hdr) (f : FmtI)
  /-- DBG, opcode 0xFD (R403). -/
  | dbg (h : Hdr) (f : FmtI)
  /-- BRKS, opcode 0xFE (R404). -/
  | brks (h : Hdr) (f : FmtI)
  /-- ILL, opcode 0xFF (R358). -/
  | ill (h : Hdr) (f : FmtI)
deriving DecidableEq, Repr

end Sys2Proof
end

