-- ==== Sys2Proof/Machine/Bits.lean ====
section
/-!
DEFINITION. Bit-field, byte-order and list helpers that the operations share.
-/

namespace Sys2Proof.Machine

/-- The number that little-endian bytes hold (R5). -/
def leVal : List Byte → Nat
  | [] => 0
  | b :: rest => b.toNat + 256 * leVal rest

/-- The low `n` bytes of a number, little-endian (R5). -/
def leBytes : Nat → Nat → List Byte
  | 0, _ => []
  | n + 1, x => BitVec.ofNat 8 (x % 256) :: leBytes n (x / 256)

/-- The two's-complement value of the low `w` bits of a number. -/
def sext (w x : Nat) : Int :=
  let y := x % 2 ^ w
  if y < 2 ^ (w - 1) then (y : Int) else (y : Int) - (2 : Int) ^ w

/-- An integer modulo 2^w. -/
def wrap (w : Nat) (x : Int) : Nat := (x % ((2 : Int) ^ w)).toNat

/-- The bit `k` of a number. -/
def tb (x k : Nat) : Bool := x / 2 ^ k % 2 == 1

/-- 1 for true and 0 for false. -/
def b2n (b : Bool) : Nat := if b then 1 else 0

/-- The least number of a list, or `d` for an empty one. -/
def minOr (d : Nat) : List Nat → Nat
  | [] => d
  | [x] => x
  | x :: rest => Nat.min x (minOr x rest)

/-- The first value present in a list of options. -/
def firstSome {α : Type} : List (Option α) → Option α
  | [] => none
  | some x :: _ => some x
  | none :: rest => firstSome rest

/-- The numbers below `n` whose bit is set in `m`, rising. -/
def maskList (n m : Nat) : List Nat := (List.range n).filter fun k => tb m k

/-- The mask of a list of numbers without repeats. -/
def maskOf (l : List Nat) : Nat := l.foldl (fun m k => m ||| 2 ^ k) 0

/-- An element put into a sorted list before those that it does not follow. -/
def insertBy {α : Type} (le : α → α → Bool) (a : α) : List α → List α
  | [] => [a]
  | b :: l => if le a b then a :: b :: l else b :: insertBy le a l

/-- A list sorted; equal elements keep their order. -/
def sortBy {α : Type} (le : α → α → Bool) (l : List α) : List α := l.foldr (insertBy le) []

/-- Ceiling of a quotient. -/
def cdiv (a b : Nat) : Nat := (a + b - 1) / b

/-- The entries of a sparse map whose keys satisfy a test. -/
def FMap.keep {α : Type} (p : Nat → Bool) (m : FMap α) : FMap α := m.filter fun e => p e.1

/-- A list with the element at place `k` changed. -/
def modAt {α : Type} (l : List α) (k : Nat) (f : α → α) : List α := l.modify k f

/-- The population count of the low `n` bits. -/
def popc (n x : Nat) : Nat := ((List.range n).filter fun k => tb x k).length

end Sys2Proof.Machine
end

