-- ==== Sys2Proof/Machine/State.lean ====
section
/-!
DEFINITION. The state of the machine as plain data, the reasons a step can stop, and the state after reset.

Repeated parts are sparse maps, in which an unlisted key holds the value named beside the field.
-/

namespace Sys2Proof.Machine

/-- The reasons a step stops with a fault. The faults the spec describes are traps, which are next states. -/
inductive Fault where
  /-- Raised by no meaning: the spec gives every condition a trap, a completion status or a wait. Safe. -/
  | neverRaised
deriving DecidableEq, Repr

/-- The reasons an instruction has no meaning here. -/
inductive Refusal where
  /-- Raised by the arm of an instruction whose meaning is not written yet. Safe: the run ends. -/
  | notModelled (mnemonic : String)
  /-- Raised by the meaning of an encoded instruction when no unit holds an issue slot. Safe: no step of the
  machine runs a meaning so, since `step` fetches only for the running unit. -/
  | noIssuingUnit
deriving DecidableEq, Repr

/-- The engine role of a stage (R168). -/
inductive Role where
  | copy | matrix | vector
deriving DecidableEq, Repr

/-- The state of a narrow group (R164). SUSPENDED is a property of the group (`Group.susp`, `Group.halted`). -/
inductive NState where
  | ready | await | parked | joinWait | exited
deriving DecidableEq, Repr

/-- A register cell with a full/empty bit: v of a lane, s, or d of a lane (R192). -/
inductive Cell where
  | v (n lane : Nat) | s (n : Nat) | d (n lane : Nat)
deriving DecidableEq, Repr

/-- What a parked narrow group waits for (R126, R129). -/
inductive Wait where
  /-- Nothing: it has not parked. -/
  | idle
  /-- The other members of its rendezvous (R176). -/
  | rendezvous
  /-- Cells of groups that are empty (R202, R203). -/
  | cells (l : List (Nat × Cell))
  /-- At most `n` operations of a class outstanding (R296). -/
  | counter (gid cls n : Nat)
  /-- Room for an operation in the class counter of a group (R294). -/
  | opRoom (gid cls : Nat)
  /-- Another phase of a barrier object than `p` (R301). -/
  | phase (core obj p : Nat)
  /-- An EMPTY slot to fill, or a FULL slot to take, in a ring (R171). -/
  | ringRoom (bid bcore stage : Nat)
  | ringData (bid bcore stage : Nat)
  /-- Every long-latency producer of the groups has written (R397). -/
  | producers (gids : List Nat)
  /-- Fewer than 16 draws in flight (R133). -/
  | draws
  /-- A free build handle of a die (R154). -/
  | handle (die : Nat)
  /-- Room in the event queue of a cluster (R121). -/
  | events (cl : Nat)
  /-- The commit turn of its fragment wave at its pixels (R148). -/
  | wave (gid : Nat)
  /-- Every operation of a block on its core pair is complete (R474). -/
  | pairOps (bid : Nat)
  /-- Parked for a higher class until the cells are full (R126). -/
  | lower (l : List (Nat × Cell))
  /-- The end of the maintenance slot, or of the transaction, that holds its traffic (R54, R180, R307). -/
  | slot
deriving DecidableEq, Repr

/-- A narrow group: the slices it holds, its state and the quire it runs (R164, R183, R206 to R208). A whole
group is one narrow group of eight slices. -/
structure Narrow where
  /-- Bit k set: slice k belongs to it. -/
  slices : Nat
  st : NState
  /-- What it waits for while PARKED. -/
  why : Wait
  /-- Await list of the terminator that ended its previous quire. -/
  await : List Opnd
  /-- Index in the quire of the next instruction; 0 at a quire start. -/
  idx : Nat
  /-- The next quire goes to the next-lowest PC (R187). -/
  yielded : Bool
  /-- YIELD-HINT of its last terminator (R208). -/
  hint : Bool
  /-- It has passed the join point it stands at (R185). -/
  joined : Bool
  /-- It stands at a quire start reached directly from a terminator with SAFE = 1 (R321), and that was a COLO (R323). -/
  safe : Bool
  colo : Bool
  /-- Number of the arbitration that last chose it (R125). -/
  last : Nat
  /-- The quire at hand counts already: it has arrived at a rendezvous with its first instruction (R108, R176). -/
  begun : Bool := false
deriving DecidableEq, Repr

/-- A rendezvous of a unit: its PC, the members that have arrived, and whether it is complete while its
once-execution waits or has faulted (R176 to R181, R508). -/
structure Rendezvous where
  pc : Nat
  /-- The narrow groups that have arrived: group number and slices. -/
  arrived : List (Nat × Nat)
  complete : Bool
deriving DecidableEq, Repr

/-- The work of an async operation, as captured at issue: the opcode, its function and immediate bits, the
values read from its descriptor and sources, and the lanes it serves. -/
structure Job where
  op : Nat
  /-- The group was in user mode at issue: its accesses have user rights. -/
  user : Bool
  fn : Nat
  imm : Nat
  args : List Nat
  lanes : List (Nat × Nat)
deriving DecidableEq, Repr

/-- A long-latency producer that has issued and not yet written (R200). -/
structure Pending where
  n : Nat
  writes : List (Cell × Word96)
  /-- The accumulator move or plane query whose values the matrix array has still to form (R469, R477, R484). -/
  job : Option Job := none
  /-- Its access reaches a queue that a maintenance slot holds (R54). -/
  far : Bool := false
deriving DecidableEq, Repr

/-- Where a byte lies: physical memory, or the tile allocation of a block on one of its cores (R277). -/
inductive Loc where
  | phys (pa : Nat)
  | tile (bid bcore off : Nat)
deriving DecidableEq, Repr

/-- A store waiting in a group's store queue (R281). -/
structure StoreEntry where
  loc : Loc
  bytes : List Byte
deriving DecidableEq, Repr

/-- A cause with its frame fields (R310, R314). -/
structure Trap where
  /-- Class in [8:5], detail in [4:0]. -/
  cause : Nat
  /-- 1 for TRAP. -/
  src : Bool := false
  faddr : Nat := 0
  info : Nat := 0
  /-- Lanes already performed (R317). -/
  done : Nat := 0
deriving DecidableEq, Repr

/-- An async operation of a group: outstanding, or complete with a fault that no WAITC has covered (R294 to R298). -/
structure AsyncOp where
  n : Nat
  /-- 0 COPY, 1 GATHER, 2 MATRIX, 3 COLLECTIVE. -/
  cls : Nat
  job : Job
  /-- Barrier object that counts the landed bytes. -/
  bar : Option Nat
  /-- Tag of the completion entry when EVQ is set. -/
  evq : Option Nat
  aborted : Bool
  complete : Bool
  fault : Option Trap
  /-- Of an operation that has paused: its bytes performed, its bytes landed, and the numbers of its parts that are performed (R53). -/
  did : Nat := 0
  came : Nat := 0
  behind : List Nat := []
deriving DecidableEq, Repr

/-- What the core holds aside while a handler runs, and the trap the frame was written for (R315). -/
structure Held where
  pcs : FMap Nat
  narrows : List Narrow
  /-- Groups this fault suspends (R179). -/
  members : List Nat
  trap : Trap
  /-- The fault arose in a once-execution. -/
  wide : Bool
  scope : Scope
  /-- Slices of the narrow group that faulted. -/
  slices : Nat
  /-- The group-scope rendezvous, open among the narrow groups held aside (R178, R315). -/
  rv : Option Rendezvous := none
deriving DecidableEq, Repr

/-- What the next RFT reissues: lanes that do not perform, and the unit they belong to (R316). -/
structure Replay where
  slices : Nat
  done : Nat
deriving DecidableEq, Repr

/-- A data breakpoint (R404). -/
structure Brk where
  kind : Nat
  base : Nat
  lg : Nat
deriving DecidableEq, Repr

/-- A candidate of a ray, or an accepted one: primitive index, FP32 codes of t and the weights of vertices 1 and 2, the
primitive's user word, the code of DDOT with its normal, and the exact square of t as a quotient (R155, R495). -/
structure RayHit where
  prim : Nat
  t : Nat
  b1 : Nat
  b2 : Nat
  user : Nat
  dot : Nat
  num : Nat
  den : Nat
deriving DecidableEq, Repr

/-- A child ray on the stack: origin, direction, user word and generation (R158, R496). -/
structure ChildRay where
  org : List Nat
  dir : Word96
  user : Nat
  gen : Nat
deriving DecidableEq, Repr

/-- A trace of a thread: the primary ray until its traversal ends, then its children one by one (R155 to R159, R494). -/
structure Ray where
  /-- Number of the producer that fills the hit record. -/
  n : Nat
  lane : Nat
  /-- Physical address of the structure's header, and the hit-table base. -/
  root : Nat
  table : Nat
  /-- The ray at hand: FP32 codes of its origin and tmin, its direction, its generation. -/
  org : List Nat
  tmin : Nat
  dir : Word96
  gen : Nat
  /-- Primitives that it has called, the best accepted hit, the candidate under its hit program, and whether it has
  ended by HIT.term. -/
  seen : List Nat
  best : Option RayHit
  cand : Option RayHit
  ended : Bool
  /-- The words of the primary's record once its traversal has ended. -/
  primary : List Nat
  /-- Children that wait, the last pushed first, and the numbers pushed and traced. -/
  stack : List ChildRay
  pushed : Nat
  traced : Nat
deriving DecidableEq, Repr

/-- What makes a group a dispatched one: the threads whose hit programs it runs, by lane, as home group and lane, and their
registers as the dispatch found them, by the keys of the dispatched group (R157, R497). -/
structure HitRun where
  lanes : List (Nat × Nat)
  v : FMap Word := []
  c : FMap (BitVec 4) := []
  d : FMap Word96 := []
  vEmpty : NSet := []
  dEmpty : NSet := []
  ecc : NSet := []
deriving DecidableEq, Repr

/-- A group (R161 to R165, R192). -/
structure Group where
  bid : Nat
  /-- Group index in the block (R91). -/
  idx : Nat
  /-- Block core index, and the core it runs on. -/
  bcore : Nat
  core : Nat
  /-- Core slot (R162) and quarter (R161). -/
  slot : Nat
  quarter : Nat
  stage : Nat
  role : Role
  /-- Set number and member index (R92). -/
  set : Option (Nat × Nat)
  /-- v registers, key 32 n + lane, unlisted 0. -/
  v : FMap Word
  s : FMap Word
  /-- t registers, key 32 n + lane, unlisted 0. -/
  t : FMap Word
  /-- c registers, key 32 n + lane, unlisted 0. -/
  c : FMap (BitVec 4)
  /-- d registers, key 32 n + lane, unlisted the zero-vector code. -/
  d : FMap Word96
  /-- Empty v, s and d cells (R200), by the same keys. -/
  vEmpty : NSet
  sEmpty : NSet
  dEmpty : NSet
  /-- Cells with an uncorrectable error: key 32 code + lane (R319). -/
  ecc : NSet
  /-- PC of each lane in w0 form (R314), and the lanes that hold a non-exited thread. -/
  pcs : FMap Nat
  alive : BitVec 32
  /-- Thread linear index of each lane (R189). -/
  tlin : FMap Nat
  narrows : List Narrow
  fst : BitVec 6
  ftrap : BitVec 6
  /-- System mode (R198, R315). -/
  sys : Bool
  tscr : FMap DWord
  /-- Quires issued, watchdog count, instructions issued, fc stalled (R108, R129, R402). -/
  quires : Nat
  wdog : Nat
  instrs : Nat
  stall : Nat
  ops : List AsyncOp
  pend : List Pending
  sq : List StoreEntry
  brk : Option Brk
  /-- Single step enabled, the step trap is due, and debug halt (R403). -/
  step : Bool
  stepDue : Bool
  halted : Bool
  /-- Group-scope rendezvous. -/
  rv : Option Rendezvous
  /-- Trap state held aside while the handler runs, and whether the handler has issued an instruction: before that the fault is
  pending (R330). -/
  held : Option Held
  handling : Bool := false
  replay : Option Replay
  /-- Groups whose faults suspend this one. -/
  susp : List Nat
  /-- Stopped for pre-emption: the STATE code of its record, and the safe point (R166, R327). -/
  stop : Option (Nat × Nat)
  /-- A SAVE routine (true) or RESTORE routine runs, and the PCs that the group returns to (R323, R324). -/
  routine : Option (Bool × FMap Nat)
  /-- The trap frame of a saved group (R166, R330). -/
  frame : Option (List Byte) := none
  /-- A save met an uncorrectable register error: the cell, key 32 code + lane, of the fault that is due (R319). -/
  eccDue : Option Nat := none
  /-- Number of the next producer or operation. -/
  seq : Nat
  rays : List Ray
  hit : Option HitRun
deriving DecidableEq, Repr

/-- A ring slot (R170): payload, ST (0 EMPTY, 1 FULL, 2 HELD), phase. -/
structure RSlot where
  pay : Word
  st : Nat
  ph : Nat
deriving DecidableEq, Repr

/-- A stage ring (R170). -/
structure Ring where
  slots : List RSlot
  pix : Nat
  plap : Nat
  gix : Nat
  glap : Nat
  xix : Nat
deriving DecidableEq, Repr

/-- A stash mapping: first tile byte, first global address, lines, and the lines that are CLEAN (1) or
DIRTY (2), the others INVALID (R261, R262). -/
structure Stash where
  /-- Mapping number, 0 to 3 (R445). -/
  n : Nat
  tile : Nat
  va : Nat
  lines : Nat
  st : FMap Nat
  /-- Physical address of each filled line, as translated at its last fill. -/
  pas : FMap Nat
  /-- Lines whose fill a maintenance slot holds (R54, R262). -/
  asked : NSet := []
deriving DecidableEq, Repr

/-- A barrier object (R299). -/
structure Bar where
  phase : BitVec 16
  aexp : BitVec 16
  acnt : BitVec 16
  bexp : BitVec 28
  bcnt : BitVec 28
  blk : Bool
  act : Bool
deriving DecidableEq, Repr

/-- A block on one of its cores. -/
structure BCore where
  core : Nat
  /-- Tile allocation, unlisted 0 (R253). -/
  tile : FMap Byte
  /-- Ring of stage s at key s (R170). -/
  rings : FMap (Option Ring)
  /-- Open set rendezvous by set number. -/
  rvs : FMap (Option Rendezvous)
  /-- Rendezvous of a block-scope REORD among the groups of this core (R188). -/
  reord : Option Rendezvous
  stashes : List Stash
  /-- Awake segments asked for by WAKE (R401). -/
  wake : Nat
  /-- Barrier objects of a saved block (R166). -/
  bars : FMap Bar := []
  /-- Lines of 128 bytes of the allocation with an uncorrectable error (R311, R312). -/
  bad : NSet := []
deriving DecidableEq, Repr

/-- Life of a block (R97, R114, R166, R167). -/
inductive BState where
  | placed | admitted | preempting | preempted | retired
deriving DecidableEq, Repr

/-- A block (R91, R99, R100). -/
structure Block where
  lid : Nat
  lin : Nat
  st : BState
  cores : List BCore
  /-- Private slot (R249). -/
  ps : Nat
  /-- Core slot and quarter of each group, in group order, from its placement on (R161, R162). -/
  seats : List (Nat × Nat)
  /-- Charges of an admitted block: cluster, quarters of a nJ, and twelfths of 10 mA (R114). -/
  charge : List (Nat × Nat × Nat)
  /-- Async bytes counted (R108, R109). -/
  abytes : Nat
  /-- Requested speed class (R116). -/
  speed : Nat
  /-- Clusters whose monitor throttles it for the rest of their interval (R115). -/
  throttled : NSet
  throttledFc : Nat
  rv : Option Rendezvous
  /-- Draws its groups started, and the draw and mesh-stage role it serves (R97, R134, R509). -/
  draw : Option Nat
  /-- Emitted bytes in its emit buffer, and its primitives (R134). -/
  emitted : Nat
  /-- Argument words as read at its admission (R94). -/
  args : List Word := []
deriving DecidableEq, Repr

/-- A core (R14). -/
structure Core where
  /-- TVEC, TFAREA, ECCLOG (R328) and OPTH (R152). -/
  tvec : DWord
  tfarea : DWord
  ecclog : DWord
  opth : Word
  /-- LOGR counters 0 to 3 (R402). -/
  errs : FMap Nat
  bars : FMap Bar
  /-- Accumulator words: key 4096 acc + 64 row + column (R470). -/
  acc : FMap Word
  /-- Accumulators with an uncorrectable error (R312, R319). -/
  accEcc : NSet := []
  /-- Block whose pairing binds this core as follower (R474). -/
  bound : Option Nat
  /-- Operations that have reached the core's matrix array and are not complete, oldest first: group and number (R469). -/
  array : List (Nat × Nat)
  /-- NRECVs of the core, oldest first: direction, group and number (R467). -/
  recvs : List (Nat × Nat × Nat) := []
  /-- The next fetch of a folio finds a parity error; the refetch finds it too (R335). -/
  upset : Bool
  upsetAgain : Bool
  /-- Segments of tile memory awake without an allocation (R254, R401). -/
  awake : Nat
deriving DecidableEq, Repr

/-- A core as reset leaves it. -/
def Core.reset : Core :=
  { tvec := 0, tfarea := 0, ecclog := 0, opth := 0x3F7FBE77, errs := [], bars := [], acc := [],
    bound := none, array := [], upset := false, upsetAgain := false, awake := 0 }

/-- The maintenance slot as a cluster sees it (R57). -/
structure SlotView where
  seq : Nat
  kind : Nat
  follow : Nat
  len : Nat
  opened : Bool
  wait : Nat
  /-- Its published length in ns, and of an open slot the fc that have passed at the cluster since it opened there. -/
  ns : Nat := 160
  passed : Nat := 0
deriving DecidableEq, Repr

/-- A pending tile task: launch, block linear index, and whether it has become placeable, in order (R117). -/
structure Task where
  lid : Nat
  lin : Nat
  order : Option Nat
  /-- Its block stands already on its cores: a task of a class-0 launch, which is placed at acceptance (R104). -/
  held : Bool := false
deriving DecidableEq, Repr

/-- A beat of an operand link (R24): its data bytes. -/
abbrev Beat := List Byte

/-- A cluster and its sequencer. -/
structure Cluster where
  /-- RATIO, CLS and PEND of CCLK, and the written ratio that waits (R37, R38). -/
  ratio : Nat
  cls : Nat
  ratioNext : Option Nat
  /-- C0RSV and the written value that waits (R102). -/
  c0rsv : DWord
  c0next : Option DWord
  /-- Front-end cycles since cluster reset (R402), and those of the current control interval (R112). -/
  fc : Nat
  ivl : Nat
  slot : SlotView
  /-- The drain window is open (R52). -/
  drain : Bool
  /-- fc left of each active MSWIN claim (R58). -/
  claims : List Nat
  /-- fc left of a speed-change stop (R38). -/
  stop : Nat
  /-- Event queue, oldest first (R118), and EVQ entries that wait for room (R120). -/
  eq : List DWord
  eqWait : List DWord
  /-- Completed tags (R119). -/
  tags : NSet
  tasks : List Task
  /-- Budgets of the interval: nJ, and twelfths of 10 mA (R113). -/
  ebud : Nat
  ibud : Nat
  /-- A rail lost a phase in this interval: no tile task is admitted (R41). -/
  noTask : Bool
  /-- fc in slots or drain windows (R402). -/
  slotFc : Nat
  /-- Operand-link beats in flight to, and received from, each side (R23 to R26). -/
  flight : FMap (List Beat)
  recv : FMap (List Beat)
deriving DecidableEq, Repr

/-- A safe point: PC, ANY, and the words of its liveness entry (R321, R322). -/
structure SafePt where
  pc : Nat
  any : Bool
  vlive : Nat
  slive : Nat
  dlive : Nat
  clive : Nat
  save : Nat
  restore : Nat
deriving DecidableEq, Repr

/-- Life of a launch (R81, R96, R97, R104). -/
inductive LState where
  | waiting | running | draining | retired
deriving DecidableEq, Repr

/-- A launch (R89 to R94). -/
structure Launch where
  q : Nat
  tag : Word
  /-- NOTIFY of its command (R73). -/
  notify : Bool := false
  ctx : Nat
  /-- Words w0 to w31 of the record as read (R90). -/
  words : List DWord
  /-- Region table of its kernel header (R255), and its safe points (R321). -/
  regions : List DWord
  safes : List SafePt
  /-- Argument words as read for a launch without a record, and the draw it serves (R92). -/
  draw : Option Nat
  st : LState
  /-- Bound of a class-0 launch and its suspension (R106, R111). -/
  bound : Nat
  suspended : Bool
  /-- Blocks placed and blocks retired. -/
  placed : Nat
  retired : Nat
  faulted : Bool
  /-- Every group of it has stopped for good (R315, R331). -/
  stopped : Bool := false
  /-- Cause and fault address of the first fault (R77). -/
  cause : Nat
  faddr : Nat
  xlate : Bool
  aborted : Bool
  /-- Place of its LAUNCH command among all the entries read (R81). -/
  order : Nat := 0
deriving DecidableEq, Repr

/-- A primitive of a draw (R139): its words as emitted, its sequence index, and the units of the parameter region that hold
its record. -/
structure Prim where
  gauss : Bool
  seq : Nat
  words : List Word
  units : List Nat := []
deriving DecidableEq, Repr

/-- The states of a tile (R145). -/
inductive TileState where
  | empty | listed | owned | checkpointed | retiring | retired
deriving DecidableEq, Repr

/-- One list of a tile in the parameter region: the sequence indices it holds, the units of its chunks from the head on,
and the bytes of references in its tail chunk (R138, R139). -/
structure RefList where
  seqs : List Nat
  chunks : List Nat
  fill : Nat
deriving DecidableEq, Repr

/-- A fragment wave at work: its triangle, its pixels by lane, and the group that runs it (R148). -/
structure Wave where
  gid : Nat
  tile : Nat
  seq : Nat
  /-- Its lanes, each with its pixel as y * 2^16 + x. -/
  pixels : List (Nat × Nat)
  /-- Its group has left it. -/
  ended : Bool
deriving DecidableEq, Repr

/-- A tile of a draw (R137, R143, R145). -/
structure TileRec where
  st : TileState
  owner : Option Nat
  /-- It has received a primitive since its last checkpoint (R146). -/
  added : Bool
  tris : RefList
  gauss : RefList
  /-- Sequence index after the last triangle rendered, and the 8 x 4 block the next wave starts from. -/
  nextSeq : Nat
  nextBlock : Nat
  /-- Colour plane, key 4 pixel + channel, as stored bits of a channel; depth plane by pixel. -/
  colour : FMap Word
  /-- Depth is stored less the cleared value by exclusive or, so that an unlisted pixel is cleared (R145). -/
  depth : FMap Word
deriving DecidableEq, Repr

/-- A tile before any primitive. -/
def TileRec.cleared : TileRec :=
  { st := .empty, owner := none, added := false, tris := ⟨[], [], 0⟩, gauss := ⟨[], [], 0⟩, nextSeq := 0,
    nextBlock := 0, colour := [], depth := [] }

/-- A draw in flight (R131 to R149, R509). -/
structure Draw where
  /-- Issuing launch and block, the words of its record, and its mesh and fragment launches. -/
  lid : Nat
  issuer : Nat
  words : List DWord
  /-- The translations of its pages when it started: first virtual page, pages, frame, write right (R132). -/
  leaves : List (Nat × Nat × Nat × Bool)
  mesh : Nat
  frag : Nat
  /-- Primitives counted (R135), the next block to read, and the next sequence index. -/
  count : Nat
  nextBlock : Nat
  nextSeq : Nat
  /-- Records emitted by each mesh block: group, lane and the record, oldest first. -/
  emitted : FMap (List (Nat × Nat × Prim))
  /-- Primitives read and not yet binned, the rejected one first. -/
  queue : List Prim
  /-- Stored records, and units of the parameter region in use (R138 to R140). -/
  stored : List Prim
  used : Nat
  tiles : FMap TileRec
  waves : List Wave
  /-- A partial flush is in progress (R141). -/
  flush : Bool
  binned : Bool
  /-- The draw has ended: 1 normally, 2 by fault, with the cause and core of R509. -/
  ended : Nat
  cause : Nat
  core : Option Nat
deriving DecidableEq, Repr

/-- An open build of a die (R153). -/
structure Build where
  die : Nat
  handle : Nat
  /-- Records appended, oldest first, and their count with those of operations under way. -/
  recs : List (List Word)
  count : Nat
  /-- A BLDC commits it: it is no longer open. -/
  closing : Bool
deriving DecidableEq, Repr

/-- A queue descriptor and the commands it has started (R68, R75, R77, R78). -/
structure Queue where
  base : DWord
  en : Bool
  ctx : Nat
  cls : Nat
  logsz : Nat
  widx : Word
  ridx : Word
  /-- ERROR or HALTED stands until an enable or a module reset (R68). -/
  err : Bool
  cqbase : DWord
  cqidx : Word
  cqlog : Nat
  even : Bool
  evqp : Nat
  cqack : Word
  /-- COPY commands started and not complete: number, and the eight words of the entry. -/
  copies : List (Nat × List DWord)
  /-- The WAIT, SIGNAL or SER command that holds back later entries: its eight words, and whether it has started. -/
  waiting : Option (Bool × List DWord)
  /-- Records that wait for room in the completion ring, or for the end of a slot, oldest first, as their two words. -/
  records : List (DWord × DWord)
  seq : Nat
  /-- Place of the entry read last among all that the processors have read (R81). -/
  readNo : Nat := 0
deriving DecidableEq, Repr

/-- A queue as reset leaves it (R68). -/
def Queue.reset : Queue :=
  { base := 0, en := false, ctx := 0, cls := 3, logsz := 4, widx := 0, ridx := 0, err := false,
    cqbase := 0, cqidx := 0, cqlog := 4, even := false, evqp := 0, cqack := 0, copies := [],
    waiting := none, records := [], seq := 0 }

/-- A memory key (R65, R74). -/
structure MemKey where
  key : Word
  ctx : Nat
  va : Nat
  len : Nat
  rights : Nat
deriving DecidableEq, Repr

/-- An event message (R79). -/
structure Event where
  seq : Word
  ty : Nat
  conn : Nat
  /-- Content bytes 8 on. -/
  body : List Byte
  delivered : Bool
deriving DecidableEq, Repr

/-- The answer to an RDMA request (R65, R66). -/
inductive Reply where
  | ack (conn : Nat) | data (conn : Nat) (bytes : List Byte) | nak (conn : Nat)
deriving DecidableEq, Repr

/-- A fault that RESYNC lists (R81): cause, core, queue and tag, and the launch it belongs to. -/
structure FaultRow where
  cause : Nat
  core : Option Nat
  q : Nat
  tag : Word
  lid : Nat
deriving DecidableEq, Repr

/-- An RDMA operation that a group has sent to a remote party, with its answer once it has come: data, or none for a
NAK (R466). -/
structure RdmaReq where
  gid : Nat
  n : Nat
  conn : Nat
  key : Nat
  addr : Nat
  read : Bool
  len : Nat
  data : List Byte
  reply : Option (Option (List Byte))
deriving DecidableEq, Repr

/-- An RDMA request that has come in and waits in the RDMA engine for memory that a slot holds (R50): its connection, the physical
parts that it reaches or none for a NAK, and the bytes of a WRITE. -/
structure RdmaIn where
  conn : Nat
  parts : Option (List (Nat × Nat))
  data : Option (List Byte)
deriving DecidableEq, Repr

/-- The host side of the device. -/
structure HostSide where
  queues : FMap Queue
  /-- Last queue served per processor and class: key 4 processor + class (R95). -/
  lastQueue : FMap (Option Nat)
  keys : List MemKey
  /-- Number of keys ever given (R74). -/
  keyCount : Nat
  mevqp : Nat
  meven : Bool
  evseq : Word
  sent : List Event
  replies : List Reply
  /-- Connections that firmware has bound, with their contexts, and RDMA operations sent by groups (R466). -/
  bound : List (Nat × Nat)
  requests : List RdmaReq
  inbound : List RdmaIn
  /-- Connections in error, congestion notifications sent, and how far each connection's send rate stands below the full one
  (R64, R80). -/
  connErr : NSet
  cnps : List Nat
  slowed : FMap Nat
  /-- The port enable mask of the sideband (R88). -/
  ports : BitVec 8
  /-- Entries that the command processors have read (R81). -/
  reads : Nat
  /-- Measurement registers, and the stage that halted the boot (R85, R86). -/
  measure : FMap (BitVec 256)
  bootHalt : Option Nat
  booted : NSet
  /-- Fatal error: cause and frame index (R82). -/
  fatal : Option (Nat × Word)
  /-- Bytes of the dump image while one is held, its key, and whether one was released (R82 to R84). -/
  dump : Option (Nat × Word)
  released : Bool
  faults : List FaultRow
  /-- Trap frames of double faults, with their cores, kept for the dump (R83, R315). -/
  frames : List (Nat × List Byte) := []
deriving DecidableEq, Repr

/-- A hot-plug record (R27). -/
structure DieRec where
  evseq : Nat
  pgleft : Nat
  blkleft : Nat
  reason : Nat
  prev : Nat
  st : Nat
deriving DecidableEq, Repr

/-- A die request (R31): die, online or offline, reason. -/
structure DieReq where
  die : Nat
  online : Bool
  reason : Nat
deriving DecidableEq, Repr

/-- A rail (R40): DRT and lost phases. PHS is 12 less the lost ones; CAP and ILIM follow (R41). -/
structure Rail where
  drt : Bool
  lost : Nat
deriving DecidableEq, Repr

/-- A slot open at the device (R50, R60): number, kind, published length in ns, overrun, the class-0 launches accepted and not
retired at its overrun, and those of them whose bound it suspended, which the host has still to hear of. -/
structure DevSlot where
  seq : Nat
  kind : Nat
  len : Nat
  overran : Bool
  hit : List Nat
  told : List Nat := []
deriving DecidableEq, Repr

/-- The package: dies, links, rails and the calendar. -/
structure Package where
  dies : FMap DieRec
  requests : List DieReq
  /-- Page-granules and blocks moved in the transition at hand are in the die record. Link modules that are
  off: key 1000 low die + 100 high die + module (R22). -/
  modsOff : NSet
  /-- Modules that run at x32 width, by the same keys; the others that are on run at x64 (R21). -/
  modsHalf : NSet
  rails : FMap Rail
  /-- Die whose L slot takes it dark or trains it (R29, R30). -/
  darkDue : Option Nat
  wakeDue : Option Nat
  frame : Word
  /-- ns of reference time since the frame boundary. -/
  ns : Nat
  slotSeq : Nat
  slots : List DevSlot
  /-- Slots of this frame still to open: kind and length. -/
  toOpen : List (Nat × Nat)
  /-- Announced L slots: frame and length; the frame of the last one opened; a module went off and the L slot that
  follows it is still to be announced (R46). -/
  lslots : List (Nat × Nat)
  lastL : Option Nat
  modDue : Bool
  /-- Rail currents and die temperatures, as the sensors last gave them: by rail and by die (R88). -/
  currents : FMap Nat := []
  temps : FMap Nat := []
deriving DecidableEq, Repr

/-- A request for a line: kind (0 upgrade, 1 read-exclusive, 2 read-shared), the die, the core it comes from, the sector
that takes a near copy, whether a class-0 launch makes it, and the frame and ns at which it came (R110, R269, R307). -/
structure DirReq where
  kind : Nat
  die : Nat
  core : Option Nat
  near : Option Nat
  zero : Bool
  at_ : Nat × Nat
deriving DecidableEq, Repr

/-- A directory line (R18, R307): state, owner and sharers, the queue of requests, the write-back buffers of dies
(R309), and the transaction at hand. -/
structure DirLine where
  /-- 0 I, 1 S, 2 O, 3 EM, 4 SMA, 5 XF, 6 XM. -/
  st : Nat
  owner : Nat
  sharers : NSet
  /-- Sectors, 3 die + sector, that hold a near copy (R269). -/
  near : NSet
  /-- Cores whose copies the snoop filters of their dies track (R18, R307). -/
  cores : NSet
  /-- Requests that wait at the home agent, and those that a maintenance slot holds in their senders' link queues (R50). -/
  queue : List DirReq
  sent : List DirReq
  /-- Request served by the transaction at hand, and the acknowledgements that it still needs. -/
  serving : Option DirReq
  acks : NSet
  /-- Dies whose write-back is not acknowledged; write-backs that have reached the home agent. -/
  wbuf : NSet
  wbHome : NSet
  wbPend : Bool
  /-- The forwarded snoop has been answered, and dies whose write-back acknowledgement is under way. -/
  snooped : Bool := false
  wbAck : NSet := []
  /-- Dies whose write-back is under way for an ownership that has been forwarded: it is dropped when it arrives (R309). -/
  stale : NSet := []
deriving DecidableEq, Repr

/-- A line that no die holds. -/
def DirLine.idle : DirLine :=
  { st := 0, owner := 0, sharers := [], near := [], cores := [], queue := [], sent := [], serving := none, acks := [],
    wbuf := [], wbHome := [], wbPend := false }

/-- A cached leaf translation (R275): context, virtual page, size in 4 KiB pages, frame and rights. -/
structure TlbEntry where
  ctx : Nat
  vpn : Nat
  pages : Nat
  pfn : Nat
  w : Bool
  x : Bool
  u : Bool
  mt : Nat
deriving DecidableEq, Repr

/-- What comes to the machine from outside its instructions, in the order in which it comes. -/
inductive Input where
  /-- The machine takes one step of its own: an instruction, or else the next of its own events. -/
  | advance
  /-- A device or host step. -/
  | event (i : Instr)
  /-- `n` front-end cycles pass at cluster `cl`. -/
  | elapse (cl n : Nat)
  /-- `n` ns of reference time pass. -/
  | refTime (n : Nat)
  /-- The next fetch at a core finds a folio parity error; `again` says the refetch finds it too (R335). -/
  | upset (core : Nat) (again : Bool)
  /-- A correctable tile memory error at a core (R402). -/
  | tileCorrectable (core : Nat)
  /-- A connection goes into error (R80). -/
  | connectionError (conn : Nat)
  /-- Firmware binds a connection to a context (R466). -/
  | connectionBind (conn ctx : Nat)
  /-- The remote party of a connection answers the oldest unanswered operation: with data, or none for a NAK (R466). -/
  | remoteReply (conn : Nat) (data : Option (List Byte))
  /-- The sensors give the current of a rail, or the temperature of a die (R88). -/
  | railCurrent (rail x : Nat)
  | dieTemperature (die x : Nat)
  /-- A cached translation is dropped by the device (R275). -/
  | tlbDrop (ctx vpn : Nat)
deriving DecidableEq, Repr

/-- The machine. -/
structure State where
  /-- Bytes of physical memory (R15), unlisted 0. -/
  mem : FMap Byte
  /-- Lines of 128 bytes that hold poisoned data: the detail of class 11 that reading one raises, unlisted 0 for none (R33,
  R311, R312). -/
  poison : FMap Nat
  /-- Addresses at which a saved register stands with its poison mark (R319). -/
  marks : NSet
  /-- Physical root of each context that exists (R74). -/
  ctxs : FMap (Option Nat)
  tlb : List TlbEntry
  /-- Slice of a bucket where it differs from bucket mod 96 (R267). -/
  sliceMap : FMap (Option Nat)
  /-- Disabled ways of a slice (R270). -/
  l2off : FMap Nat
  dir : FMap DirLine
  /-- Records of each committed structure by the physical address of its header (R154, R155). -/
  structs : FMap (List (List Word))
  host : HostSide
  pkg : Package
  launches : FMap (Option Launch)
  blocks : FMap (Option Block)
  /-- Groups by number: 1024 block number + group index. -/
  groups : FMap (Option Group)
  cores : FMap Core
  clusters : FMap Cluster
  draws : FMap (Option Draw)
  builds : List Build
  /-- Inputs not yet taken. -/
  inbox : List Input
  /-- The unit that holds the issue slot: group and slices. -/
  cur : Option (Nat × Nat)
  /-- The count that the free values of Config are applied to. -/
  free : Nat
  nextLaunch : Nat
  nextBlock : Nat
  nextDraw : Nat
  /-- Arbitrations made so far (R125). -/
  turns : Nat
deriving DecidableEq, Repr

/-- The slot view of a cluster after reset: the F slot of the next frame, a frame ahead (R57). -/
def SlotView.reset : SlotView := { seq := 0, kind := 0, follow := 0, len := 128, opened := false, wait := 3120 }

/-- A cluster after reset: class 0 at 1:1, twelve phases, so EBUD is floor(0.65 x 40 x 4096 / 0.8) (R37, R113). -/
def Cluster.reset : Cluster :=
  { ratio := 0, cls := 0, ratioNext := none, c0rsv := 0, c0next := none, fc := 0, ivl := 0,
    slot := SlotView.reset, drain := false, claims := [], stop := 0, eq := [], eqWait := [], tags := [],
    tasks := [], ebud := 133120, ibud := 48000, noTask := false, slotFc := 0, flight := [], recv := [] }

/-- A die record after reset (R27). -/
def DieRec.reset : DieRec := { evseq := 0, pgleft := 0, blkleft := 0, reason := 0, prev := 0, st := 0 }

/-- A rail after reset (R40). -/
def Rail.reset : Rail := { drt := false, lost := 0 }

/-- The host side after reset. -/
def HostSide.reset : HostSide :=
  { queues := [], lastQueue := [], keys := [], keyCount := 0, mevqp := 0, meven := false, evseq := 0,
    sent := [], replies := [], bound := [], requests := [], inbound := [], connErr := [], cnps := [], slowed := [],
    ports := 0xFF, reads := 0, measure := [], bootHalt := none,
    booted := [], fatal := none, dump := none, released := false, faults := [] }

/-- The package after reset. -/
def Package.reset : Package :=
  { dies := [], requests := [], modsOff := [], modsHalf := [], rails := [], darkDue := none, wakeDue := none, frame := 0,
    ns := 0, slotSeq := 0xFFFF, slots := [], toOpen := [], lslots := [], lastL := none, modDue := false }

/-- The machine right after reset: nothing placed, nothing running. -/
def State.reset : State :=
  { mem := [], poison := [], marks := [], ctxs := [], tlb := [], sliceMap := [], l2off := [], dir := [],
    structs := [], host := HostSide.reset, pkg := Package.reset, launches := [], blocks := [], groups := [],
    cores := [], clusters := [], draws := [], builds := [], inbox := [], cur := none, free := 0,
    nextLaunch := 0, nextBlock := 0, nextDraw := 0, turns := 0 }

/-- Queue `q` (R68). -/
def State.queue (s : State) (q : Nat) : Queue := FMap.get Queue.reset s.host.queues q

/-- Core `c` (R14). -/
def State.core (s : State) (c : Nat) : Core := FMap.get Core.reset s.cores c

/-- Cluster `c` (R14). -/
def State.cluster (s : State) (c : Nat) : Cluster := FMap.get Cluster.reset s.clusters c

/-- Launch `l`, if there is one. -/
def State.launch (s : State) (l : Nat) : Option Launch := FMap.get none s.launches l

/-- Block `b`, if there is one. -/
def State.block (s : State) (b : Nat) : Option Block := FMap.get none s.blocks b

/-- Group `g`, if there is one. -/
def State.group (s : State) (g : Nat) : Option Group := FMap.get none s.groups g

/-- Draw `d`, if there is one. -/
def State.draw (s : State) (d : Nat) : Option Draw := FMap.get none s.draws d

/-- `s` with queue `q` set. -/
def State.setQueue (s : State) (q : Nat) (x : Queue) : State :=
  { s with host := { s.host with queues := FMap.set Queue.reset s.host.queues q x } }

/-- `s` with core `c` set. -/
def State.setCore (s : State) (c : Nat) (x : Core) : State :=
  { s with cores := FMap.set Core.reset s.cores c x }

/-- `s` with cluster `c` set. -/
def State.setCluster (s : State) (c : Nat) (x : Cluster) : State :=
  { s with clusters := FMap.set Cluster.reset s.clusters c x }

/-- `s` with launch `l` set. -/
def State.setLaunch (s : State) (l : Nat) (x : Launch) : State :=
  { s with launches := FMap.set none s.launches l (some x) }

/-- `s` with block `b` set. -/
def State.setBlock (s : State) (b : Nat) (x : Block) : State :=
  { s with blocks := FMap.set none s.blocks b (some x) }

/-- `s` with group `g` set. -/
def State.setGroup (s : State) (g : Nat) (x : Group) : State :=
  { s with groups := FMap.set none s.groups g (some x) }

/-- `s` with draw `d` set. -/
def State.setDraw (s : State) (d : Nat) (x : Draw) : State :=
  { s with draws := FMap.set none s.draws d (some x) }

end Sys2Proof.Machine
end

