-- ==== Sys2Proof/Machine/Checks.lean ====
section
/-!
DEFINITION. What the fields of an instruction accept (R342 to R356): register classes, unused fields, the cause
of a refused field, and the shape of an instruction, which lists its scopes, roles, encoding checks and
register operands.
-/

namespace Sys2Proof.Machine

/-- Register classes that a field accepts: v, s, specials, t, d, c, constants, the zero code (R343, R345). -/
structure Acc where
  v : Bool := false
  s : Bool := false
  sp : Bool := false
  t : Bool := false
  d : Bool := false
  c : Bool := false
  k : Bool := false
  z : Bool := false
deriving DecidableEq, Repr

/-- The class of an operand is accepted; a reserved code is of no class. -/
def Acc.takes (a : Acc) : Opnd → Bool
  | .v _ => a.v
  | .s _ => a.s
  | .spec _ => a.sp
  | .t _ => a.t
  | .d _ => a.d
  | .c _ => a.c
  | .imm _ => a.k
  | .zr => a.z
  | .rsvd _ => false

/-- A lane-varying special: s160 to s164 (R196). -/
def varying : Opnd → Bool
  | .spec n => decide (n < 5)
  | _ => false

/-- The check of a source field that accepts `a` and, with `uni`, only uniform values (R345, R356). -/
def srcChk (cause : Nat) (a : Acc) (uni : Bool) (x : Src) : Option Nat :=
  if !a.takes x.reg then some cause else if uni && varying x.reg then some 6 else none

/-- The check of a destination field, cause 0.9. -/
def dstChk (a : Acc) (o : Opnd) : Option Nat := if a.takes o then none else some 9

/-- A source field that the instruction does not use holds 0x3FF with EP and LR clear (R345). -/
def unusedSrc (cause : Nat) (x : Src) : Option Nat :=
  if x.reg = .zr && !x.ep && !x.lr then none else some cause

/-- A register field that the instruction does not use holds 0x3FF (R345). -/
def unusedReg (cause : Nat) (o : Opnd) : Option Nat := if o = .zr then none else some cause

/-- A cause when a condition fails. -/
def need (cause : Nat) (ok : Bool) : Option Nat := if ok then none else some cause

/-- An await slot names v, s, d or is unused (R207). -/
def awaitChk (o : Opnd) : Option Nat :=
  need 19 (({ v := true, s := true, d := true, z := true } : Acc).takes o)

/-- A register operand of an instruction: the first register, its count, and whether its start is aligned to
the count (R194). -/
structure RegUse where
  o : Opnd
  n : Nat := 1
  align : Bool := true
  /-- EP of the field: the trapping policy (R202). -/
  ep : Bool := false
  /-- Its cells are read in lanes that the body chooses (R424): only the register itself is checked at issue. -/
  away : Bool := false
  /-- The multiple that the first register starts at, where it is not the count (R432). -/
  grain : Nat := 0
deriving DecidableEq, Repr

/-- What the issue of an instruction checks before its body runs. -/
structure Shape where
  scopes : List Scope := [.lane]
  roles : List Role := [.copy, .matrix, .vector]
  /-- Legal in system mode only (R395). -/
  sys : Bool := false
  /-- Refused with 10.0 in system mode: a write to a read-only number (R199). -/
  barred : Bool := false
  /-- Encoding checks in the order of R356. -/
  enc : List (Option Nat) := []
  srcs : List RegUse := []
  dsts : List RegUse := []
  /-- Executes once for the issuing unit (R371, R395). -/
  once : Bool := false
  /-- At block scope the unit is the block's groups on one core (R188). -/
  perCore : Bool := false
deriving DecidableEq, Repr

/-- The first static field cause of an instruction (R356, step 6). -/
def Shape.fieldCause (sh : Shape) : Option Nat := firstSome sh.enc

/-- The code of an operand in 10 bits (R343). -/
def codeOf : Opnd → Nat
  | .v n => n
  | .s n => 256 + n
  | .spec n => 416 + n
  | .t n => 512 + n
  | .d n => 528 + n
  | .c n => 544 + n
  | .imm k => (608 + k).toNat
  | .zr => 1023
  | .rsvd c => c.toNat

/-- The destination is a scalar register, so that the instruction executes once for the unit (R371). A special is of
another class: the register check refuses it (R192, R193). -/
def isScalar : Opnd → Bool
  | .s _ => true
  | _ => false

/-- The register use of a source field. -/
def useOf (x : Src) (n : Nat) : RegUse := { o := x.reg, n := n, ep := x.ep }

end Sys2Proof.Machine
end

