-- ==== Sys2Proof/Config.lean ====
section
/-!
DEFINITION. The values that the spec leaves to the part: free values, which have no body, so that nothing
can be proved of the number they hold.
-/

namespace Sys2Proof.Config

/-- A free word: the n-th value that the spec leaves open (log 3). -/
opaque freeWord : Nat → BitVec 64

/-- Identity bytes of the part: revision, serial number and firmware version (R67, log 6). -/
opaque identityByte : Nat → BitVec 8

/-- The candidate for a new memory key, by the count of keys ever given (R74, log 7). -/
opaque newKey : Nat → BitVec 32

/-- The memory key of the firmware's region over the register window (R65, log 7). -/
opaque windowKey : BitVec 32

/-- Whether a firmware image carries the vendor's signature (R85, log 8). -/
opaque signatureValid : List (BitVec 8) → List (BitVec 8) → Bool

/-- Byte k of the identity public key (R87, log 8). -/
opaque identityKeyByte : Nat → BitVec 8

/-- Byte k of the signature of a report (R87, log 8). -/
opaque reportSignatureByte : List (BitVec 8) → Nat → BitVec 8

/-- Byte k of the structure that a build engine lays out for a sequence of records, beyond its header (R154, log 37). -/
opaque structureByte : List (List (BitVec 32)) → Nat → BitVec 8

/-- Whether firmware classes a machine check as fatal (R82, log 9). -/
opaque checkIsFatal : Nat → Bool

/-- How much further the firmware's rule lowers the send rate of a connection that stands some steps below the full one (R64, log
142). -/
opaque rateStep : Nat → Nat

/-- Slots of a die's link queue beyond its first: each internal queue has a fixed depth, which the spec does not give (R56, R121,
log 152). -/
opaque linkDepth : Nat

end Sys2Proof.Config
end

