-- ==== Sys2Proof/Machine/Mem.lean ====
section
/-!
DEFINITION. Identifiers, events, the physical map, the register window, translation, and bytes of memory
(R13 to R19, R33, R67, R79, R261 to R276).
-/

namespace Sys2Proof.Machine

/-! ### Identifiers (R13, R14) -/

/-- Cluster of a core. -/
def clusterOf (core : Nat) : Nat := core / 4

/-- Shader die of a core. -/
def dieOf (core : Nat) : Nat := core / 48

/-- Shader die of a cluster. -/
def dieOfCluster (cl : Nat) : Nat := cl / 12

/-- Two shader dies are adjacent (R13). -/
def adjacentDies (a b : Nat) : Bool :=
  (a / 4 == b / 4 && (a % 4 + 1 == b % 4 || b % 4 + 1 == a % 4)) || (a % 4 == b % 4 && a / 4 != b / 4)

/-- The die record of SDn (R27). -/
def State.die (s : State) (d : Nat) : DieRec := FMap.get DieRec.reset s.pkg.dies d

/-- `s` with the die record of SDn set. -/
def State.setDie (s : State) (d : Nat) (x : DieRec) : State :=
  { s with pkg := { s.pkg with dies := FMap.set DieRec.reset s.pkg.dies d x } }

/-- DSTAT of SDn as a word (R27). -/
def dstatWord (r : DieRec) : Nat :=
  r.evseq % 65536 * 2 ^ 48 + Nat.min r.pgleft 65535 * 2 ^ 32 + Nat.min r.blkleft 255 * 2 ^ 24 +
    r.reason * 2 ^ 12 + r.prev * 16 + r.st

/-- The die is powered off: DARK, waking, FAILED, or waiting in one of those (R28). -/
def dieDark (r : DieRec) : Bool :=
  let st := if r.st == 8 then r.prev else r.st
  st == 4 || st == 5 || st == 7

/-- The rail k of R67 as held. -/
def State.rail (s : State) (k : Nat) : Rail := FMap.get Rail.reset s.pkg.rails k

/-- Phases in service (R40). -/
def phsOf (r : Rail) : Nat := 12 - r.lost

/-- CAP of a count of phases (R41). With 0 to 3 phases the table gives a dash: CAP is 0 then, in RAIL, in the derate event and as a
limit (DESIGN CHOICE, log 134). -/
def capOf (phs : Nat) : Nat :=
  if phs ≥ 10 then 3 else if phs ≥ 8 then 2 else if phs ≥ 6 then 1 else 0

/-- Amperes per phase of rail k (R39). -/
def phaseShare (k : Nat) : Nat :=
  if k == 24 then 20 else if k == 25 then 10
  else if k % 3 == 0 then 40 else if k % 3 == 1 then 8 else 5

/-- ILIM of rail k (R40). -/
def ilimOf (k : Nat) (r : Rail) : Nat := phaseShare k * phsOf r

/-- The RAIL register k as a word (R40). -/
def railWord (s : State) (k : Nat) : Nat :=
  let r := s.rail k
  b2n r.drt * 2 ^ 31 + phsOf r * 2 ^ 24 + capOf (phsOf r) * 2 ^ 20 + ilimOf k r

/-! ### Events (R79, R80) -/

/-- The ports are up once every stage of the boot is verified; a stage that fails halts the boot, and they stay down (R85; DEDUCED,
log 150). -/
def portsUp (s : State) : Bool := s.host.bootHalt.isNone && (List.range 5).all (NSet.has s.host.booted)

/-- A port carries traffic: the boot has not halted, and the sideband's mask leaves it enabled (R85, R88). -/
def anyPort (s : State) : Bool := portsUp s && s.host.ports != 0

/-- The port of a connection carries traffic; a connection's number holds its port in bits 26 to 24 (R466, log 143). -/
def portUp (s : State) (conn : Nat) : Bool := portsUp s && s.host.ports.getLsbD (bits conn 26 24)

/-- Sends one event: EVSEQ advances by one whether or not the message can be delivered (R79, R80). -/
def sendEvent (s : State) (ty conn : Nat) (enabled : Bool) (body : List Byte) : State :=
  let h := s.host
  let e : Event := { seq := h.evseq + 1, ty := ty, conn := conn, body := body,
                     delivered := enabled && anyPort s && !NSet.has h.connErr conn }
  { s with host := { h with evseq := h.evseq + 1, sent := h.sent ++ [e] } }

/-- Sends a module event on MEVQP (R79). -/
def sendModule (s : State) (ty : Nat) (body : List Byte) : State :=
  sendEvent s ty s.host.mevqp s.host.meven body

/-- Sends the machine-check event of a class-11 cause (R510): cause, die, then the content of the kind. -/
def sendCheck (s : State) (cause die : Nat) (content : List Byte) : State :=
  sendModule s 5 (leBytes 2 cause ++ leBytes 2 die ++ content)

/-! ### The physical map (R15, R16, R33) -/

/-- An address of an HBM4E stack. -/
def isHbm (pa : Nat) : Bool := pa < 0x8000000000

/-- An address of the LPDDR6 tier. -/
def isLp (pa : Nat) : Bool := 0x10000000000 ≤ pa && pa < 0x20000000000

/-- An address of the device register window. -/
def isWindow (pa : Nat) : Bool := 0xFFF0000000000 ≤ pa && pa < 0x10000000000000

/-- An address that reaches nothing (R16). -/
def isHole (pa : Nat) : Bool := !(isHbm pa || isLp pa || isWindow pa)

/-- The firmware region (R19). -/
def isFirmware (pa : Nat) : Bool := 0x1FC00000000 ≤ pa && pa < 0x20000000000

/-- The stack of a dark die holds the address (R33). -/
def isDark (s : State) (pa : Nat) : Bool := isHbm pa && dieDark (s.die (pa / 0x1000000000))

/-- The 128-byte line of an address. -/
def lineOf (pa : Nat) : Nat := pa / 128

/-- The address lies in a poisoned line. -/
def isPoisoned (s : State) (pa : Nat) : Bool := FMap.get 0 s.poison (lineOf pa) != 0

/-- The machine-check cause of reading a poisoned line: 11.4 HBM4E, 11.5 LPDDR6, 11.6 L2, 11.10 a save area (R311). -/
def lineCheck (s : State) (pa : Nat) : Nat := 0x160 + FMap.get 0 s.poison (lineOf pa)

/-- An engine, a home agent, a sequencer or a distributor does its step: after a fatal error every one stands still (R82, log 89).
-/
def working (s : State) (o : Host.Outcome State Fault Refusal) : Host.Outcome State Fault Refusal :=
  if s.host.fatal.isSome then .next s else o

/-! ### The register window (R67, R68) -/

/-- The state code of a queue (R68, R75, R82). R68 names IDLE and RUNNING without telling them apart: RUNNING means an entry still
to be read or a COPY in flight, whatever launches are outstanding (DESIGN CHOICE, log 135). -/
def queueState (s : State) (q : Queue) : Nat :=
  if s.host.fatal.isSome then 5
  else if q.err then 4
  else if !q.en then 0
  else if q.waiting.isSome then 3
  else if q.ridx == q.widx && q.copies.isEmpty then 1 else 2

/-- The word w of a queue descriptor (R68). -/
def queueWord (s : State) (n w : Nat) : Nat :=
  let q := s.queue n
  match w with
  | 0 => q.base.toNat
  | 1 => b2n q.en * 2 ^ 24 + q.ctx * 2 ^ 16 + q.cls * 2 ^ 8 + q.logsz
  | 2 => q.widx.toNat * 2 ^ 32 + q.ridx.toNat
  | 3 => queueState s q
  | 4 => q.cqbase.toNat
  | 5 => q.cqidx.toNat * 2 ^ 32 + q.cqlog
  | 6 => b2n q.even * 2 ^ 24 + q.evqp
  | _ => q.cqack.toNat

/-- The byte at an offset of the window; offsets not listed read 0 (R67). -/
def windowByte (s : State) (off : Nat) : Byte :=
  let pick (w k : Nat) : Byte := BitVec.ofNat 8 (w / 256 ^ k)
  if off < 4 then pick 0x740 off
  else if off < 8 then (if off < 6 then Config.identityByte off else 0)
  else if off < 32 then Config.identityByte off
  else if off < 0x100 then 0
  else if off < 0x108 then pick (s.host.mevqp + b2n s.host.meven * 2 ^ 24) (off - 0x100)
  else if 0x10000 ≤ off && off < 0x10040 then pick (dstatWord (s.die ((off - 0x10000) / 8))) (off % 8)
  else if 0x20000 ≤ off && off < 0x20068 then pick (railWord s ((off - 0x20000) / 4)) (off % 4)
  else if 0x100000 ≤ off && off < 0x102000 then
    pick (queueWord s ((off - 0x100000) / 64) (off % 64 / 8)) (off % 8)
  else 0

/-- Clears DRT of rail k when the written byte sets its bit (R10, R40). -/
def clearDrt (s : State) (k : Nat) : State :=
  { s with pkg := { s.pkg with rails := FMap.set Rail.reset s.pkg.rails k { s.rail k with drt := false } } }

/-- Fields of a queue descriptor that a host write of a whole word sets: EVEN at any time, the others while EN is 0 (R68). -/
def writeQueueWord (q : Queue) (w v : Nat) : Queue :=
  if w == 6 then { q with even := tb v 24, evqp := if q.en then q.evqp else bits v 23 0 }
  else if q.en then q
  else match w with
  | 0 => { q with base := BitVec.ofNat 64 v }
  | 1 => { q with ctx := bits v 23 16, cls := bits v 9 8, logsz := bits v 4 0 }
  | 4 => { q with cqbase := BitVec.ofNat 64 v }
  | 5 => { q with cqlog := bits v 4 0 }
  | _ => q

/-- Byte fields of an entry: KIND, SER, NOTIFY, reserved bits, TAG, and payload word k (bytes 8k on; R73). -/
def entKind (w : List DWord) : Nat := bits (w.getD 0 0).toNat 7 0
def entSer (w : List DWord) : Bool := tb (w.getD 0 0).toNat 8
def entNotify (w : List DWord) : Bool := tb (w.getD 0 0).toNat 9
def entReserved (w : List DWord) : Nat := bits (w.getD 0 0).toNat 31 10
def entTag (w : List DWord) : Word := BitVec.ofNat 32 (bits (w.getD 0 0).toNat 63 32)
def entW (w : List DWord) (k : Nat) : Nat := (w.getD k 0).toNat

/-- A queue stands in ERROR: HALTED takes its place after a fatal error (R68, R82). -/
def inError (s : State) (q : Queue) : Bool := q.err && s.host.fatal.isNone

/-- The two words of a completion record: STATUS, QUEUE, ACC and TAG, then VALUE (R77). -/
def doneWords (n : Nat) (tag : Word) (status value : Nat) (acc : Bool) : DWord × DWord :=
  (BitVec.ofNat 64 (b2n acc * 2 ^ 47 + n * 2 ^ 40 + status * 2 ^ 32 + tag.toNat), BitVec.ofNat 64 value)

/-- A record as its 16 bytes. -/
def recordRow (r : DWord × DWord) : List Byte := leBytes 8 r.1.toNat ++ leBytes 8 r.2.toNat

/-- The completion event of a record, where NOTIFY and EVEN ask for it (R79). -/
def tellDone (s : State) (n : Nat) (notify : Bool) (r : DWord × DWord) : State :=
  let q := s.queue n
  if notify && q.even then sendEvent s 1 q.evqp true (recordRow r) else s

/-- A WAIT of a disabled queue completes ABORTED: its record joins those that wait to be written (R68, R77). -/
def abortWait (s : State) (n : Nat) : State :=
  let q := s.queue n
  match q.waiting with
  | some (_, w) =>
    if entKind w == 4 && !q.en then
      let r := doneWords n (entTag w) 5 0 false
      tellDone (s.setQueue n { q with waiting := none, records := if inError s q then q.records else q.records ++ [r] })
        n (entNotify w) r
    else s
  | none => s

/-- The enable of a queue: into ERROR where R68 says so, else the queue runs. -/
def enableQueue (s : State) (n : Nat) : State :=
  let q := s.queue n
  let bad := q.logsz < 4 || q.logsz > 16 || q.cqlog < 4 || q.cqlog > 16 || q.base.toNat % 64 != 0 ||
    q.cqbase.toNat % 16 != 0 || (FMap.get none s.ctxs q.ctx).isNone
  if q.en then s else s.setQueue n { q with en := true, err := bad }

/-! ### Translation (R272 to R276) -/

/-- The 64-bit word in memory at a physical address. -/
def physWord (s : State) (pa : Nat) : Nat :=
  leVal ((List.range 8).map fun k => FMap.get (0 : Byte) s.mem (pa + k))

/-- What a translation answers. -/
inductive Tr where
  | ok (pa mt : Nat)
  | trans
  | perm
  | dark (die : Nat)
deriving DecidableEq, Repr

/-- A leaf reached by a walk. -/
structure Leaf where
  pages : Nat
  pfn : Nat
  w : Bool
  x : Bool
  u : Bool
  mt : Nat
deriving DecidableEq, Repr

/-- Bits that no entry may set: [55:52], [11:9], [6] (R273). -/
def pteReserved (e : Nat) : Bool := bits e 55 52 != 0 || bits e 11 9 != 0 || tb e 6

/-- The run of 16 entries that a C64 entry belongs to is whole (R274). -/
def c64RunOk (s : State) (table idx e : Nat) : Bool :=
  let first := idx / 16 * 16
  let base := bits e 51 12 / 16 * 16
  (List.range 16).all fun k =>
    let x := physWord s (table + 8 * (first + k))
    bits x 51 12 == base + k && bits x 11 0 == bits e 11 0 && bits x 55 52 == bits e 55 52

/-- The walk from a table at a level: the leaf, or none for a TRANS fault (R272 to R274). A table that would lie in a hole or in the
register window holds no entry: the spec names no fault for its read, and the access that walks has TRANS of its own space
(DESIGN CHOICE, log 151). -/
def walkFrom (s : State) (va : Nat) : List Nat → Nat → Option Leaf
  | [], _ => none
  | lv :: rest, table =>
    let idx := va / 2 ^ (12 + 9 * lv) % 512
    let at_ := table + 8 * idx
    if isHole at_ || isWindow at_ || isDark s at_ then none
    else
      let e := physWord s at_
      let mt := bits e 8 7
      let pfn := bits e 51 12
      if !tb e 0 || pteReserved e || mt == 3 then none
      else if tb e 1 then
        if lv ≥ 3 || pfn % 512 ^ lv != 0 || (tb e 5 && lv != 0) then none
        else if tb e 5 && !c64RunOk s table idx e then none
        else some { pages := 512 ^ lv, pfn := pfn, w := tb e 2, x := tb e 3, u := tb e 4, mt := mt }
      else if lv == 0 || tb e 5 then none
      else walkFrom s va rest (pfn * 4096)

/-- The dark die in whose stack the walk from a table at a level reads an entry, if it does (R33). -/
def walkDark (s : State) (va : Nat) : List Nat → Nat → Option Nat
  | [], _ => none
  | lv :: rest, table =>
    let at_ := table + 8 * (va / 2 ^ (12 + 9 * lv) % 512)
    if isDark s at_ then some (at_ / 0x1000000000)
    else if isHole at_ || isWindow at_ then none
    else
      let e := physWord s at_
      if tb e 0 && !pteReserved e && !tb e 1 && !tb e 5 then walkDark s va rest (bits e 51 12 * 4096) else none

/-- Frames of a die's stack, with their number of 4 KiB pages, that a table and those under it point to; the sixteen entries of a 64 KiB
page point to one (R29, R273). -/
def framesUnder (s : State) (die : Nat) : List Nat → Nat → List (Nat × Nat)
  | [], _ => []
  | lv :: rest, table =>
    (List.range 512).flatMap fun k =>
      let e := physWord s (table + 8 * k)
      let pfn := bits e 51 12
      let leaf := if tb e 5 then (pfn / 16 * 16, 16) else (pfn, 512 ^ lv)
      let here := if pfn / 0x1000000 == die then [if tb e 1 then leaf else (pfn, 1)] else []
      if !tb e 0 then [] else if tb e 1 then here else here ++ framesUnder s die rest (pfn * 4096)

/-- Frames of a die's stack that a context uses: its tables and its pages (R29). -/
def stackFrames (s : State) (die : Nat) : List (Nat × Nat) :=
  s.ctxs.flatMap fun e => match e.2 with
    | none => []
    | some root => (if root / 0x1000000000 == die then [(root / 4096, 1)] else []) ++ framesUnder s die [4, 3, 2, 1, 0] root

/-- The walk of a virtual address in a context (R272). -/
def walk (s : State) (ctx va : Nat) : Option Leaf :=
  match FMap.get none s.ctxs ctx with
  | none => none
  | some root => if va ≥ 2 ^ 57 then none else walkFrom s va [4, 3, 2, 1, 0] root

/-- The cached translation of a page, if there is one (R275). -/
def tlbFind (s : State) (ctx va : Nat) : Option TlbEntry :=
  s.tlb.find? fun e => e.ctx == ctx && e.vpn ≤ va / 4096 && va / 4096 < e.vpn + e.pages

/-- What an access wants of a translation. -/
structure Want where
  write : Bool
  fetch : Bool
  user : Bool
deriving DecidableEq, Repr

/-- The translation in force for an address: the cached one where one is held, else the walk's (R275). -/
def leafOf (s : State) (ctx va : Nat) : Option (Nat × Leaf) :=
  match tlbFind s ctx va with
  | some e => some (e.vpn, { pages := e.pages, pfn := e.pfn, w := e.w, x := e.x, u := e.u, mt := e.mt })
  | none =>
    match walk s ctx va with
    | some l => some (va / 4096 / l.pages * l.pages, l)
    | none => none

/-- Translation of a virtual address with its rights; a walk that meets the stack of a dark die is told apart (R33, R272 to
R275). -/
def translate (s : State) (ctx : Nat) (want : Want) (va : Nat) : Tr :=
  match leafOf s ctx va with
  | none => match FMap.get none s.ctxs ctx with
    | some root => if va ≥ 2 ^ 57 then .trans else match walkDark s va [4, 3, 2, 1, 0] root with
      | some die => .dark die
      | none => .trans
    | none => .trans
  | some (vpn, l) =>
    if (want.write && !l.w) || (want.user && !l.u) || (want.fetch && !l.x) then .perm
    else .ok ((l.pfn + (va / 4096 - vpn)) * 4096 + va % 4096) l.mt

/-- The TLB with a leaf of an address taken in, if it is valid and not yet there (R275). -/
def tlbFill (s : State) (ctx va : Nat) : State :=
  if (tlbFind s ctx va).isSome then s
  else match walk s ctx va with
  | none => s
  | some l =>
    { s with tlb := s.tlb ++ [{ ctx := ctx, vpn := va / 4096 / l.pages * l.pages, pages := l.pages,
                                pfn := l.pfn, w := l.w, x := l.x, u := l.u, mt := l.mt }] }

/-! ### Bytes of memory -/

/-- The byte at a physical address: memory, or the register window (R15, R67). -/
def physByte (s : State) (pa : Nat) : Byte :=
  if isWindow pa then windowByte s (pa - 0xFFF0000000000) else FMap.get (0 : Byte) s.mem pa

/-- `n` bytes at a physical address. -/
def physBytes (s : State) (pa n : Nat) : List Byte := (List.range n).map fun k => physByte s (pa + k)

/-- A byte written to physical memory; a poison mark at its address goes. -/
def putMem (s : State) (pa : Nat) (v : Byte) : State :=
  { s with mem := FMap.set 0 s.mem pa v, marks := NSet.del s.marks pa }

/-- Bytes written to physical memory, in order. -/
def putMems (s : State) (pa : Nat) : List Byte → State
  | [] => s
  | b :: rest => putMems (putMem s pa b) (pa + 1) rest

/-- The write of word `w` of the descriptor of queue `n`; clearing EN ends a waiting WAIT (R68). -/
def writeDescriptor (s : State) (n w v : Nat) : State :=
  let q := writeQueueWord (s.queue n) w v
  if w != 1 then s.setQueue n q
  else if tb v 24 then enableQueue (s.setQueue n q) n
  else abortWait (s.setQueue n { q with en := false }) n

/-- One 64-bit word of the window written where `data` says bytes are: DRT flags by their byte, the rest as the word that
stands with those bytes replaced (R8, R67). -/
def windowWord (s : State) (off : Nat) (data : List (Option Byte)) : State :=
  if 0x20000 ≤ off && off < 0x20068 then
    let hit (k : Nat) : Bool := match data.getD k none with
      | some b => b.toNat ≥ 128
      | none => false
    let s1 := if hit 3 then clearDrt s ((off - 0x20000) / 4) else s
    if hit 7 && off + 4 < 0x20068 then clearDrt s1 ((off - 0x20000) / 4 + 1) else s1
  else
    let v := leVal (data.zipIdx.map fun x => x.1.getD (windowByte s (off + x.2)))
    if off == 0x100 then { s with host := { s.host with mevqp := bits v 23 0, meven := tb v 24 } }
    else if 0x100000 ≤ off && off < 0x102000 then writeDescriptor s ((off - 0x100000) / 64) (off % 64 / 8) v
    else s

/-- Bytes written to the window, by words of eight; the doorbell pages take nothing here (R8, R67). -/
def windowWrite (s : State) (off : Nat) (bs : List Byte) : State :=
  let first := off / 8 * 8
  (List.range (cdiv (off + bs.length - first) 8)).foldl (fun st k =>
    let at_ := first + 8 * k
    windowWord st at_ ((List.range 8).map fun j => if at_ + j < off then none else bs[at_ + j - off]?)) s

/-- No block: the agent is outside the cores. -/
def noBlock : Nat := 2 ^ 64

end Sys2Proof.Machine
end

