-- ==== Sys2Proof/Machine/Directory.lean ====
section
/-!
DEFINITION. The home agents with their directory, the snoop filters, the L2 slice table and the coherent write of bytes
(R17, R18, R50, R54, R110, R263, R267 to R269, R278, R292, R307 to R309).

Memory itself holds the latest write of every byte (log 5), so no transaction moves a value: the directory keeps the account
of who holds each line. A store waits in its queue for the line as R308 says, and an agent that writes at once waits until no
transaction is at hand and no request waits (R307, log 118).
-/

namespace Sys2Proof.Machine

/-! ### Home agents and slices (R17, R267) -/

/-- The LPDDR6 controller that serves an address of that tier (R17). -/
def controllerOf (pa : Nat) : Nat := bits pa 14 12

/-- The home agent of a line: 0 to 7 those of the HBM4E stacks, 8 to 15 those of the LPDDR6 controllers (R17). -/
def homeAgent (pa : Nat) : Nat := if isHbm pa then pa / 0x1000000000 else 8 + controllerOf pa

/-- The die of the home agent of an address; the LPDDR6 controllers are on the FE die, 8 (R13). -/
def homeDie (pa : Nat) : Nat := if homeAgent pa < 8 then homeAgent pa else 8

/-- Bucket that a physical address selects (R267). -/
def bucketOf (pa : Nat) : Nat := bits pa 18 7 ^^^ bits pa 30 19 ^^^ bits pa 42 31 ^^^ bits pa 51 43

/-- Slice of a bucket (R267). -/
def sliceOf (s : State) (bucket : Nat) : Nat := (FMap.get none s.sliceMap bucket).getD (bucket % 96)

/-- The slice in which an access to an address is looked up (R266, R267). -/
def sliceOfPa (s : State) (pa : Nat) : Nat := sliceOf s (bucketOf pa)

/-- Sector of a core over the module: 3 die + sector (R14). -/
def sectorOf (core : Nat) : Nat := core / 16

/-! ### The directory's lines (R18, R307) -/

/-- The directory's line `n`. -/
def State.line (s : State) (n : Nat) : DirLine := FMap.get DirLine.idle s.dir n

/-- `s` with the directory's line `n` set. -/
def State.setLine (s : State) (n : Nat) (x : DirLine) : State := { s with dir := FMap.set DirLine.idle s.dir n x }

/-- The die holds the line with every right: it may write it. -/
def DirLine.owns (l : DirLine) (die : Nat) : Bool := l.st == 3 && l.owner == die

/-- The die holds a copy of the line. -/
def DirLine.lists (l : DirLine) (die : Nat) : Bool :=
  NSet.has l.sharers die || ((l.st == 2 || l.st == 3) && l.owner == die)

/-- The sectors of near copies on other dies than one. -/
def nearDies (l : DirLine) : NSet := l.near.foldl (fun a k => NSet.add a (k / 3)) []

/-- The dies whose copies a request of a die ends: sharers and near copies, and the owner of a line in O. -/
def othersOf (l : DirLine) (die : Nat) : NSet :=
  ((if l.st == 2 then NSet.add l.sharers l.owner else l.sharers) ++ nearDies l).foldl
    (fun a d => if d == die then a else NSet.add a d) []

/-- The line is not free for an access that no copy of its own serves: a transaction is at hand, or requests wait (R307). -/
def DirLine.busy (l : DirLine) : Bool := decide (4 ≤ l.st) || !l.queue.isEmpty || !l.sent.isEmpty

/-- A line whose ownership passes on: a write-back of its owner that is under way is to be dropped, and one held at the home agent is
dropped and acknowledged (R309). -/
def DirLine.passed (l : DirLine) : DirLine :=
  if !(l.st == 2 || l.st == 3 || l.st == 5) || !NSet.has l.wbuf l.owner || NSet.has l.wbAck l.owner then l
  else if NSet.has l.wbHome l.owner then { l with wbHome := NSet.del l.wbHome l.owner, wbAck := NSet.add l.wbAck l.owner }
  else { l with stale := NSet.add l.stale l.owner }

/-- The snoop filters less the cores of some dies. -/
def DirLine.forget (l : DirLine) (gone : Nat → Bool) : DirLine :=
  { l with cores := l.cores.filter fun k => !gone (dieOf k) }

/-- The line held exclusively by one die, whose snoop filter tracks the core that asked. -/
def ownedBy (l : DirLine) (die : Nat) (core : Option Nat) : DirLine :=
  let l1 := l.forget (· != die)
  { l1 with st := 3, owner := die, sharers := [], near := [], serving := none, acks := [], wbPend := false, snooped := false
            cores := match core with
              | some k => NSet.add l1.cores k
              | none => l1.cores }

/-- A read-exclusive: forwarded to an owner, else served from memory, with the other copies invalidated. -/
def serveExclusive (l : DirLine) (r : DirReq) : DirLine :=
  let owned := (l.st == 2 || l.st == 3) && l.owner != r.die
  let others := (othersOf l r.die).filter fun d => !(owned && d == l.owner)
  if l.owns r.die then ownedBy l r.die r.core
  else { l with st := if owned then 5 else 6, serving := some r, acks := others, sharers := others, near := [] }

/-- A read-shared: the die is listed, and with a near copy its sector (R269). -/
def shareLine (l : DirLine) (r : DirReq) : DirLine :=
  let l1 := { l with
    near := match r.near with
      | some k => NSet.add l.near k
      | none => l.near
    cores := match r.core with
      | some k => NSet.add l.cores k
      | none => l.cores }
  if l1.owns r.die then l1
  else { l1 with st := if l1.st == 3 then 2 else if l1.st == 0 then 1 else l1.st, sharers := NSet.add l1.sharers r.die }

/-- One request served (R269, R308). -/
def serveOne (l : DirLine) (r : DirReq) : DirLine :=
  if r.kind == 0 && (l.st == 1 || l.st == 2) && l.lists r.die then
    let others := othersOf l r.die
    if others.isEmpty then ownedBy l r.die r.core
    else { (if l.st == 2 && l.owner != r.die then l.passed else l) with
           st := 4, owner := r.die, serving := some r, acks := others, sharers := others, near := [] }
  else if r.kind ≤ 1 then serveExclusive l r
  else shareLine l r

/-- One request is served before another that came earlier: class 0 before the other classes, and among requests of one
moment the lower die first (R110, R307, log 118). -/
def DirReq.before (a b : DirReq) : Bool :=
  (a.zero && !b.zero) || (a.zero == b.zero && a.at_ == b.at_ && decide (a.die < b.die))

/-- A request takes its place in a queue (R110, R307). -/
def enqueue (r : DirReq) : List DirReq → List DirReq
  | [] => [r]
  | x :: rest => if r.before x then r :: x :: rest else x :: enqueue r rest

/-- Requests are served in their order until one takes a transaction, or is held. The first number bounds them. -/
def serveLine (held : DirLine → DirReq → Bool) : Nat → DirLine → DirLine
  | 0, l => l
  | n + 1, l =>
    if l.st ≥ 4 then l
    else match l.queue with
    | [] => l
    | r :: rest => if held l r then l else serveLine held n (serveOne { l with queue := rest } r)

/-! ### What a maintenance slot holds (R50, R54) -/

/-- A slot is open at the device: it holds memory requests and die-link traffic (R50). -/
def memHeld (s : State) : Bool := !s.pkg.slots.isEmpty

/-- A message between a die and the home agent of a line is held: it crosses a die link while a slot is open (R50). -/
def linkHeld (s : State) (die line : Nat) : Bool := memHeld s && homeDie (128 * line) != die

/-- An access of a core to a physical address reaches a queue that a slot holds: its slice lies on another die, or its die
does not hold the line with the rights the access needs; a near copy of its sector serves a read (R54, R266, R269, log 119). -/
def lineFar (s : State) (core : Nat) (write : Bool) (pa : Nat) : Bool :=
  let l := s.line (lineOf pa)
  let d := dieOf core
  !((sliceOfPa s pa / 12 == d && (if write then l.owns d else l.lists d)) || (!write && NSet.has l.near (sectorOf core)))

/-- What serves a request is held: data of a memory or of another die for a read, or a grant that crosses a die link (R50, R54). -/
def serviceHeld (s : State) (line : Nat) (l : DirLine) (r : DirReq) : Bool :=
  if r.kind == 2 then memHeld s && !l.lists r.die else linkHeld s r.die line && !l.owns r.die

/-- The requests that wait at a line's home agent are served. -/
def settleLine (s : State) (line : Nat) (l : DirLine) : State :=
  s.setLine line (serveLine (serviceHeld s line) (l.queue.length + 1) l)

/-- Requests in the link queue of a die (R56). -/
def sentBy (s : State) (die : Nat) : Nat :=
  (s.dir.map fun e => (e.2.sent.filter fun r => r.die == die).length).foldl (· + ·) 0

/-- A slot holds a request of a die for a line, and the die's link queue has no free slots for it and `n` others: its producer stalls
(R56, R121, R122). -/
def linkFull (s : State) (die line n : Nat) : Bool := linkHeld s die line && decide (Config.linkDepth < sentBy s die + n)

/-- A request comes to the home agent, or waits in its sender's link queue while a slot holds it; an unknown die sends none, and a
full link queue takes none (R50, R56, R307). -/
def requestLine (s : State) (line : Nat) (r : DirReq) : State :=
  let l := s.line line
  let r1 := { r with at_ := (s.pkg.frame.toNat, s.pkg.ns) }
  if 8 < r.die || linkFull s r.die line 0 then s
  else if linkHeld s r.die line then s.setLine line { l with sent := l.sent ++ [r1] }
  else s.setLine line { l with queue := enqueue r1 l.queue }

/-- The home agent serves what waits for a line, held requests first once no slot holds them (R50, R307). -/
def serveWaiting (line : Nat) (s : State) : State :=
  let l := s.line line
  let free := l.sent.filter fun r => !linkHeld s r.die line
  settleLine s line { l with
    queue := free.foldl (fun q r => enqueue r q) l.queue, sent := l.sent.filter fun r => linkHeld s r.die line }

/-- A die has a request for a line that is not served yet. -/
def DirLine.asked (l : DirLine) (die : Nat) : Bool := (l.queue ++ l.sent ++ l.serving.toList).any fun r => r.die == die

/-! ### Lines taken at once: accesses that complete within the step that makes them (R292, R306) -/

/-- A core's die takes a line exclusive, in one transaction of its own: no other is at hand, since what writes at once waits for its
turn (R263, R292, R307, log 118). -/
def takeLine (l : DirLine) (core : Nat) : DirLine :=
  if 4 ≤ l.st then l else ownedBy (if l.owner == dieOf core then l else l.passed) (dieOf core) (some core)

/-- A write of an agent outside the cores, or one that bypasses the L2, leaves the line in no cache (R263, R291, R306, R307). -/
def dropCopies (l : DirLine) : DirLine :=
  if 4 ≤ l.st then l else { l.passed with st := 0, owner := 0, sharers := [], near := [], cores := [] }

/-- A core reads a line: a copy of its die serves it, and the snoop filter tracks the core; else its request takes its place at the
home agent, which lists the die once it is served (R110, R263, R307). `zero` says that a class-0 launch reads. -/
def readLine (s : State) (core pa : Nat) (zero : Bool) : State :=
  let line := lineOf pa
  let l := s.line line
  let die := dieOf core
  if l.lists die then s.setLine line { l with cores := NSet.add l.cores core }
  else if l.asked die then s
  else requestLine s line { kind := 2, die := die, core := some core, near := none, zero := zero, at_ := (0, 0) }

/-- A line of the directory for which requests wait, or a transaction is at hand: agents outside the cores write and flush once there is
none; after a fatal error no home agent goes on, and none is waited for (R82, R307, log 118). -/
def linesBusy (s : State) : Bool := s.host.fatal.isNone && s.dir.any fun e => e.2.busy

/-- What an agent outside the cores writes in memory waits: a slot holds it, or a line has a transaction at hand (R50, R307, log
118). -/
def memBusy (s : State) : Bool := memHeld s || linesBusy s

/-- A write that is made at once to a physical address waits: its line is busy, and the writer's die does not own it; `core` is none
for a write that no copy serves (R291, R307). -/
def writeWaits (s : State) (core : Option Nat) (pa : Nat) : Bool :=
  let l := s.line (lineOf pa)
  !isWindow pa && l.busy && match core with
    | some k => !l.owns (dieOf k)
    | none => true

/-! ### Coherent writes (R263, R278) -/

/-- The stash lines of a mapping that hold a physical address: several where pages of the mapping share a frame (R261, R263). -/
def stashLinesOfPa (m : Stash) (pa : Nat) : List Nat :=
  (List.range m.lines).filter fun i => FMap.get 0 m.st i != 0 && FMap.get 0 m.pas i == pa / 128 * 128

/-- The mappings of a block core with every line that holds `pa` INVALID (R263). -/
def BCore.dropLine (c : BCore) (pa : Nat) : BCore :=
  { c with stashes := c.stashes.map fun m =>
      { m with st := (stashLinesOfPa m pa).foldl (fun f i => FMap.set 0 f i 0) m.st } }

/-- Every stash copy of the line of `pa` goes INVALID (R263). -/
def invalidateStashes (s : State) (pa : Nat) : State :=
  { s with blocks := s.blocks.map fun e =>
      match e.2 with
      | none => e
      | some blk =>
        if blk.cores.all fun k => k.stashes.isEmpty then e
        else (e.1, some { blk with cores := blk.cores.map fun k => k.dropLine pa }) }

/-- The core that is core index `c` of block `b`, or none for an agent outside the cores. -/
def coreOf (s : State) (b c : Nat) : Option Nat := (s.block b).bind fun blk => (blk.cores[c]?).map (·.core)

/-- A writer takes a line: stash copies go INVALID, and the directory lists the writer alone (R263, R269, R292). -/
def claimLine (s : State) (pa b c : Nat) : State :=
  let s1 := if s.blocks.isEmpty then s else invalidateStashes s pa
  let l := s1.line (lineOf pa)
  s1.setLine (lineOf pa) (match coreOf s b c with
    | some k => takeLine l k
    | none => if l = DirLine.idle then l else dropCopies l)

/-- Bytes of one access written at a physical address, by an agent that is core index `c` of block `b` or, with a
block number that no block has, by any other: copies held elsewhere go first (R263, R269, R278). -/
def writePhys (s : State) (pa : Nat) (bs : List Byte) (b c : Nat) : State :=
  if isWindow pa then windowWrite s (pa - 0xFFF0000000000) bs
  else
    let s1 := (List.range (cdiv (pa % 128 + bs.length) 128)).foldl (fun st k => claimLine st (pa + 128 * k) b c) s
    putMems s1 pa bs

end Sys2Proof.Machine
end

