-- ==== Sys2Proof/Machine/Group.lean ====
section
/-!
DEFINITION. Launches, blocks, groups and lanes: the fields of a launch record, what a register or a special
reads, and which lanes a unit issues (R90 to R92, R182, R192 to R196, R340, R344).
-/

namespace Sys2Proof.Machine

/-! ### Launches and blocks -/

/-- A launch that no launch number names. -/
def Launch.blank : Launch :=
  { q := 0, tag := 0, ctx := 0, words := [], regions := [], safes := [], draw := none, st := .retired,
    bound := 0, suspended := false, placed := 0, retired := 0, faulted := false, cause := 0, faddr := 0,
    xlate := false, aborted := false }

/-- A block that no block number names. -/
def Block.blank : Block :=
  { lid := 0, lin := 0, st := .retired, cores := [], ps := 0, seats := [], charge := [], abytes := 0, speed := 0, throttled := [],
    throttledFc := 0, rv := none, draw := none, emitted := 0 }

/-- A block core that no index names. -/
def BCore.blank : BCore :=
  { core := 0, tile := [], rings := [], rvs := [], reord := none, stashes := [], wake := 0 }

/-- A group that no group number names. -/
def Group.blank : Group :=
  { bid := 0, idx := 0, bcore := 0, core := 0, slot := 0, quarter := 0, stage := 0, role := .vector,
    set := none, v := [], s := [], t := [], c := [], d := [], vEmpty := [], sEmpty := [], dEmpty := [],
    ecc := [], pcs := [], alive := 0, tlin := [], narrows := [], fst := 0, ftrap := 0, sys := false,
    tscr := [], quires := 0, wdog := 0, instrs := 0, stall := 0, ops := [], pend := [], sq := [],
    brk := none, step := false, stepDue := false, halted := false, rv := none, held := none,
    replay := none, susp := [], stop := none, routine := none, seq := 0, rays := [], hit := none }

/-- Launch `l`. -/
def State.l (s : State) (l : Nat) : Launch := (s.launch l).getD Launch.blank

/-- Block `b`. -/
def State.b (s : State) (b : Nat) : Block := (s.block b).getD Block.blank

/-- Group `g`. -/
def State.g (s : State) (g : Nat) : Group := (s.group g).getD Group.blank

/-- Core index `c` of block `b`. -/
def State.bc (s : State) (b c : Nat) : BCore := (s.b b).cores.getD c BCore.blank

/-- `s` with core index `c` of block `b` changed. -/
def State.modBc (s : State) (b c : Nat) (f : BCore → BCore) : State :=
  let blk := s.b b
  s.setBlock b { blk with cores := modAt blk.cores c f }

/-- `s` with group `g` changed. -/
def State.modGroup (s : State) (g : Nat) (f : Group → Group) : State :=
  match s.group g with
  | some x => s.setGroup g (f x)
  | none => s

/-- The launch of a block. -/
def State.launchOf (s : State) (bid : Nat) : Launch := s.l (s.b bid).lid

/-- Word w of a launch record. -/
def Launch.w (l : Launch) (k : Nat) : Nat := (l.words.getD k 0).toNat

/-- Fields of the launch record (R90). -/
def Launch.code (l : Launch) : Nat := l.w 0
def Launch.gridx (l : Launch) : Nat := bits (l.w 2) 31 0
def Launch.gridy (l : Launch) : Nat := bits (l.w 2) 47 32
def Launch.gridz (l : Launch) : Nat := bits (l.w 2) 63 48
def Launch.bx (l : Launch) : Nat := bits (l.w 3) 15 0
def Launch.byy (l : Launch) : Nat := bits (l.w 3) 31 16
def Launch.bz (l : Launch) : Nat := bits (l.w 3) 47 32
def Launch.ncores (l : Launch) : Nat := 2 ^ bits (l.w 3) 60 58
def Launch.strad (l : Launch) : Bool := tb (l.w 3) 61
def Launch.cls (l : Launch) : Nat := bits (l.w 4) 1 0
def Launch.floor (l : Launch) : Nat := bits (l.w 4) 3 2
def Launch.coop (l : Launch) : Bool := tb (l.w 4) 4
def Launch.task (l : Launch) : Bool := tb (l.w 4) 5
def Launch.nstage (l : Launch) : Nat := bits (l.w 4) 11 8
def Launch.wdogLimit (l : Launch) : Nat := bits (l.w 4) 31 16 * 1024
def Launch.pin (l : Launch) : Nat := bits (l.w 4) 39 32
def Launch.vregs (l : Launch) : Nat := bits (l.w 5) 8 0
def Launch.sregs (l : Launch) : Nat := bits (l.w 5) 23 16
def Launch.dregs (l : Launch) : Nat := bits (l.w 5) 28 24
def Launch.tileu (l : Launch) : Nat := bits (l.w 5) 43 32
def Launch.stg (l : Launch) (st : Nat) : Nat := l.w 6 / 256 ^ st % 256
def Launch.gstg (l : Launch) (st : Nat) : Nat := l.w 7 / 256 ^ st % 256
def Launch.ring (l : Launch) (st : Nat) : Nat := bits (l.stg st) 5 3
def Launch.setWord (l : Launch) (k : Nat) : Nat := l.w (8 + k / 4) / 65536 ^ (k % 4) % 65536
def Launch.qmax (l : Launch) : Nat := bits (l.w 10) 31 0
def Launch.abytes (l : Launch) : Nat := bits (l.w 11) 47 0
def Launch.deadline (l : Launch) : Nat := l.w 12
def Launch.ipeak (l : Launch) : Nat := bits (l.w 13) 47 32
def Launch.energy (l : Launch) : Nat := bits (l.w 13) 23 0
def Launch.fslot (l : Launch) (k : Nat) : Nat := l.w (16 + k)
def Launch.argn (l : Launch) : Nat := bits (l.w 25) 5 0
def Launch.blocks (l : Launch) : Nat := l.gridx * l.gridy * l.gridz
def Launch.threads (l : Launch) : Nat := l.bx * l.byy * l.bz

/-- Groups of the block on each of its cores (R91). -/
def Launch.perCore (l : Launch) : Nat := ((List.range 8).map l.gstg).foldl (· + ·) 0

/-- TILEB: bytes of the block's allocation on each core (R196). -/
def Launch.tileb (l : Launch) : Nat := l.tileu * 512

/-- The stage of the group at place `k` on its core (R91). -/
def Launch.stageOf (l : Launch) (k : Nat) : Nat :=
  let rec go (st left : Nat) : Nat → Nat
    | 0 => st
    | n + 1 => if left < l.gstg st then st else go (st + 1) (left - l.gstg st) n
  go 0 k 8

/-- The set and member of the group at place `k` of core index `c` (R92). -/
def Launch.setOf (l : Launch) (c k : Nat) : Option (Nat × Nat) :=
  firstSome ((List.range 8).map fun n =>
    let w := l.setWord n
    let cnt := bits w 13 10
    let first := bits w 9 4
    if cnt != 0 && bits w 3 0 == c && first ≤ k && k ≤ first + cnt then some (n, k - first) else none)

/-- The number of group index `g` of block `b`. -/
def gidOf (b g : Nat) : Nat := 1024 * b + g

/-- The numbers of the groups of a block. -/
def groupsOf (s : State) (bid : Nat) : List Nat :=
  ((s.groups.filter fun e => e.1 / 1024 == bid).map fun e => e.1)

/-- The members of a group's set, or the group alone (R92). -/
def setMembers (s : State) (gid : Nat) : List Nat :=
  let g := s.g gid
  match g.set with
  | none => [gid]
  | some (k, _) => (groupsOf s g.bid).filter fun x =>
      match (s.g x).set with
      | some (k', _) => k' == k && (s.g x).bcore == g.bcore
      | none => false

/-! ### Lanes and PCs (R182, R187) -/

/-- The next instruction's PC (R333). -/
def nextPc (pc : Nat) : Nat := if pc % 8 < 4 then pc + 1 else (pc / 64 * 64 + 64) % 2 ^ 57

/-- The PC of a lane. -/
def Group.pc (g : Group) (lane : Nat) : Nat := FMap.get 0 g.pcs lane

/-- Lanes of some slices that hold a non-exited thread. -/
def Group.lanesIn (g : Group) (slices : Nat) : List Nat :=
  (List.range 32).filter fun k => g.alive.getLsbD k && tb slices (k / 4)

/-- The narrow group that holds exactly these slices. -/
def Group.narrow (g : Group) (slices : Nat) : Option Narrow := g.narrows.find? fun n => n.slices == slices

/-- Narrow groups of a group that hold a thread. -/
def liveNarrows (g : Group) : List Narrow := g.narrows.filter fun n => !(g.lanesIn n.slices).isEmpty

/-- A narrow group has ended the SAVE or RESTORE routine of its group: it stands after its first COLO with SAFE = 1, and issues no
more of it (R323, R324). -/
def routineEnd (g : Group) (n : Narrow) : Bool :=
  g.routine.isSome && !g.sys && n.idx == 0 && n.colo && !(g.lanesIn n.slices).isEmpty

/-- A narrow group at a quire start, ready. -/
def Narrow.fresh (slices : Nat) : Narrow :=
  { slices := slices, st := .ready, why := .idle, await := [], idx := 0, yielded := false, hint := false,
    joined := false, safe := false, colo := false, last := 0 }

/-- The narrow group of these slices. -/
def Group.nar (g : Group) (slices : Nat) : Narrow := (g.narrow slices).getD (Narrow.fresh slices)

/-- `g` with the narrow group of these slices changed. -/
def Group.modNar (g : Group) (slices : Nat) (f : Narrow → Narrow) : Group :=
  { g with narrows := g.narrows.map fun n => if n.slices == slices then f n else n }

/-- The PC that a narrow group issues: the least of its threads, or the next-lowest for a quire after YIELD
(R182, R187). -/
def Group.issuePc (g : Group) (n : Narrow) : Nat :=
  let pcs := (g.lanesIn n.slices).map g.pc
  let least := minOr 0 pcs
  let above := pcs.filter fun p => decide (least < p)
  if n.yielded && !above.isEmpty then minOr least above else least

/-- The lanes of a narrow group at a PC. -/
def Group.lanesAt (g : Group) (slices pc : Nat) : List Nat :=
  (g.lanesIn slices).filter fun k => g.pc k == pc

/-! ### Guards (R340) -/

/-- The flags S, Z, C, V of a condition register (R192). -/
def flagS (c : BitVec 4) : Bool := c.getLsbD 3
def flagZ (c : BitVec 4) : Bool := c.getLsbD 2
def flagC (c : BitVec 4) : Bool := c.getLsbD 1
def flagV (c : BitVec 4) : Bool := c.getLsbD 0

/-- Four flags as a condition register. -/
def mkFlags (fs fz fc fv : Bool) : BitVec 4 :=
  BitVec.ofNat 4 (b2n fs * 8 + b2n fz * 4 + b2n fc * 2 + b2n fv)

/-- The condition holds on the flags (R340). -/
def condHolds (k : Cond) (c : BitVec 4) : Bool :=
  match k with
  | .al => true
  | .eq => flagZ c
  | .ne => !flagZ c
  | .lt => flagS c != flagV c
  | .ge => flagS c == flagV c
  | .gt => !flagZ c && flagS c == flagV c
  | .le => flagZ c || flagS c != flagV c
  | .lo => !flagC c
  | .hs => flagC c
  | .hi => flagC c && !flagZ c
  | .ls => !flagC c || flagZ c
  | .mi => flagS c
  | .pl => !flagS c
  | .vs => flagV c
  | .vc => !flagV c
  | .nv => false

/-- A condition register of a lane. -/
def Group.creg (g : Group) (n lane : Nat) : BitVec 4 := FMap.get 0 g.c (32 * n + lane)

/-! ### The issuing unit (R174, R176) -/

/-- A lane of the unit: its wide index, group and lane. -/
structure Pos where
  w : Nat
  gid : Nat
  lane : Nat
deriving DecidableEq, Repr

/-- A unit at an instruction. -/
structure Ux where
  /-- The executing group and narrow group. -/
  gid : Nat
  slices : Nat
  pc : Nat
  scope : Scope
  /-- The unit's groups in member order. -/
  members : List Nat
  /-- The narrow groups that stand at the instruction. -/
  arrived : List (Nat × Nat)
  /-- Lanes that issue it, and those whose guard holds. -/
  issuing : List Pos
  active : List Pos
  /-- Lanes of the executing group that a replay keeps from performing, and those of them that are active: `active` leaves
  these out (R316, R508). -/
  done : Nat
  kept : List Pos
  /-- Condition register that the guard reads, if it reads one (R340). -/
  guard : Option Nat
deriving DecidableEq, Repr

/-- The lane of a position has its guard true. -/
def guardHolds (s : State) (h : Hdr) (p : Pos) : Bool :=
  condHolds h.cond ((s.g p.gid).creg h.gc.val p.lane)

/-- The member groups of a scope's unit (R174). -/
def membersOf (s : State) (gid : Nat) : Scope → List Nat
  | .lane => [gid]
  | .group => [gid]
  | .set => setMembers s gid
  | .block => groupsOf s (s.g gid).bid

/-- The unit of narrow groups that stand at a PC. -/
def mkUnit (s : State) (h : Hdr) (gid slices pc : Nat) (members : List Nat) (arrived : List (Nat × Nat))
    (done : Nat) : Ux :=
  let issuing : List Pos := (members.zipIdx.map fun m =>
    (arrived.filter fun a => a.1 == m.1).flatMap fun a =>
      ((s.g m.1).lanesAt a.2 pc).map fun k => (⟨32 * m.2 + k, m.1, k⟩ : Pos)).flatten
  let sorted := sortBy (fun a b => decide (a.w ≤ b.w)) issuing
  let did (p : Pos) : Bool := p.gid == gid && tb done p.lane
  { gid := gid, slices := slices, pc := pc, scope := h.scope, members := members, arrived := arrived,
    issuing := sorted, active := sorted.filter fun p => guardHolds s h p && !did p, done := done
    kept := sorted.filter fun p => guardHolds s h p && did p
    guard := if h.cond = .al || h.cond = .nv then none else some h.gc.val }

/-- The mask of the lanes of a group among positions. -/
def laneMask (gid : Nat) (l : List Pos) : Nat :=
  maskOf ((l.filter fun p => p.gid == gid).map fun p => p.lane)

/-! ### What operands read (R196, R343, R344) -/

/-- A special of a lane (R196). `issue` is the mask of lanes that issue the reading instruction. -/
def specValue (s : State) (gid : Nat) (issue : Nat) (n lane : Nat) : Nat :=
  let g := s.g gid
  let b := s.b g.bid
  let l := s.l b.lid
  let t := FMap.get 0 g.tlin lane
  match n with
  | 0 => lane
  | 1 => t % l.bx
  | 2 => t / l.bx % l.byy
  | 3 => t / (l.bx * l.byy)
  | 4 => t
  | 5 => g.idx
  | 6 => l.ncores * l.perCore
  | 7 => b.lin % l.gridx
  | 8 => b.lin / l.gridx % l.gridy
  | 9 => b.lin / (l.gridx * l.gridy)
  | 10 => b.lin % 2 ^ 32
  | 11 => l.gridx
  | 12 => l.gridy
  | 13 => l.gridz
  | 14 => l.bx
  | 15 => l.byy
  | 16 => l.bz
  | 17 => g.stage
  | 18 => match g.role with
    | .copy => 0
    | .matrix => 1
    | .vector => 2
  | 19 => match g.set with
    | some (k, _) => k
    | none => 0xFFFFFFFF
  | 20 => match g.set with
    | some (_, m) => m
    | none => 0xFFFFFFFF
  | 21 => g.core
  | 22 => clusterOf g.core
  | 23 => dieOf g.core
  | 24 => g.bcore
  | 25 => l.cls
  | 26 => g.fst.toNat
  | 27 => g.alive.toNat
  | 28 => issue
  | 29 => l.ctx
  | 30 => l.vregs + l.sregs * 2 ^ 9 + l.dregs * 2 ^ 17
  | _ => l.tileb

/-- The home of a lane of a group: itself, or in a dispatched group the group and lane of the thread (R157). -/
def homeOf (s : State) (gid lane : Nat) : Nat × Nat :=
  match (s.g gid).hit with
  | none => (gid, lane)
  | some x => x.lanes.getD lane (gid, lane)

/-- A special as the thread of a position reads it: in a hit program, its home value (R196, R496). -/
def specOf (s : State) (u : Ux) (n : Nat) (p : Pos) : Nat :=
  match (s.g p.gid).hit with
  | none => specValue s p.gid (laneMask p.gid u.issuing) n p.lane
  | some _ =>
    let hm := homeOf s p.gid p.lane
    let mine := (u.issuing.map fun q => homeOf s q.gid q.lane).filter fun x => x.1 == hm.1
    specValue s hm.1 (maskOf (mine.map (·.2))) n hm.2

/-- A 32-bit operand of a lane. -/
def rd (s : State) (u : Ux) (o : Opnd) (p : Pos) : Word :=
  let g := s.g p.gid
  match o with
  | .v n => FMap.get 0 g.v (32 * n + p.lane)
  | .s n => FMap.get 0 g.s n
  | .spec n => BitVec.ofNat 32 (specOf s u n p)
  | .t n => FMap.get 0 g.t (32 * n + p.lane)
  | .c n => (g.creg n p.lane).zeroExtend 32
  | .imm k => BitVec.ofInt 32 k
  | .d _ => 0
  | .zr => 0
  | .rsvd _ => 0

/-- The register `k` places after the one an operand names; constants and the zero code stay. -/
def regPlus (o : Opnd) (k : Nat) : Opnd :=
  match o with
  | .v n => .v (n + k)
  | .s n => .s (n + k)
  | .t n => .t (n + k)
  | .d n => .d (n + k)
  | .c n => .c (n + k)
  | .spec n => .spec n
  | .imm i => .imm i
  | .zr => .zr
  | .rsvd c => .rsvd c

/-- A 64-bit operand of a lane: a pair, low word first, or a constant sign-extended (R194, R344). -/
def rd64 (s : State) (u : Ux) (o : Opnd) (p : Pos) : DWord :=
  match o with
  | .imm k => BitVec.ofInt 64 k
  | .zr => 0
  | .spec _ => (rd s u o p).zeroExtend 64
  | _ => rd s u (regPlus o 1) p ++ rd s u o p

/-- A directional register of a lane. -/
def rdD (s : State) (o : Opnd) (p : Pos) : Word96 :=
  match o with
  | .d n => FMap.get 0x800000 (s.g p.gid).d (32 * n + p.lane)
  | _ => 0x800000

/-- The scalar register or uniform operand of the unit's executing group. -/
def rdU (s : State) (u : Ux) (o : Opnd) : Word := rd s u o ⟨0, u.gid, 0⟩

/-- A 64-bit uniform operand of the unit's executing group. -/
def rdU64 (s : State) (u : Ux) (o : Opnd) : DWord := rd64 s u o ⟨0, u.gid, 0⟩

/-! ### Cells (R192, R200) -/

/-- A cell is empty. -/
def cellEmpty (s : State) (gid : Nat) : Cell → Bool
  | .v n k => NSet.has (s.g gid).vEmpty (32 * n + k)
  | .s n => NSet.has (s.g gid).sEmpty n
  | .d n k => NSet.has (s.g gid).dEmpty (32 * n + k)

/-- The cell that an operand names in a lane, if it carries a full/empty bit. -/
def cellOf (o : Opnd) (lane : Nat) : Option Cell :=
  match o with
  | .v n => some (.v n lane)
  | .s n => some (.s n)
  | .d n => some (.d n lane)
  | _ => none

/-- A group with a cell marked empty. -/
def Group.markEmpty (g : Group) : Cell → Group
  | .v n k => { g with vEmpty := NSet.add g.vEmpty (32 * n + k) }
  | .s n => { g with sEmpty := NSet.add g.sEmpty n }
  | .d n k => { g with dEmpty := NSet.add g.dEmpty (32 * n + k) }

/-- The ECC key of a cell: 32 times the register code, plus the lane (R319). -/
def eccKey : Cell → Nat
  | .v n k => 32 * n + k
  | .s n => 32 * (256 + n)
  | .d n k => 32 * (528 + n) + k

/-- A cell written and marked full; the write clears an error of the cell (R200, R319). -/
def Group.writeCell (g : Group) (x : Word96) : Cell → Group
  | .v n k => { g with v := FMap.set 0 g.v (32 * n + k) (x.truncate 32), vEmpty := NSet.del g.vEmpty (32 * n + k),
                       ecc := NSet.del g.ecc (eccKey (.v n k)) }
  | .s n => { g with s := FMap.set 0 g.s n (x.truncate 32), sEmpty := NSet.del g.sEmpty n,
                     ecc := NSet.del g.ecc (eccKey (.s n)) }
  | .d n k => { g with d := FMap.set 0x800000 g.d (32 * n + k) x, dEmpty := NSet.del g.dEmpty (32 * n + k),
                       ecc := NSet.del g.ecc (eccKey (.d n k)) }

/-- A 32-bit result written to a lane of a v, s or t register; other codes discard it. -/
def wr (s : State) (o : Opnd) (p : Pos) (x : Word) : State :=
  match o with
  | .v n => s.modGroup p.gid fun g => g.writeCell (x.zeroExtend 96) (.v n p.lane)
  | .s n => s.modGroup p.gid fun g => g.writeCell (x.zeroExtend 96) (.s n)
  | .t n => s.modGroup p.gid fun g =>
      { g with t := FMap.set 0 g.t (32 * n + p.lane) x, ecc := NSet.del g.ecc (32 * (512 + n) + p.lane) }
  | _ => s

/-- A 64-bit result written to a pair. -/
def wr64 (s : State) (o : Opnd) (p : Pos) (x : DWord) : State :=
  wr (wr s o p (x.truncate 32)) (regPlus o 1) p ((x >>> 32).truncate 32)

/-- A directional result written to a d register. -/
def wrD (s : State) (o : Opnd) (p : Pos) (x : Word96) : State :=
  match o with
  | .d n => s.modGroup p.gid fun g => g.writeCell x (.d n p.lane)
  | _ => s

/-- Flags written to c[k] of a lane. -/
def wrC (s : State) (k : Nat) (p : Pos) (f : BitVec 4) : State :=
  s.modGroup p.gid fun g =>
    { g with c := FMap.set 0 g.c (32 * k + p.lane) f, ecc := NSet.del g.ecc (32 * (544 + k) + p.lane) }

end Sys2Proof.Machine
end

