-- ==== Sys2Proof/Machine/Ops.lean ====
section
/-!
DEFINITION. The operations that every instruction goes through: its issue and checks (R313, R356), the
rendezvous of a wider scope (R176 to R181), the commit of its effect, taking an exception (R314, R315) and
returning from one (R316), the store queue (R281, R282) and the bytes of tile memory (R252, R262).
-/

namespace Sys2Proof.Machine

/-! ### Tile memory and the stash (R253, R262 to R265) -/

/-- The stash mapping and line that a tile byte of a block core lies in. -/
def stashAt (c : BCore) (off : Nat) : Option (Nat × Nat) :=
  firstSome (c.stashes.zipIdx.map fun m =>
    if m.1.tile ≤ off && off < m.1.tile + 128 * m.1.lines then some (m.2, (off - m.1.tile) / 128) else none)

/-- The state of a line of a mapping: 0 INVALID, 1 CLEAN, 2 DIRTY (R262). -/
def Stash.line (m : Stash) (i : Nat) : Nat := FMap.get 0 m.st i

/-- Mapping `k` of a block core. -/
def BCore.stash (c : BCore) (k : Nat) : Stash :=
  c.stashes.getD k { n := 0, tile := 0, va := 0, lines := 0, st := [], pas := [] }

/-- Bytes put into the tile allocation as they stand. -/
def rawTile (c : BCore) (off : Nat) : List Byte → BCore
  | [] => c
  | b :: rest => rawTile { c with tile := FMap.set 0 c.tile off b } (off + 1) rest

/-- Physical address of a line of a mapping: that of its fill, or for an INVALID line the one that its global address
translates to now (R262). -/
def linePa (s : State) (b c m i : Nat) : Option Nat :=
  let x := (s.bc b c).stash m
  if x.line i != 0 then some (FMap.get 0 x.pas i)
  else match translate s (s.launchOf b).ctx { write := false, fetch := false, user := false } (x.va + 128 * i) with
    | .ok pa _ => if isHole pa then none else some pa
    | _ => none

/-- A location as the memory it stands for: a mapped tile byte is its global byte (R262, R265, R305). -/
def canonLoc (s : State) (l : Loc) : Loc :=
  match l with
  | .phys pa => .phys pa
  | .tile b c off =>
    match stashAt (s.bc b c) off with
    | none => .tile b c off
    | some (m, i) => match linePa s b c m i with
      | none => .tile b c off
      | some pa => .phys (pa + off % 128)

/-- A tile byte that a program reads: of a mapped INVALID line, the global byte (R262, R305). -/
def tileByte (s : State) (b c off : Nat) : Byte :=
  let k := s.bc b c
  match stashAt k off with
  | some (m, i) =>
    if (k.stash m).line i == 0 then physByte s (((linePa s b c m i).getD 0) + off % 128)
    else FMap.get 0 k.tile off
  | none => FMap.get 0 k.tile off

/-- The fill of the line that a tile byte lies in, where it is mapped and INVALID: the line's bytes come from its home agent,
and the directory and the snoop filter list the core (R262, R263). -/
def fillLine (s : State) (b c off : Nat) : State :=
  let k := s.bc b c
  match stashAt k off with
  | none => s
  | some (m, i) =>
    let x := k.stash m
    if x.line i != 0 then s
    else match linePa s b c m i with
    | none => s
    | some pa =>
      (readLine s k.core pa ((s.launchOf b).cls == 0)).modBc b c fun k => rawTile
        { k with stashes := modAt k.stashes m fun x =>
            { x with st := FMap.set 0 x.st i 1, pas := FMap.set 0 x.pas i pa, asked := NSet.del x.asked i } }
        (x.tile + 128 * i) (physBytes s pa 128)

/-- The fill of the line that a tile byte lies in while a slot holds it: the line stays INVALID, and is filled once no slot is open
(R54, R262). -/
def askFill (s : State) (b c off : Nat) : State :=
  let k := s.bc b c
  match stashAt k off with
  | none => s
  | some (m, i) =>
    match (if (k.stash m).line i != 0 then none else linePa s b c m i) with
    | none => s
    | some pa => (readLine s k.core pa ((s.launchOf b).cls == 0)).modBc b c fun k =>
        { k with stashes := modAt k.stashes m fun x => { x with asked := NSet.add x.asked i } }

/-- Bytes of one store into tile memory: through the stash where the range is mapped, with the line DIRTY and every other
copy gone (R262, R263, R265, R305). -/
def putTile (s : State) (b c off : Nat) (bytes : List Byte) : State :=
  let s1 := fillLine s b c off
  let k := s1.bc b c
  match stashAt k off with
  | none => s1.modBc b c fun k => rawTile k off bytes
  | some (m, i) =>
    let s2 := match linePa s1 b c m i with
      | none => s1
      | some pa => writePhys s1 (pa + off % 128) bytes b c
    s2.modBc b c fun k =>
      rawTile { k with stashes := modAt k.stashes m fun x => { x with st := FMap.set 0 x.st i 2 } } off bytes

/-! ### Locations and the store queue (R277, R281, R282) -/

/-- Location k bytes on. -/
def Loc.plus (l : Loc) (k : Nat) : Loc :=
  match l with
  | .phys pa => .phys (pa + k)
  | .tile b c off => .tile b c (off + k)

/-- The byte at a location as every party sees it. -/
def locByte (s : State) : Loc → Byte
  | .phys pa => physByte s pa
  | .tile b c off => tileByte s b c off

/-- The byte that a store, standing for a memory range, holds for a memory byte, if it covers it. -/
def StoreEntry.covers (e : StoreEntry) (l : Loc) : Option Byte :=
  match e.loc, l with
  | .phys a, .phys x => if a ≤ x && x < a + e.bytes.length then e.bytes[x - a]? else none
  | .tile b c a, .tile b' c' x =>
    if b == b' && c == c' && a ≤ x && x < a + e.bytes.length then e.bytes[x - a]? else none
  | _, _ => none

/-- The byte that a load of a group reads: its youngest older store's to that byte of memory, whatever name it used, else
memory's (R282, R305). -/
def loadByte (s : State) (gid : Nat) (l : Loc) : Byte :=
  match firstSome ((s.g gid).sq.reverse.map fun e => { e with loc := canonLoc s e.loc }.covers (canonLoc s l)) with
  | some b => b
  | none => locByte s l

/-- `n` bytes that a load of a group reads. -/
def loadBytes (s : State) (gid : Nat) (l : Loc) (n : Nat) : List Byte :=
  (List.range n).map fun k => loadByte s gid (l.plus k)

/-- A store performed by a group. One that reaches a dark stack stores nothing, and a machine check tells of it (R33). -/
def performStore (s : State) (gid : Nat) (e : StoreEntry) : State :=
  match e.loc with
  | .phys pa =>
    if isDark s pa then sendCheck s 0x163 (pa / 0x1000000000) []
    else writePhys s pa e.bytes (s.g gid).bid (s.g gid).bcore
  | .tile b c off => putTile s b c off e.bytes

/-- A store of a group to a page of MT 1 or 2, performed: it bypasses the L2, and no cache holds the line after it (R291). -/
def performBypass (s : State) (gid : Nat) (e : StoreEntry) : State :=
  match e.loc with
  | .phys pa => if isDark s pa then performStore s gid e else writePhys s pa e.bytes noBlock 0
  | .tile _ _ _ => performStore s gid e

/-- The oldest store of a group drains (R281). -/
def drainOne (s : State) (gid : Nat) : State :=
  match (s.g gid).sq with
  | [] => s
  | e :: rest => performStore (s.modGroup gid fun g => { g with sq := rest }) gid e

/-- Every store of a group drains, oldest first. -/
def drainAll (s : State) (gid : Nat) : State :=
  (s.g gid).sq.foldl (fun st e => performStore st gid e) (s.modGroup gid fun g => { g with sq := [] })

/-- Every store of the unit's groups drains, those of an exited member too: the order of a release or a fence at any scope (R286 to
R288, R290, R498). -/
def drainUnit (s : State) (u : Ux) : State := u.members.foldl drainAll s

/-! ### Traffic that a slot holds (R50, R54) -/

/-- An access of a core reaches a queue that a slot holds: a window page, a line that its die does not hold, tile memory of
another die, or a stash line whose fill or ownership lies beyond the die (R50, R54, R263). -/
def locFar (s : State) (core : Nat) (write : Bool) (l : Loc) : Bool :=
  match l with
  | .phys pa => isWindow pa || lineFar s core write pa
  | .tile b c off =>
    let k := s.bc b c
    dieOf k.core != dieOf core ||
      (match stashAt k off with
        | none => false
        | some (m, i) => ((k.stash m).line i == 0 || write) &&
          match linePa s b c m i with
          | none => false
          | some pa => lineFar s k.core write pa)

/-- The core through whose caches a group's access to a location goes: its own, or that whose tile memory it names. -/
def locCore (s : State) (gid : Nat) (l : Loc) : Nat :=
  match l with
  | .phys _ => (s.g gid).core
  | .tile b c _ => (s.bc b c).core

/-- The line that a store of a core must wait for: one of memory that its die does not hold exclusive (R263, R307, R308). -/
def lineNeeded (s : State) (core : Nat) (l : Loc) : Option Nat :=
  match canonLoc s l with
  | .tile _ _ _ => none
  | .phys pa =>
    if isWindow pa || isHole pa || isDark s pa || (s.line (lineOf pa)).owns (dieOf core) then none else some (lineOf pa)

/-- An access that a group's later ordering waits for is still to be performed: a queued store whose line has not come, or an access,
a load that has still to land included, that a slot holds (R54, R308). -/
def groupHeld (s : State) (gid : Nat) : Bool :=
  let g := s.g gid
  (memHeld s && (g.pend.any (·.far) || g.sq.any fun e => locFar s g.core true e.loc)) ||
    g.sq.any fun e => (lineNeeded s (locCore s gid e.loc) e.loc).isSome

/-- An earlier access of the unit's groups, exited members included, is still to be performed. -/
def unitHeld (s : State) (u : Ux) : Bool := u.members.any (groupHeld s)

/-! ### Virtual bytes (trap frames, group records, descriptors) -/

/-- A translated byte address, or none where it reaches no memory: a hole, or the stack of a dark die (R16, R33). -/
def vAddr (s : State) (ctx : Nat) (want : Want) (va : Nat) : Option Nat :=
  match translate s ctx want va with
  | .ok pa _ => if isHole pa || isDark s pa then none else some pa
  | _ => none

/-- Bytes at a virtual address, or none when one of them cannot be reached. -/
def vRead (s : State) (ctx : Nat) (want : Want) (va n : Nat) : Option (List Byte) :=
  let pages := (List.range (cdiv (va % 4096 + n) 4096)).map fun k =>
    vAddr s ctx want (if k == 0 then va else va / 4096 * 4096 + 4096 * k)
  if pages.any Option.isNone then none
  else some ((List.range n).map fun k =>
    let page := (va % 4096 + k) / 4096
    let pa := (pages.getD page none).getD 0
    physByte s (if page == 0 then pa + k else pa + (va % 4096 + k) % 4096))

/-- Bytes written at a virtual address by an agent, or none when one of them cannot be reached. -/
def vWrite (s : State) (ctx : Nat) (want : Want) (va : Nat) (bs : List Byte) (b c : Nat) : Option State :=
  let np := cdiv (va % 4096 + bs.length) 4096
  let pages := (List.range np).map fun k =>
    vAddr s ctx want (if k == 0 then va else va / 4096 * 4096 + 4096 * k)
  if pages.any Option.isNone then none
  else some ((pages.zipIdx.foldl (fun (acc : State × List Byte) p =>
    let n := if p.2 == 0 then 4096 - va % 4096 else 4096
    (writePhys acc.1 (p.1.getD 0) (acc.2.take n) b c, acc.2.drop n)) (s, bs)).1)

/-- Physical addresses, one in each 128-byte line that some virtual bytes lie in, where they translate. -/
def vLines (s : State) (ctx : Nat) (want : Want) (va n : Nat) : List Nat :=
  (List.range (cdiv (va % 128 + n) 128)).filterMap fun k => vAddr s ctx want (if k == 0 then va else va / 128 * 128 + 128 * k)

/-- An access of a core to virtual bytes waits: a slot holds one of its lines, or a line that it writes is busy (R50, R54, R307). -/
def vHeld (s : State) (core ctx : Nat) (want : Want) (va n : Nat) : Bool :=
  (vLines s ctx want va n).any fun pa =>
    (memHeld s && (isWindow pa || lineFar s core want.write pa)) || (want.write && writeWaits s (some core) pa)

/-- A die whose dark stack an access of some bytes reaches, in its data or its tables (R33). -/
def darkIn (s : State) (ctx : Nat) (want : Want) (va n : Nat) : Option Nat :=
  firstSome ((List.range (cdiv (va % 4096 + n) 4096)).map fun k =>
    match translate s ctx want (if k == 0 then va else va / 4096 * 4096 + 4096 * k) with
    | .dark d => some d
    | .ok pa _ => if isDark s pa then some (pa / 0x1000000000) else none
    | _ => none)

/-- The machine check of an access that reaches a dark stack, if it does (R33). -/
def checkDark (s : State) (ctx : Nat) (want : Want) (va n : Nat) : State :=
  match darkIn s ctx want va n with
  | none => s
  | some d => sendCheck s 0x163 d []

/-- A write by system software's rights. -/
def sysWrite : Want := { write := true, fetch := false, user := false }
/-- A read by system software's rights. -/
def sysRead : Want := { write := false, fetch := false, user := false }

/-! ### The end of a launch (R315, R331, R509) -/

/-- A group stopped for good: it issues nothing more. -/
def Group.stopped (g : Group) : Group :=
  { g with alive := 0, narrows := g.narrows.map fun n => { n with st := .exited }, held := none, rv := none,
           susp := [], halted := false, stepDue := false, rays := [], hit := none, stop := none }

/-- Every group of a launch stops. -/
def stopLaunchGroups (s : State) (lid : Nat) : State :=
  { s with
    groups := s.groups.map fun e => (e.1, e.2.map fun g => if (s.b g.bid).lid == lid then g.stopped else g)
    cur := match s.cur with
      | some (gid, sl) => if (s.b (s.g gid).bid).lid == lid then none else some (gid, sl)
      | none => none }

/-- A launch marked faulted, with the cause of its first fault. -/
def markFaulted (s : State) (lid cause faddr : Nat) : State :=
  match s.launch lid with
  | none => s
  | some l => s.setLaunch lid { l with faulted := true, cause := if l.faulted then l.cause else cause,
                                       faddr := if l.faulted then l.faddr else faddr }

/-- Every group of a launch stops, and none of its blocks starts or goes on (R315, R331). -/
def stopLaunch (s : State) (lid : Nat) : State :=
  let s1 := match s.launch lid with
    | none => s
    | some l => s.setLaunch lid { l with stopped := true }
  stopLaunchGroups s1 lid

/-- A draw ends by fault: every group of its launches stops, and the issuing launch goes on and will complete FAULTED
(R509). -/
def endDraw (s : State) (d cause : Nat) (core : Option Nat) : State :=
  match s.draw d with
  | none => s
  | some x =>
    let l := s.l x.lid
    let s1 := s.setDraw d { x with ended := 2, cause := cause, core := core, waves := [], flush := false }
    let s2 := { s1 with host := { s1.host with faults := s1.host.faults ++
      [{ cause := cause, core := core, q := l.q, tag := l.tag, lid := x.lid }] } }
    stopLaunch (stopLaunch (markFaulted s2 x.lid cause 0) x.mesh) x.frag

/-- The launch of a group ends FAULTED (R315). -/
def endLaunch (s : State) (gid cause faddr : Nat) : State :=
  let g := s.g gid
  let lid := (s.b g.bid).lid
  let l := s.l lid
  match l.draw with
  | some d => endDraw s d cause (some g.core)
  | none =>
    let s1 := markFaulted s lid cause faddr
    let s2 := { s1 with host := { s1.host with faults := s1.host.faults ++
      [{ cause := cause, core := some g.core, q := l.q, tag := l.tag, lid := lid }] } }
    stopLaunch s2 lid

/-! ### Taking an exception (R314, R315) -/

/-- RFT resumes after a cause: not after a budget, a machine check or a fetch fault (R329). -/
def resumable (cause : Nat) : Bool :=
  !(cause == 0x120 || cause == 0x121 || cause / 32 == 11 || (24 ≤ cause && cause ≤ 26))

/-- The 1,152 bytes of a frame (R314). -/
def frameBytes (g : Group) (n : Narrow) (u : Ux) (h : Hdr) (wide : Bool) (t : Trap) : List Byte :=
  let scope := match h.scope with
    | .lane => 0
    | .group => 1
    | .set => 2
    | .block => 3
  let await := (List.range 7).map fun k => codeOf (n.await.getD k .zr)
  let w2 := t.cause + b2n t.src * 2 ^ 9 + n.idx * 2 ^ 10 + scope * 2 ^ 15 + b2n wide * 2 ^ 17 +
    b2n (resumable t.cause) * 2 ^ 18 + b2n g.sys * 2 ^ 20
  let w5 := (await.take 6).zipIdx.foldl (fun a x => a + x.1 * 2 ^ (10 * x.2)) 0
  leBytes 8 u.pc ++ leBytes 8 t.faddr ++ leBytes 8 w2 ++
    leBytes 4 (laneMask u.gid (u.active ++ u.kept)) ++ leBytes 4 t.done ++
    leBytes 8 (laneMask u.gid u.issuing) ++ leBytes 8 w5 ++ leBytes 8 (await.getD 6 1023) ++
    leBytes 8 t.info ++
    ((List.range 256).flatMap fun k => leBytes 4 (FMap.get 0 g.t k).toNat) ++
    ((List.range 32).flatMap fun k => leBytes 2 (((List.range 4).map fun c =>
      (g.creg c k).toNat * 16 ^ c).foldl (· + ·) 0))

/-- Frame address of a group (R314, R328). -/
def frameVa (s : State) (g : Group) : Nat := ((s.core g.core).tfarea.toNat + g.slot * 0x480) % 2 ^ 64

/-- The groups that a fault suspends beside its own (R179). -/
def suspendedBy (s : State) (gid : Nat) (once : Bool) (scope : Scope) : List Nat :=
  let all := if once && scope == .block then groupsOf s (s.g gid).bid else setMembers s gid
  all.filter fun x => x != gid

/-- The frames of a launch's groups whose handlers have not returned, with their cores (R83, R315). -/
def launchFrames (s : State) (lid : Nat) : List (Nat × List Byte) :=
  s.groups.filterMap fun e => match e.2 with
    | none => none
    | some g =>
      if (s.b g.bid).lid == lid && g.held.isSome then
        (vRead s (s.launchOf g.bid).ctx sysRead (frameVa s g) 1152).map fun bs => (g.core, bs)
      else none

/-- A double fault: the launch ends FAULTED, its frames are kept for the dump, and one machine-check event names its queue and tag
(R83, R315, R510). -/
def doubleFault (s : State) (gid : Nat) : State :=
  let g := s.g gid
  let l := s.launchOf g.bid
  let s1 := { s with host := { s.host with frames := s.host.frames ++ launchFrames s (s.b g.bid).lid } }
  endLaunch (sendCheck s1 0x169 (dieOf g.core) (leBytes 4 l.q ++ leBytes 4 l.tag.toNat)) gid 0x169 0

/-- Quires of a group with the one at hand counted (R108). -/
def quiresNow (g : Group) (n : Narrow) : Nat := if n.idx == 0 && !n.begun then g.quires + 1 else g.quires

/-- Trap of the quire budget at the first instruction of the (QMAX + 1)th quire, and of no other; INFO counts that quire (R108,
R311). -/
def budgetTrap (l : Launch) (g : Group) (n : Narrow) : Option Trap :=
  if l.cls == 0 && n.idx == 0 && !n.begun && g.quires == l.qmax then some { cause := 9 * 32, info := quiresNow g n } else none

/-- A group whose faulting narrow group has begun a quire with the faulting instruction: the quire counts, and its reissue is
the same quire. One whose budget trap is still due has not begun it (R108, R316). -/
def quireBegun (l : Launch) (slices cause : Nat) (g : Group) : Group :=
  let n := g.nar slices
  if (budgetTrap l g n).isSome && cause != 0x120 then g
  else { (g.modNar slices fun n => { n with begun := n.begun || n.idx == 0 }) with quires := quiresNow g n }

/-- The group enters its handler at TVEC. Its narrow groups and the rendezvous open among them are held aside: the handler's
group-scope instructions form one of their own (R178, R315, log 148). -/
def enterHandler (s : State) (u : Ux) (h : Hdr) (once : Bool) (t : Trap) (tvec : Nat) : State :=
  let members := suspendedBy s u.gid once h.scope
  let l := s.launchOf (s.g u.gid).bid
  let s1 := members.foldl (fun st m => st.modGroup m fun g => { g with susp := g.susp ++ [u.gid] }) s
  { (s1.modGroup u.gid fun g0 =>
      let g := quireBegun l u.slices t.cause g0
      { g with
        held := some { pcs := g.pcs, narrows := g.narrows, members := members, trap := t, wide := once,
                       scope := h.scope, slices := u.slices, rv := g.rv }
        rv := none
        narrows := [Narrow.fresh 255]
        pcs := (List.range 32).foldl (fun m k => if g.alive.getLsbD k then FMap.set 0 m k tvec else m) g.pcs
        t := []
        sys := true
        stepDue := false
        handling := false
        replay := none }) with cur := none }

/-- A unit parks at its instruction (R126). -/
def park (s : State) (u : Ux) (w : Wait) : State :=
  { (s.modGroup u.gid fun g => g.modNar u.slices fun n => { n with st := .parked, why := w }) with cur := none }

/-- The group cannot take an exception yet: its older stores wait, or a slot or another transaction holds the lines of its frame (R50,
R54, R307, R314). -/
def trapHeld (s : State) (gid : Nat) : Bool :=
  let g := s.g gid
  groupHeld s gid || (!g.sys && (s.core g.core).tvec != 0 &&
    vHeld s g.core (s.launchOf g.bid).ctx sysWrite (frameVa s g) 1152)

/-- The exception of an instruction waits: the unit parks at it and finds the fault again when it reissues, the lanes that have
performed kept out (R50, R317). -/
def deferTrap (s : State) (u : Ux) (t : Trap) : State :=
  let s1 := park s u .slot
  if t.done == 0 then s1 else s1.modGroup u.gid fun g => { g with replay := some { slices := u.slices, done := t.done } }

/-- Taking an exception: the frame is written, the mode becomes system, and the group runs from TVEC. With
TVEC = 0 the launch ends FAULTED; in system mode, or where the frame cannot be written, a double fault, with the check of R33 where
the frame lies in a dark stack. `once` says that the fault arose in the once-execution of a wider scope. A class-11 cause sends its
event (R510). While the frame or the older stores are held the unit waits at the instruction (R50, R54). -/
def takeTrap (s : State) (u : Ux) (h : Hdr) (once : Bool) (t : Trap) : State :=
  if trapHeld s u.gid then deferTrap s u t
  else
    let s0 := drainAll s u.gid
    let g := s0.g u.gid
    let l := s0.launchOf g.bid
    let c := s0.core g.core
    let s1 := if t.cause / 32 == 11 then
        sendCheck s0 t.cause (dieOf g.core) (leBytes 4 l.q ++ leBytes 4 l.tag.toNat) else s0
    if g.sys then doubleFault s1 u.gid
    else if c.tvec == 0 then endLaunch s1 u.gid t.cause t.faddr
    else
      match vWrite s1 l.ctx sysWrite (frameVa s1 g) (frameBytes g (g.nar u.slices) u h once t) g.bid g.bcore with
      | none => doubleFault (checkDark s1 l.ctx sysWrite (frameVa s1 g) 1152) u.gid
      | some s2 => enterHandler s2 u h once t c.tvec.toNat

/-! ### What an instruction's body answers -/

/-- Why a body does not complete: a trap, a trap after part of the effect (R317), or a wait (R126). -/
inductive Stop where
  | trap (t : Trap)
  | partly (t : Trap) (s : State)
  | wait (w : Wait)
deriving DecidableEq, Repr

/-- The effect of an instruction that completes. -/
structure Eff where
  /-- The state with every short-latency effect. -/
  st : State
  /-- FST bits that the groups' lanes set (R197). -/
  fst : List (Nat × Nat) := []
  /-- Results of a long-latency producer, which land later (R200). -/
  long : List (Nat × Cell × Word96) := []
  /-- Their accesses reach a queue that a maintenance slot holds (R54). -/
  far : Bool := false
  /-- PCs of lanes that do not go to the next instruction. -/
  moves : List (Pos × Nat) := []
  /-- The quire ends here whatever END holds (R341, R381). -/
  ends : Bool := false
  /-- The terminator can leave the lanes at different PCs (R183). -/
  splits : Bool := false
  await : List Opnd := []
  safe : Bool := false
  hint : Bool := false
  yields : Bool := false
  /-- Lanes that exit (R381). -/
  exits : List Pos := []
  /-- The group halts once the instruction retires (R403). -/
  halts : Bool := false
  /-- The PCs, narrow groups and counts are set by the body itself (R316, R398). -/
  jumped : Bool := false
  /-- Every group of the unit is fused, and its temporaries read 0 (R189). -/
  fuses : Bool := false
deriving DecidableEq, Repr

/-- What a body answers. -/
abbrev Res := Except Stop Eff

/-- The continuation of an access or a fence that orders the unit's older accesses: they are performed first, and while one of them
waits for its line or for the end of a slot the unit waits (R54, R286 to R290, R308). -/
def ordered (s : State) (u : Ux) (k : State → Res) : Res :=
  if unitHeld s u then .error (.wait .slot) else k (drainUnit s u)

/-- What goes on once no slot holds the write-backs of an operation that has some (R50, R264). -/
def writesBack (s : State) (dirty : Bool) (r : Res) : Res := if dirty && memHeld s then .error (.wait .slot) else r

/-- What goes on where a slot or another transaction holds none of the lines of some virtual bytes that a group's instruction accesses in
its own mode (R50, R54, R307). -/
def vFree (s : State) (gid : Nat) (write : Bool) (va n : Nat) (r : Res) : Res :=
  let g := s.g gid
  if vHeld s g.core (s.launchOf g.bid).ctx { write := write, fetch := false, user := !g.sys } va n then .error (.wait .slot) else r

/-- A trap with a cause alone. -/
def trapOf {α : Type} (cause : Nat) : Except Stop α := .error (.trap { cause := cause })

/-- A class-3 or class-4 trap at a lane. The member index counts the members of the issuing unit, so it is 0 at lane and group scope, and
at block scope its four bits hold it modulo 16: R314 does not say what it counts there (R314; DESIGN CHOICE, log 164). -/
def laneTrap (cause faddr : Nat) (p : Pos) : Trap :=
  { cause := cause, faddr := faddr, info := p.lane * 2 ^ 16 + p.w / 32 % 16 * 2 ^ 24 }

/-! ### Register checks (R193, R194, R202 to R204, R319) -/

/-- The class-1 register kind rc of an operand: 0 v, 1 s, 2 d, 3 t or c (R312). -/
def rcOf : Opnd → Nat
  | .v _ => 0
  | .s _ => 1
  | .spec _ => 1
  | .d _ => 2
  | _ => 3

/-- Registers that the launch declares of an operand's class. -/
def declared (l : Launch) : Opnd → Nat
  | .v _ => l.vregs
  | .s _ => l.sregs
  | .d _ => l.dregs
  | _ => 1024

/-- The register number of an operand. -/
def numOf : Opnd → Nat
  | .v n => n
  | .s n => n
  | .t n => n
  | .d n => n
  | .c n => n
  | .spec n => n
  | _ => 0

/-- The operand names a register that has a number. -/
def isReg : Opnd → Bool
  | .v _ => true
  | .s _ => true
  | .d _ => true
  | _ => false

/-- A 64-bit base in s191, whose next special does not exist: beyond the declaration, as of s159 (R350, log 122). -/
def lastSpecial (r : RegUse) : Bool :=
  match r.o with
  | .spec k => 32 < k + r.n
  | _ => false

/-- The class-1 fault of a named register: beyond the declaration, or a misaligned start (R193, R194). -/
def useFault (l : Launch) (r : RegUse) : Option (Nat × Opnd) :=
  if lastSpecial r then some (32 + 5, r.o)
  else if isReg r.o && declared l r.o < numOf r.o + r.n then some (32 + 4 + rcOf r.o, r.o)
  else if isReg r.o && r.align && numOf r.o % (if r.grain == 0 then r.n else r.grain) != 0 then some (32 + 8 + rcOf r.o, r.o)
  else none

/-- The class-1 fault of a destination: a special is read-only (R193). -/
def dstFault (l : Launch) (r : RegUse) : Option (Nat × Opnd) :=
  match r.o with
  | .spec n => some (32 + 17, .spec n)
  | _ => useFault l r

/-- INFO of a class-1 fault, with the member index as `laneTrap` counts it (R314; DESIGN CHOICE, log 164). -/
def regInfo (o : Opnd) (p : Pos) : Nat := codeOf o + p.lane * 2 ^ 16 + p.w / 32 % 16 * 2 ^ 24

/-- The registers that a use covers. -/
def useRegs (r : RegUse) : List Opnd :=
  match r.o with
  | .imm _ => []
  | .zr => []
  | .spec _ => []
  | .rsvd _ => []
  | _ => (List.range r.n).map fun k => regPlus r.o k

/-- The ECC key of an operand in a lane (R319). -/
def eccKeyOf (o : Opnd) (lane : Nat) : Nat :=
  match o with
  | .s n => 32 * (256 + n)
  | _ => 32 * codeOf o + lane

/-- N of a directional register holds the invalid code (R213). -/
def dInvalid (x : Word96) : Bool :=
  let n := bits x.toNat 23 0
  let xyz := x.toNat / 2 ^ 24
  n == 0x7FFFFF || (n == 0x800000 && xyz != 0) || (n != 0x800000 && xyz == 0)

/-- A fault of reading the registers of a source in a lane: an uncorrectable error, an empty cell under the
trapping policy, or the invalid code under it (R202, R319). -/
def readFault (s : State) (r : RegUse) (p : Pos) : Option Trap :=
  firstSome ((useRegs r).map fun o =>
    if NSet.has (s.g p.gid).ecc (eccKeyOf o p.lane) then
      some { cause := 32 + 12 + rcOf o, info := regInfo o p }
    else match cellOf o p.lane with
    | none => none
    | some c =>
      if r.ep && cellEmpty s p.gid c then some { cause := 32 + rcOf o, info := regInfo o p }
      else match o with
      | .d n => if r.ep && dInvalid (rdD s (.d n) p) then some { cause := 32 + 22, info := regInfo o p } else none
      | _ => none)

/-- The empty cells of a use in some lanes. -/
def emptyCells (s : State) (r : RegUse) (l : List Pos) : List (Nat × Cell) :=
  l.flatMap fun p => (useRegs r).filterMap fun o =>
    match cellOf o p.lane with
    | some c => if cellEmpty s p.gid c then some (p.gid, c) else none
    | none => none

/-- The condition register of the guard, as a use of each active lane (R319). -/
def guardUse (u : Ux) : List RegUse :=
  match u.guard with
  | some k => [{ o := .c k }]
  | none => []

/-- The first register stop of an instruction: class-1 faults of the named registers, faults of reading, then
the wait for sources and destinations to be full (R193, R194, R202, R203, R313, R319). Where several registers are at fault
the destinations come before the sources, a register beyond the declaration before a misaligned one, and a fault of reading
before the wait for another empty register: R313 gives no order among them, and this one is the model's (log 120). -/
def regStop (s : State) (u : Ux) (sh : Shape) : Option Stop :=
  let l := s.launchOf (s.g u.gid).bid
  let at_ : Pos := u.active.headD ⟨0, u.gid, 0⟩
  match firstSome (sh.dsts.map (dstFault l) ++ sh.srcs.map (useFault l)) with
  | some (c, o) => some (.trap { cause := c, info := regInfo o at_ })
  | none =>
    let here := guardUse u ++ sh.srcs.filter fun r => !r.away
    match firstSome (u.active.flatMap fun p => here.map fun r => readFault s r p) with
    | some t => some (.trap t)
    | none =>
      match (here ++ sh.dsts).flatMap fun r => emptyCells s r u.active with
      | [] => none
      | cells => some (.wait (.cells cells))

/-! ### Commit -/

/-- Long-latency results of one group: the cells go empty and the write waits (R200). -/
def addPending (s : State) (gid : Nat) (l : List (Cell × Word96)) (far : Bool) : State :=
  s.modGroup gid fun g =>
    let g1 := l.foldl (fun g c => g.markEmpty c.1) g
    { g1 with pend := g1.pend ++ [{ n := g.seq, writes := l, far := far }], seq := g.seq + 1 }

/-- The long-latency results of an instruction, one producer in each group that it writes. -/
def addLong (s : State) (l : List (Nat × Cell × Word96)) (far : Bool) : State :=
  (l.map (·.1)).eraseDups.foldl (fun st gid =>
    addPending st gid ((l.filter fun x => x.1 == gid).map (·.2)) far) s

/-- A cell in another lane. -/
def Cell.inLane (c : Cell) (lane : Nat) : Cell :=
  match c with
  | .v n _ => .v n lane
  | .s n => .s n
  | .d n _ => .d n lane

/-- The lane of a cell, if it is of a lane. -/
def Cell.lane? : Cell → Option Nat
  | .v _ k => some k
  | .s _ => none
  | .d _ k => some k

/-- The dispatched group that runs the hit program of a thread, and its lane there (R157). -/
def hitLaneOf (s : State) (gid lane : Nat) : Option (Nat × Nat) :=
  firstSome (s.groups.map fun e => match e.2 with
    | none => none
    | some g => match g.hit with
      | none => none
      | some x => match x.lanes.findIdx? fun y => y == (gid, lane) with
        | some k => if g.alive.getLsbD k then some (e.1, k) else none
        | none => none)

/-- The dispatched groups that run, or have run, hit programs of a group's threads. -/
def hitGroupsOf (s : State) (gid : Nat) : List Nat :=
  s.groups.filterMap fun e => match e.2 with
    | none => none
    | some g => match g.hit with
      | none => none
      | some x => if x.lanes.any fun y => y.1 == gid then some e.1 else none

/-- Where the registers of a lane stand beside its own group: with the dispatched group that runs its hit program, or, for
a lane of a dispatched group whose hit program has ended, with its home (R157). -/
def twinOf (s : State) (gid lane : Nat) : Option (Nat × Nat) :=
  let g := s.g gid
  match g.hit with
  | none => hitLaneOf s gid lane
  | some x => if g.alive.getLsbD lane then none else x.lanes[lane]?

/-- A value that lands in a cell of a dispatched group's lane for its home also stands in the registers that the dispatch found:
the hit program has not written it (R497). -/
def Group.landHome (g : Group) (x : Word96) (c : Cell) : Group :=
  let g1 := g.writeCell x c
  match g.hit with
  | none => g1
  | some h =>
    let b := ({ g with v := h.v, d := h.d, vEmpty := h.vEmpty, dEmpty := h.dEmpty, ecc := h.ecc } : Group).writeCell x c
    { g1 with hit := some { h with v := b.v, d := b.d, vEmpty := b.vEmpty, dEmpty := b.dEmpty, ecc := b.ecc } }

/-- A value lands in a cell of a group, and where the lane's registers stand beside it. -/
def landCell (s : State) (gid : Nat) (w : Cell × Word96) : State :=
  let s1 := s.modGroup gid fun g => g.writeCell w.2 w.1
  match w.1.lane? with
  | none => s1
  | some k => match twinOf s1 gid k with
    | none => s1
    | some (h, j) => s1.modGroup h fun g => if g.hit.isSome then g.landHome w.2 (w.1.inLane j) else g.writeCell w.2 (w.1.inLane j)

/-- A pending write lands: the cells hold the values and are full (R200). -/
def landWrite (s : State) (gid n : Nat) : State :=
  match (s.g gid).pend.find? fun p => p.n == n with
  | none => s
  | some p =>
    p.writes.foldl (fun st w => landCell st gid w)
      (s.modGroup gid fun g => { g with pend := g.pend.filter fun q => q.n != n })

/-- Entries of lane `l` of a map keyed by 32 times a number plus a lane, put in the place of those of lane `l'` of another. -/
def moveLane {α : Type} [DecidableEq α] (d : α) (src dst : FMap α) (l l' : Nat) : FMap α :=
  (src.filter fun e => e.1 % 32 == l).foldl (fun m e => FMap.set d m (e.1 / 32 * 32 + l') e.2)
    (FMap.keep (fun k => k % 32 != l') dst)

/-- The same of a set, for the keys that a test takes. -/
def moveLaneSet (ok : Nat → Bool) (src dst : NSet) (l l' : Nat) : NSet :=
  (src.filter fun k => k % 32 == l && ok k).foldl (fun m k => NSet.add m (k / 32 * 32 + l'))
    (dst.filter fun k => k % 32 != l' || !ok k)

/-- The v, d and c registers of lane `l` of a group, with their full bits and errors, put into lane `l'` of another (R157). -/
def Group.takeLane (dst src : Group) (l l' : Nat) : Group :=
  let own (k : Nat) : Bool := k / 32 < 256 || 528 ≤ k / 32
  { dst with
    v := moveLane 0 src.v dst.v l l'
    d := moveLane 0x800000 src.d dst.d l l'
    c := moveLane 0 src.c dst.c l l'
    vEmpty := moveLaneSet (fun _ => true) src.vEmpty dst.vEmpty l l'
    dEmpty := moveLaneSet (fun _ => true) src.dEmpty dst.dEmpty l l'
    ecc := moveLaneSet own src.ecc dst.ecc l l' }

/-- Entries of lane `l` of a map that differ from those of an older one, put in the place of those of lane `l'` of another. -/
def mergeLane {α : Type} [DecidableEq α] (d : α) (old src dst : FMap α) (l l' : Nat) : FMap α :=
  (((src ++ old).map (·.1)).filter fun k => k % 32 == l).foldl (fun m k =>
    if FMap.get d src k = FMap.get d old k then m else FMap.set d m (k / 32 * 32 + l') (FMap.get d src k)) dst

/-- The same of a set, for the keys that a test takes. -/
def mergeLaneSet (ok : Nat → Bool) (old src dst : NSet) (l l' : Nat) : NSet :=
  ((src ++ old).filter fun k => k % 32 == l && ok k).foldl (fun m k =>
    let k' := k / 32 * 32 + l'
    if NSet.has src k == NSet.has old k then m else if NSet.has src k then NSet.add m k' else NSet.del m k') dst

/-- What a hit program has changed in the v, d and c registers of lane `l` of a dispatched group, put into lane `l'` of its home:
the two run on the same registers, and what the home has written meanwhile stands (R497, log 75). -/
def Group.mergeHit (dst src : Group) (x : HitRun) (l l' : Nat) : Group :=
  let own (k : Nat) : Bool := k / 32 < 256 || 528 ≤ k / 32
  { dst with
    v := mergeLane 0 x.v src.v dst.v l l'
    d := mergeLane 0x800000 x.d src.d dst.d l l'
    c := mergeLane 0 x.c src.c dst.c l l'
    vEmpty := mergeLaneSet (fun _ => true) x.vEmpty src.vEmpty dst.vEmpty l l'
    dEmpty := mergeLaneSet (fun _ => true) x.dEmpty src.dEmpty dst.dEmpty l l'
    ecc := mergeLaneSet own x.ecc src.ecc dst.ecc l l' }

/-- The candidate of a thread's ray is decided (R496). -/
def dropCand (s : State) (gid lane : Nat) : State :=
  s.modGroup gid fun g => { g with rays := g.rays.map fun r => if r.lane == lane then { r with cand := none } else r }

/-- The hit programs of lanes of a dispatched group have ended: what they wrote stands in their threads' registers (R157,
R190, R496, R497). FST bits set in a hit program gather in the dispatched group and reach the home of each lane as its hit
program ends, where every bit gathered goes to each home: the manual does not say when (DESIGN CHOICE, R197, log 75). -/
def endHits (s : State) (gid : Nat) (lanes : List Nat) : State :=
  match (s.g gid).hit with
  | none => s
  | some x => lanes.foldl (fun st k => match x.lanes[k]? with
      | none => st
      | some (hg, hl) =>
        let h := st.g gid
        let x := h.hit.getD x
        dropCand (st.modGroup hg fun g => { g.mergeHit h x k hl with fst := g.fst ||| h.fst }) hg hl) s

/-- The parts of a narrow group that a terminator splits: slices by their least PC (R183). -/
def splitSlices (g : Group) (n : Narrow) : List Narrow :=
  let live := (List.range 8).filter fun k => tb n.slices k && !(g.lanesIn (2 ^ k)).isEmpty
  let least := fun k => minOr 0 ((g.lanesIn (2 ^ k)).map g.pc)
  let values := (live.map least).eraseDups
  if values.length ≤ 1 then [n]
  else
    let dead := (List.range 8).filter fun k => tb n.slices k && (g.lanesIn (2 ^ k)).isEmpty
    values.zipIdx.map fun v =>
      { n with slices := maskOf (((live.filter fun k => least k == v.1) ++ (if v.2 == 0 then dead else []))) }

/-- A narrow group at the end of its quire: temporaries are gone, the await list is in force (R207 to R209). -/
def endQuire (g : Group) (slices : Nat) (e : Eff) : Group :=
  let g1 := { g with t := FMap.keep (fun k => !tb slices (k % 32 / 4)) g.t }
  let g2 := g1.modNar slices fun n =>
    { n with idx := 0, st := .await, why := .idle, await := e.await, yielded := e.yields, hint := e.hint,
             safe := e.safe, colo := e.safe && !e.splits, joined := false, begun := false }
  if e.splits then { g2 with narrows := g2.narrows.flatMap fun n => if n.slices == slices then splitSlices g2 n else [n] }
  else g2

/-- A group after the instruction has retired in one of its narrow groups. A YIELD of lanes above the least PC changes no
preference (R187). -/
def retireIn (u : Ux) (h : Hdr) (e : Eff) (gid slices : Nat) (g : Group) : Group :=
  let n := g.nar slices
  let e1 := if g.issuePc { n with yielded := false } == u.pc then e else { e with yields := false }
  let at_ := g.lanesAt slices u.pc
  let pcs1 := at_.foldl (fun m k => FMap.set 0 m k (nextPc u.pc)) g.pcs
  let pcs2 := e.moves.foldl (fun m x => if x.1.gid == gid && tb slices (x.1.lane / 4) then FMap.set 0 m x.1.lane x.2 else m) pcs1
  let gone := maskOf ((e.exits.filter fun p => p.gid == gid).map fun p => p.lane)
  let g1 := { g with
    pcs := pcs2
    alive := g.alive &&& ~~~ (BitVec.ofNat 32 gone)
    quires := quiresNow g n
    instrs := g.instrs + 1
    wdog := 0
    replay := none
    handling := g.held.isSome
    halted := g.halted || e.halts
    stepDue := g.stepDue || (g.step && !g.sys) }
  let g2 := g1.modNar slices fun n => { n with idx := n.idx + 1, st := .ready, why := .idle }
  let g3 := if e.ends || h.fin then endQuire g2 slices e1 else g2
  if (g3.lanesIn slices).isEmpty then g3.modNar slices fun n => { n with st := .exited } else g3

/-- The narrow groups of a group that stand together after REORD become one (R189). -/
def fuseGroup (slices : List Nat) (g : Group) : Group :=
  let mine := g.narrows.filter fun n => slices.contains n.slices
  match mine with
  | [] => g
  | n :: _ =>
    { g with
      t := []
      narrows := { n with slices := maskOf ((List.range 8).filter fun k => mine.any fun m => tb m.slices k) } ::
        g.narrows.filter fun m => !slices.contains m.slices }

/-- The rendezvous of a unit's scope is gone (R176). -/
def clearRv (s : State) (gid : Nat) (scope : Scope) (perCore : Bool) : State :=
  let g := s.g gid
  match scope with
  | .lane => s
  | .group => s.modGroup gid fun g => { g with rv := none }
  | .set => match g.set with
    | some (k, _) => s.modBc g.bid g.bcore fun c => { c with rvs := FMap.set none c.rvs k none }
    | none => s
  | .block =>
    if perCore then s.modBc g.bid g.bcore fun c => { c with reord := none }
    else s.setBlock g.bid { s.b g.bid with rv := none }

/-- The open rendezvous of a unit's scope. -/
def getRv (s : State) (gid : Nat) (scope : Scope) (perCore : Bool) : Option Rendezvous :=
  let g := s.g gid
  match scope with
  | .lane => none
  | .group => g.rv
  | .set => match g.set with
    | some (k, _) => FMap.get none (s.bc g.bid g.bcore).rvs k
    | none => none
  | .block => if perCore then (s.bc g.bid g.bcore).reord else (s.b g.bid).rv

/-- `s` with the rendezvous of a unit's scope set. -/
def setRv (s : State) (gid : Nat) (scope : Scope) (perCore : Bool) (r : Rendezvous) : State :=
  let g := s.g gid
  match scope with
  | .lane => s
  | .group => s.modGroup gid fun g => { g with rv := some r }
  | .set => match g.set with
    | some (k, _) => s.modBc g.bid g.bcore fun c => { c with rvs := FMap.set none c.rvs k (some r) }
    | none => s
  | .block =>
    if perCore then s.modBc g.bid g.bcore fun c => { c with reord := some r }
    else s.setBlock g.bid { s.b g.bid with rv := some r }

/-- The FST bits of a group after an effect. -/
def newFst (e : Eff) (gid : Nat) : Nat :=
  (e.fst.filter fun x => x.1 == gid).foldl (fun a x => a ||| x.2) 0

/-- FST bits taken up by the groups (R197). -/
def addFst (s : State) (e : Eff) : State :=
  (e.fst.map (·.1)).eraseDups.foldl (fun st gid =>
    st.modGroup gid fun g => { g with fst := g.fst ||| BitVec.ofNat 6 (newFst e gid) }) s

/-- The trap of a newly set FST bit whose FTRAP bit is 1 (R332). -/
def fstTrap (s : State) (e : Eff) : Option Trap :=
  firstSome ((e.fst.map (·.1)).eraseDups.map fun gid =>
    let g := s.g gid
    let new := (BitVec.ofNat 6 (newFst e gid) &&& ~~~ g.fst).toNat
    let hot := new &&& g.ftrap.toNat
    if hot == 0 then none
    else firstSome ((List.range 6).map fun n =>
      if tb hot n then some { cause := 2 * 32 + 8 + n, info := new } else none))

/-- The commit of an instruction: its effect, its long-latency results, the PCs and quires of every member, and
the release of the rendezvous. The executing unit goes on unless its quire has ended. -/
def commit (u : Ux) (h : Hdr) (perCore : Bool) (e : Eff) : State :=
  let s1 := addLong (addFst e.st e) e.long e.far
  let s2 := if e.jumped then s1
    else u.arrived.foldl (fun st a => st.modGroup a.1 (retireIn u h e a.1 a.2)) s1
  let s2f := if e.fuses then u.members.foldl (fun st m =>
      st.modGroup m (fuseGroup ((u.arrived.filter fun a => a.1 == m).map (·.2)))) s2 else s2
  let s2h := if e.exits.isEmpty then s2f else endHits s2f u.gid (e.exits.map (·.lane))
  let s3 := clearRv s2h u.gid h.scope perCore
  let n := (s3.g u.gid).narrow u.slices
  let goes : Bool := match n with
    | some n => !e.ends && !h.fin && !e.jumped && n.st == .ready && !(s3.g u.gid).halted && !(s3.g u.gid).stepDue
    | none => false
  { s3 with cur := if goes then some (u.gid, u.slices) else none }

/-! ### Issue (R176 to R178, R313, R356) -/

/-- Trap of the encoding checks after decode: scope, set, role, fields (R356), then the mode (R313). -/
def admitCause (g : Group) (h : Hdr) (sh : Shape) : Option Trap :=
  if !sh.scopes.contains h.scope then some { cause := 4 }
  else if h.scope == .set && g.set.isNone then some { cause := 5 }
  else if !sh.roles.contains g.role then some { cause := 3 }
  else match sh.fieldCause with
    | some c => some { cause := c }
    | none => if (sh.sys && !g.sys) || (sh.barred && g.sys) then some { cause := 0x140 } else none

/-- An instruction that has issued stalls: the unit parks at it. The watchdog count returns to 0 as it issues, and not when it
reissues after a wait (R129, R202). -/
def stallAt (s : State) (u : Ux) (w : Wait) : State :=
  if ((s.g u.gid).nar u.slices).why == .idle then park (s.modGroup u.gid fun g => { g with wdog := 0 }) u w else park s u w

/-- What a stop does to the unit. -/
def stopUnit (s : State) (u : Ux) (h : Hdr) (once : Bool) : Stop → State
  | .trap t => takeTrap s u h once t
  | .partly t s' => takeTrap s' u h once t
  | .wait w => stallAt s u w

/-- The body answers the async-byte budget's trap, 9.1. -/
def isBudget : Res → Bool
  | .error (.trap t) => t.cause == 0x121
  | _ => false

/-- A stop of the register checks gives way to the async-byte budget, which R313 puts before class 1, where every register
that the charge is read from is full. -/
def budgetFirst (s : State) (u : Ux) (sh : Shape) (r : Res) : Bool :=
  isBudget r && (sh.srcs.flatMap fun x => emptyCells s x u.active).isEmpty

/-- The first stop before the body runs: a class-1 fault or the wait for registers, but the budget's trap before a class-1
fault (R313). -/
def firstStop (s : State) (u : Ux) (sh : Shape) (r : Res) : Option Stop :=
  match regStop s u sh, r with
  | some (.trap c1), .error (.trap t) => some (.trap (if budgetFirst s u sh r then t else c1))
  | x, _ => x

/-- The unit executes: register checks, the body, the format-status traps, then the commit. -/
def runUnit (s : State) (u : Ux) (h : Hdr) (sh : Shape) (body : Ux → State → Res) : State :=
  let once := h.scope != .lane
  match firstStop s u sh (body u s) with
  | some st => stopUnit s u h once st
  | none =>
    match body u s with
    | .error st => stopUnit s u h once st
    | .ok e =>
      match fstTrap s e with
      | some t => takeTrap s u h once t
      | none => commit u h sh.perCore e

/-- A group's watchdog count has reached its limit: it takes 9.2 at its next instruction (R130). -/
def watchDue (s : State) (g : Group) : Bool :=
  let lim := (s.launchOf g.bid).wdogLimit
  lim != 0 && decide (lim ≤ g.wdog)

/-- The trap of the watchdog; INFO is the count (R130, R314). -/
def watchTrap (g : Group) : Trap := { cause := 0x122, info := g.wdog }

/-- A narrow group of a member has arrived at the rendezvous at a PC. One that a handler keeps elsewhere takes no part before it
stands at the instruction again (R176, R178). -/
def hasArrived (s : State) (pc : Nat) (arrived : List (Nat × Nat)) (m : Nat) (n : Narrow) : Bool :=
  arrived.contains (m, n.slices) && ((s.g m).held.isNone || (s.g m).issuePc n == pc)

/-- A member's narrow groups that are not EXITED have arrived, and it is not bound for its handler of 9.2 (R130, R176). -/
def memberArrived (s : State) (pc : Nat) (arrived : List (Nat × Nat)) (m : Nat) : Bool :=
  !watchDue s (s.g m) && (s.g m).narrows.all fun n => ((s.g m).lanesIn n.slices).isEmpty || hasArrived s pc arrived m n

/-- The die of a block's leader core (R100). -/
def leaderDie (s : State) (bid : Nat) : Nat := dieOf ((s.b bid).cores.headD BCore.blank).core

/-- The near part of a rendezvous: the members on the leader's die have arrived (R180). -/
def nearPart (s : State) (bid pc : Nat) (members : List Nat) (arrived : List (Nat × Nat)) : Bool :=
  (members.filter fun m => dieOf (s.g m).core == leaderDie s bid).all (memberArrived s pc arrived)

/-- Its far part: those of the other die have (R180). -/
def farPart (s : State) (bid pc : Nat) (members : List Nat) (arrived : List (Nat × Nat)) : Bool :=
  (members.filter fun m => dieOf (s.g m).core != leaderDie s bid).all (memberArrived s pc arrived)

/-- Every member that is not EXITED has arrived: the near part, then the far part (R176, R180). -/
def allArrived (s : State) (bid pc : Nat) (members : List Nat) (arrived : List (Nat × Nat)) : Bool :=
  nearPart s bid pc members arrived && farPart s bid pc members arrived

/-- The members of a wide unit. -/
def wideMembers (s : State) (gid : Nat) (scope : Scope) (perCore : Bool) : List Nat :=
  let all := membersOf s gid scope
  if perCore && scope == .block then all.filter fun m => (s.g m).bcore == (s.g gid).bcore else all

/-- A block-scope unit has members on both sides of a die edge while a slot is open: the arrivals and results that cross
the edge are held. A REORD's unit lies on one core (R50, R180, R188). -/
def edgeHeld (s : State) (gid : Nat) (h : Hdr) (sh : Shape) : Bool :=
  h.scope == .block && !sh.perCore && memHeld s &&
    (wideMembers s gid h.scope sh.perCore).any fun m => dieOf (s.g m).core != leaderDie s (s.g gid).bid

/-- The group lies across the die edge from its block's leader core. -/
def acrossEdge (s : State) (gid : Nat) : Bool := dieOf (s.g gid).core != leaderDie s (s.g gid).bid

/-- The arrivals at the rendezvous of a narrow group's scope, its own included. -/
def arrivals (s : State) (solo : Ux) (h : Hdr) (sh : Shape) : List (Nat × Nat) :=
  let before := ((getRv s solo.gid h.scope sh.perCore).map (·.arrived)).getD []
  if before.contains (solo.gid, solo.slices) then before else before ++ [(solo.gid, solo.slices)]

/-- The open rendezvous of a scope that a group takes part in: at block scope that of the block and that of a REORD among
the groups of its core (R178, R188). -/
def openRvs (s : State) (gid : Nat) (scope : Scope) : List Rendezvous :=
  (getRv s gid scope false).toList ++ if scope == .block then (getRv s gid scope true).toList else []

/-- The open rendezvous of a narrow group's scope that stands at another instruction, whether or not the group has arrived there
(R178). -/
def mismatch (s : State) (solo : Ux) (h : Hdr) : Option Rendezvous :=
  (openRvs s solo.gid h.scope).find? fun r => r.pc != solo.pc

/-- A narrow group's arrival issues the instruction: it counts the quire that it begins with it, and the watchdog count returns
to 0 with the first arrival (R108, R129, R176). -/
def beginQuire (s : State) (solo : Ux) (again : Bool) : State :=
  s.modGroup solo.gid fun g =>
    { (g.modNar solo.slices fun n => { n with begun := n.begun || n.idx == 0 }) with
      quires := quiresNow g (g.nar solo.slices)
      wdog := if again then g.wdog else 0 }

/-- A narrow group has arrived at the rendezvous of its scope already. -/
def arrivedHere (s : State) (solo : Ux) (h : Hdr) (sh : Shape) : Bool :=
  (((getRv s solo.gid h.scope sh.perCore).map (·.arrived)).getD []).contains (solo.gid, solo.slices)

/-- The wide unit that executes once a narrow group has arrived as the last: the instruction executes on the
lowest-numbered arrived member, in that of its narrow groups which arrived first: the spec numbers no narrow groups, and
the choice, which gives a frame its IDX and AWAIT, is the model's (R176, R177; DESIGN CHOICE, log 121). None while a member is still to
come. -/
def wideUnit (s : State) (solo : Ux) (h : Hdr) (sh : Shape) : Option (State × Ux) :=
  let me := (solo.gid, solo.slices)
  let arrived := arrivals s solo h sh
  let members := wideMembers s solo.gid h.scope sh.perCore
  if allArrived s (s.g solo.gid).bid solo.pc members arrived then
    let first := (members.find? fun m => arrived.any fun a => a.1 == m).getD solo.gid
    let ex := (arrived.find? fun a => a.1 == first).getD me
    let u := mkUnit s h ex.1 ex.2 solo.pc members arrived
      (match (s.g ex.1).replay with
       | some r => r.done
       | none => 0)
    let s0 := beginQuire s solo (arrivedHere s solo h sh)
    let s1 := setRv s0 solo.gid h.scope sh.perCore { pc := solo.pc, arrived := arrived, complete := true }
    let s2 := if ex == me then s1
      else s1.modGroup solo.gid fun g => g.modNar solo.slices fun n => { n with st := .parked, why := .rendezvous }
    some (s2, u)
  else none

/-- A narrow group's arrival is recorded and it parks, until the rendezvous is complete or a slot ends (R176, R180). -/
def arriveParked (s : State) (solo : Ux) (h : Hdr) (sh : Shape) (w : Wait) : State :=
  park (setRv (beginQuire s solo (arrivedHere s solo h sh)) solo.gid h.scope sh.perCore
    { pc := solo.pc, arrived := arrivals s solo h sh, complete := false }) solo w

/-- A narrow group issues an instruction of a wider scope: it arrives, and the last arrival executes it once for
the unit (R176 to R178). While a slot is open an arrival that crosses a die edge waits, and so does the once-execution of a
unit on both sides of one (R180). -/
def arrive (s : State) (solo : Ux) (h : Hdr) (sh : Shape) (body : Ux → State → Res) : State :=
  match mismatch s solo h with
  | some r =>
    let code := match h.scope with
      | .lane => 0
      | .group => 0
      | .set => 1
      | .block => 2
    takeTrap s solo h false { cause := 5 * 32 + code, info := r.pc }
  | none =>
    if edgeHeld s solo.gid h sh && acrossEdge s solo.gid then park s solo .slot
    else match wideUnit s solo h sh with
    | some (s2, u) => if edgeHeld s solo.gid h sh then arriveParked s solo h sh .slot else runUnit s2 u h sh body
    | none => arriveParked s solo h sh .rendezvous

/-- The unit of one narrow group at the instruction it issues. -/
def soloUnit (s : State) (h : Hdr) (gid slices : Nat) : Ux :=
  let g := s.g gid
  mkUnit s h gid slices (g.issuePc (g.nar slices)) [gid] [(gid, slices)]
    (match g.replay with
     | some r => if r.slices == slices then r.done else 0
     | none => 0)

/-- The unit that executes an instruction when its narrow group issues it, with the state in which it does: the narrow
group itself at lane scope, else the unit that its arrival completes. None where the instruction is not admitted, a trap is
due, members are still to arrive, or a slot holds what crosses a die edge (R176, R180, R313). -/
def executing (s : State) (h : Hdr) (sh : Shape) : Option (State × Ux) :=
  match s.cur with
  | none => none
  | some (gid, slices) =>
    let g := s.g gid
    let u := soloUnit s h gid slices
    if (admitCause g h sh).isSome || (budgetTrap (s.launchOf g.bid) g (g.nar slices)).isSome then none
    else if h.scope == .lane then some (s, u)
    else if (mismatch s u h).isSome || edgeHeld s u.gid h sh then none
    else wideUnit s u h sh

/-- An instruction issues from a narrow group. -/
def issueFrom (gid slices : Nat) (h : Hdr) (sh : Shape) (body : Ux → State → Res) (s : State) : State :=
  let g := s.g gid
  let u := soloUnit s h gid slices
  match admitCause g h sh with
  | some t => takeTrap s u h false t
  | none =>
    match budgetTrap (s.launchOf g.bid) g (g.nar slices) with
    | some t => takeTrap s u h false t
    | none => if h.scope == .lane then runUnit s u h sh body else arrive s u h sh body

/-- The issue of an encoded instruction by the unit that holds the issue slot. -/
def issue (h : Hdr) (sh : Shape) (s : State) (body : Ux → State → Res) : Host.Outcome State Fault Refusal :=
  match s.cur with
  | none => .refused .noIssuingUnit
  | some (gid, slices) => .next (issueFrom gid slices h sh body s)

/-! ### Returning from an exception (R316, R318, R508) -/

/-- The groups that a fault suspended become eligible (R316). -/
def releaseMembers (s : State) (gid : Nat) (members : List Nat) : State :=
  members.foldl (fun st m => st.modGroup m fun g => { g with susp := g.susp.filter fun x => x != gid }) s

/-- The instruction after SKIP: the lanes of the narrow group that stood at the fault's PC stand after f.PC, at the index
after the fault, or at a quire start where the skipped instruction ended its quire, reached from no terminator (R316,
R322). -/
def skipNarrow (g : Group) (slices old pc idx : Nat) (fin : Bool) (t : FMap Word) (await : List Opnd) : Group :=
  let pcs := (g.lanesAt slices old).foldl (fun m k => FMap.set 0 m k (nextPc pc)) g.pcs
  let mine := fun k => tb slices (k % 32 / 4)
  let counted := quiresNow g { g.nar slices with idx := idx }
  let g1 := { g with pcs := pcs, replay := none }
  if fin then
    { (g1.modNar slices fun n => { n with idx := 0, st := .await, why := .idle, await := await, yielded := false,
                                          joined := false, safe := false, colo := false, begun := false }) with
      t := FMap.keep (fun k => !mine k) t
      quires := counted }
  else
    { (g1.modNar slices fun n => { n with idx := idx + 1, st := .ready, why := .idle }) with
      t := t
      quires := counted }

/-- Await codes of a frame as operands. -/
def opndOfCode (n : Nat) : Opnd :=
  if n < 256 then .v n
  else if n < 416 then .s (n - 256)
  else if n < 528 then .zr
  else if n < 544 then .d (n - 528)
  else .zr

/-- A trap frame as read back: the fields that a handler may write; the others are read-only, and the core holds them (R10,
R314). -/
structure Frame where
  pc : Nat
  skip : Bool
  done : Nat
  await : List Opnd
  t : FMap Word
  c : FMap (BitVec 4)
deriving DecidableEq, Repr

/-- The frame that its bytes hold (R314). -/
def readFrame (bs : List Byte) : Frame :=
  let w := fun k => leVal ((bs.drop (8 * k)).take 8)
  { pc := w 0 % 2 ^ 57 / 64 * 64 + w 0 % 8, skip := tb (w 2) 19, done := bits (w 3) 63 32
    await := ((List.range 6).map fun k => opndOfCode (w 5 / 2 ^ (10 * k) % 1024)) ++ [opndOfCode (w 6 % 1024)]
    t := (List.range 256).foldl (fun m k =>
      FMap.set 0 m k (BitVec.ofNat 32 (leVal ((bs.drop (64 + 4 * k)).take 4)))) []
    c := (List.range 128).foldl (fun m k =>
      FMap.set 0 m k (BitVec.ofNat 4 (leVal ((bs.drop (0x440 + 2 * (k % 32))).take 2) / 16 ^ (k / 32)))) [] }

/-- A narrow group that reissues at f.PC: the lanes that issued the faulting instruction stand there, under the frame's await
list (R316). -/
def reissueNarrow (g : Group) (slices old idx : Nat) (f : Frame) : Group :=
  let pcs := (g.lanesAt slices old).foldl (fun m k => FMap.set 0 m k f.pc) g.pcs
  { (g.modNar slices fun n => { n with idx := idx, await := f.await, st := .await, why := .idle }) with
    pcs := pcs
    t := f.t
    replay := some { slices := slices, done := f.done } }

/-- A member of a rendezvous whose once-execution reissues at another PC stands there too (R316, R508). -/
def moveMembers (s : State) (gid slices old pc : Nat) (arrived : List (Nat × Nat)) : State :=
  (arrived.filter fun a => a != (gid, slices)).foldl (fun st a => st.modGroup a.1 fun g =>
    { g with pcs := (g.lanesAt a.2 old).foldl (fun m k => FMap.set 0 m k pc) g.pcs }) s

/-- The arrival of a narrow group that skips the instruction of an open rendezvous is gone (R178, R316). -/
def leaveRv (s : State) (gid slices : Nat) (scope : Scope) (perCore : Bool) : State :=
  match getRv s gid scope perCore with
  | none => s
  | some r => setRv s gid scope perCore { r with arrived := r.arrived.filter fun a => a != (gid, slices) }

/-- The group returns from its handler with the frame (R316, R508). The index is the one that the core holds, since IDX is
read-only. `fin` is END of the instruction at f.PC. -/
def resumeGroup (s : State) (gid : Nat) (x : Held) (f : Frame) (fin : Bool) (perCore : Bool) : State :=
  let back := s.modGroup gid fun g =>
    { g with pcs := x.pcs, narrows := x.narrows, sys := false, c := f.c, held := none, t := [],
             rv := x.rv, wdog := 0, instrs := g.instrs + 1 }
  let n := (back.g gid).nar x.slices
  let old := (back.g gid).issuePc n
  let rv := if x.wide then getRv back gid x.scope perCore else none
  let s1 :=
    if f.skip then
      match rv with
      | some r => clearRv (r.arrived.foldl (fun st a => st.modGroup a.1 fun g =>
          if a == (gid, x.slices) then skipNarrow g a.2 old f.pc n.idx fin f.t f.await
          else skipNarrow g a.2 old f.pc (g.nar a.2).idx fin g.t (if fin then [] else (g.nar a.2).await)) back)
          gid x.scope perCore
      | none => (leaveRv back gid x.slices x.scope perCore).modGroup gid fun g =>
          skipNarrow g x.slices old f.pc n.idx fin f.t f.await
    else
      match rv with
      | some r => setRv (moveMembers (back.modGroup gid fun g => reissueNarrow g x.slices old n.idx f) gid x.slices old f.pc
          r.arrived) gid x.scope perCore { r with pc := f.pc }
      | none => (if f.pc == old then back else leaveRv back gid x.slices x.scope perCore).modGroup gid fun g =>
          reissueNarrow g x.slices old n.idx f
  releaseMembers s1 gid x.members

end Sys2Proof.Machine
end

