-- ==== Sys2Proof/Machine/Operands.lean ====
section
/-!
DEFINITION. Operand forms: integer operands by type (R369, R371), effective addresses (R350), the lanes over
which a result is written, and the shapes that instructions of formats A, I and M share.
-/

namespace Sys2Proof.Machine

/-! ### Data operands of the integer rows (R369 to R371) -/

/-- TY of the integer rows: FN[1:0]. -/
def tyOf (fn : Nat) : Nat := fn % 4

/-- Width in bits of a type. -/
def widthOf (ty : Nat) : Nat := if ty == 2 then 64 else 32

/-- The type reads its operands as signed. -/
def signedTy (ty : Nat) : Bool := ty != 1

/-- Classes of a data source of `n` registers; with `once` the value must be uniform. A t register is refused where the operand is a
pair; R369 does not say whether an operand of fixed 32-bit width counts as a data operand at TY 2, and there it is taken (R369, R371;
DESIGN CHOICE, log 166). -/
def dataAcc (n : Nat) (once : Bool) : Acc :=
  { v := !once, s := true, sp := n == 1, t := n == 1 && !once, k := true, z := true }

/-- Classes of a data destination of `n` registers. A special is refused by the register check (R193). -/
def dstAcc (n : Nat) : Acc := { v := true, s := true, sp := true, t := n == 1, z := true }

/-- The pattern of an operand at a width of 32 or 64 bits. -/
def rdPat (s : State) (u : Ux) (w : Nat) (o : Opnd) (p : Pos) : Nat :=
  if w == 64 then (rd64 s u o p).toNat else (rd s u o p).toNat

/-- The integer that an operand holds under a type (R369). -/
def rdInt (s : State) (u : Ux) (ty : Nat) (o : Opnd) (p : Pos) : Int :=
  let w := widthOf ty
  let x := rdPat s u w o p
  if signedTy ty then sext w x else (x : Int)

/-- The check of CW: an instruction without a condition result has CW = 0b000 (R346). -/
def cwChk (gives : Bool) (cw : BitVec 3) : Option Nat := need 9 (gives || cw == 0)

/-- An optional source field of format A: its register count when it is used. -/
def optSrc (cause : Nat) (n : Option Nat) (once : Bool) (x : Src) : Option Nat :=
  match n with
  | none => unusedSrc cause x
  | some k => srcChk cause (dataAcc k once) once x

/-- The register uses of the sources that are used. -/
def optUse (n : Option Nat) (x : Src) : List RegUse :=
  match n with
  | none => []
  | some k => [useOf x k]

/-- The shape of a format A instruction on data registers: `dn` destination registers, the counts of its sources,
whether it gives a condition result, and whether its FN is legal. -/
def shapeA (f : FmtA) (dn : Nat) (a b c : Option Nat) (flags fnOk : Bool) : Shape :=
  let once := isScalar f.dst
  { enc := [dstChk (dstAcc dn) f.dst, cwChk flags f.cw, optSrc 10 a once f.sa, optSrc 11 b once f.sb,
      optSrc 12 c once f.sc, need 8 fnOk]
    srcs := optUse a f.sa ++ optUse b f.sb ++ optUse c f.sc
    dsts := [{ o := f.dst, n := dn }]
    once := once }

/-- The shape of a format I instruction on data registers. `immOk` says that the immediate is legal, `rmw` that
DST is also read. -/
def shapeI (f : FmtI) (dn : Nat) (a : Option Nat) (flags immOk fnOk rmw : Bool) : Shape :=
  let once := isScalar f.dst
  { enc := [dstChk (dstAcc dn) f.dst, cwChk flags f.cw, optSrc 10 a once f.sa, need 13 immOk, need 8 fnOk]
    srcs := (if rmw then [{ o := f.dst, n := dn }] else []) ++ optUse a f.sa
    dsts := [{ o := f.dst, n := dn }]
    once := once }

/-! ### Writing results -/

/-- The lanes over which an instruction computes: every active lane, or the first one when it executes once for
the unit (R371). -/
def workLanes (u : Ux) (once : Bool) : List Pos := if once then u.active.take 1 else u.active

/-- A result of `w` bits written to the destination in a lane. -/
def wrPat (s : State) (w : Nat) (o : Opnd) (p : Pos) (x : Nat) : State :=
  if w == 64 then wr64 s o p (BitVec.ofNat 64 x) else wr s o p (BitVec.ofNat 32 x)

/-- The lanes' results and flags, short latency: every lane computes on the state before the instruction, then
the destinations and, with CW[2] set, the condition registers are written (R346, R371). -/
def writeLanes (s : State) (u : Ux) (dst : Opnd) (w : Nat) (cw : BitVec 3) (f : Pos → Nat × BitVec 4) : State :=
  let once := isScalar dst
  let work := workLanes u once
  let s1 := work.foldl (fun st p => wrPat st w dst p (f p).1) s
  if cw.getLsbD 2 then
    u.active.foldl (fun st p => wrC st (cw.toNat % 4) p (f (if once then work.headD p else p)).2) s1
  else s1

/-- The cells of a result of `w` bits in a lane with their values, for a long-latency producer (R200). -/
def longCells (dst : Opnd) (w : Nat) (p : Pos) (x : Nat) : List (Nat × Cell × Word96) :=
  let cell (o : Opnd) (y : Nat) : List (Nat × Cell × Word96) :=
    match cellOf o p.lane with
    | some c => [(p.gid, c, BitVec.ofNat 96 (y % 2 ^ 32))]
    | none => []
  if w == 64 then cell dst x ++ cell (regPlus dst 1) (x / 2 ^ 32) else cell dst x

/-- The effect of a long-latency producer on 32- or 64-bit results: t registers are written at once, v and s
registers go empty until the result lands (R200, R201). -/
def produceLanes (s : State) (u : Ux) (dst : Opnd) (w : Nat) (f : Pos → Nat) : Eff :=
  let work := workLanes u (isScalar dst)
  match dst with
  | .t _ => { st := work.foldl (fun st p => wrPat st w dst p (f p)) s }
  | _ => { st := s, long := work.flatMap fun p => longCells dst w p (f p) }

/-! ### Effective addresses (R350, R438, R440) -/

/-- The space reads a 64-bit base. -/
def wideBase (space : Nat) : Bool := space == 0 || space == 1 || space == 6

/-- Classes of BASE; with `once` the operand is uniform (R438, R440). A 64-bit base is a pair, which no t register is part of
(R194, R350). -/
def baseAcc (once wide : Bool) : Acc := { v := !once, s := true, sp := true, t := !once && !wide, z := true }

/-- Classes of INDEX (R438, R440). -/
def indexAcc (once : Bool) : Acc := { v := !once, s := true, t := !once, k := true, z := true }

/-- BASE takes no lane-varying special at all: R438 names uniform specials alone. -/
def baseChk (once wide : Bool) (x : Src) : Option Nat :=
  if !(baseAcc once wide).takes x.reg then some 10
  else if varying x.reg then some (if once then 6 else 10) else none

/-- A lane-varying special in the base or index of a scalar access is 0.6, though the field takes no special (R196, R440). -/
def laneIndex (once : Bool) (x : Src) (e : Option Nat) : Option Nat := if once && varying x.reg then some 6 else e

/-- The INDEX field: 0x3FF for none, or an index (R345, R349, R438). -/
def indexChk (once : Bool) (x : Src) : Option Nat :=
  if x.reg = .zr then unusedSrc 11 x else laneIndex once x (srcChk 11 (indexAcc once) once x)

/-- The register use of a base: two registers without alignment where the base is 64 bits wide (R350). -/
def baseUse (f : FmtM) : RegUse :=
  { o := f.base.reg, n := if wideBase f.space.toNat then 2 else 1, align := false, ep := f.base.ep }

/-- A 64-bit base of a lane: the named register and the next of its class, of the specials too (R350). -/
def base64 (s : State) (u : Ux) (o : Opnd) (p : Pos) : DWord :=
  match o with
  | .spec n => rd s u (.spec (n + 1)) p ++ rd s u (.spec n) p
  | _ => rd64 s u o p

/-- The base of a lane (R350). -/
def baseOf (s : State) (u : Ux) (f : FmtM) (p : Pos) : Nat :=
  if wideBase f.space.toNat then (base64 s u f.base.reg p).toNat else (rd s u f.base.reg p).toNat

/-- The effective address of a lane (R350); `idx` is false in rows 0xA, where INDEX is the source operand. -/
def effAddr (s : State) (u : Ux) (f : FmtM) (idx : Bool) (p : Pos) : Nat :=
  let ix : Int := if !idx || f.index.reg = .zr then 0
    else sext 32 (rd s u f.index.reg p).toNat * (2 : Int) ^ f.scl.toNat
  wrap 64 ((baseOf s u f p : Int) + ix + f.off.toInt)

end Sys2Proof.Machine
end

