-- ==== Sys2Proof/Machine/Access.lean ====
section
/-!
DEFINITION. The address spaces (R244 to R251): decoding an effective address, the checks of an access, the place
it reaches, and the breakpoint (R404).
-/

namespace Sys2Proof.Machine

/-- A decoded address: its space and the rest in that space's form (R244, R245). -/
structure Decoded where
  space : Nat
  rest : Nat
  /-- The core id that a generic tile address carries. -/
  core : Option Nat
deriving DecidableEq, Repr

/-- The value is in the form of a space (R244). -/
def inForm (space x : Nat) : Bool :=
  match space with
  | 1 => x < 2 ^ 57
  | 2 => x < 2 ^ 21
  | 3 => x < 2 ^ 16
  | 4 => x < 2 ^ 23
  | 5 => x < 2 ^ 26
  | 6 => x < 2 ^ 57
  | _ => true

/-- The decoding of a generic address, or the space whose WINDOW fault it raises (R245). -/
def decodeGeneric (x : Nat) : Except Nat Decoded :=
  let top := bits x 63 56
  if top < 2 then .ok ⟨1, x, none⟩
  else if top == 0xFF then (if bits x 55 16 == 0 then .ok ⟨3, bits x 15 0, none⟩ else .error 3)
  else if top == 0xFE then (if bits x 46 21 == 0 then .ok ⟨2, bits x 20 0, some (bits x 55 47)⟩ else .error 2)
  else if top == 0xFD then (if bits x 55 23 == 0 then .ok ⟨4, bits x 22 0, none⟩ else .error 4)
  else if top == 0xFC then (if bits x 55 26 == 0 then .ok ⟨5, bits x 25 0, none⟩ else .error 5)
  else .error 0

/-- The decoding of an effective address of a space, or the space whose WINDOW fault it raises. -/
def decodeAddr (space x : Nat) : Except Nat Decoded :=
  if space == 0 then decodeGeneric x
  else if inForm space x then .ok ⟨space, x, none⟩ else .error space

/-- The class-3 cause of a space and kind: 0 TRANS, 1 PERM, 2 WINDOW, 3 BOUNDS (R248). -/
def memCause (space kind : Nat) : Nat := 3 * 32 + 4 * space + kind

/-- Core index of the block that a tile, cluster-shared or pooled address of a group names, or none for a WINDOW
fault (R251). -/
def tileCoreOf (s : State) (g : Group) (d : Decoded) : Option Nat :=
  let cores := (s.b g.bid).cores
  match d.space with
  | 2 => match d.core with
    | none => some g.bcore
    | some c => if c == g.core then some g.bcore else none
  | 4 =>
    let c := clusterOf g.core * 4 + bits d.rest 22 21
    cores.findIdx? fun k => k.core == c
  | _ =>
    let k := bits d.rest 24 21
    match cores[k]? with
    | none => none
    | some x =>
      let leader := (cores.headD BCore.blank).core
      if tb d.rest 25 == (dieOf x.core != dieOf leader) then some k else none

/-- The backing address of a private offset of a thread (R249). -/
def privateVa (s : State) (g : Group) (lane off : Nat) : Nat :=
  0x1FF800000000000 + (s.b g.bid).ps * 2 ^ 31 + FMap.get 0 g.tlin lane * 2 ^ 16 + off

/-- What an access does (R248, R404). -/
inductive Kind where
  | load | store | atomic
deriving DecidableEq, Repr

/-- The place an access reaches. -/
structure Site where
  loc : Loc
  space : Nat
  /-- MT of the page; 0 for tile memory. -/
  mt : Nat
  /-- The virtual address, of a translated access. -/
  va : Nat
deriving DecidableEq, Repr

/-- Sizes in bytes of the SIZE codes (R349). -/
def sizeBytes (code : Nat) : Nat :=
  match code with
  | 0 => 1
  | 1 => 2
  | 2 => 4
  | 3 => 8
  | 4 => 16
  | _ => 32

/-- The place of a translated address, or its cause: TRANS and PERM of the space, TRANS of space 7 for a hole, and
11.3 for a dark die (R16, R33, R248, R274). -/
def reach (s : State) (ctx : Nat) (user write : Bool) (space va : Nat) : Except Nat Site :=
  match translate s ctx { write := write, fetch := false, user := user } va with
  | .trans => .error (memCause space 0)
  | .perm => .error (memCause space 1)
  | .dark _ => .error 0x163
  | .ok pa mt =>
    if isHole pa then .error (memCause 7 0)
    else if isDark s pa then .error 0x163
    else .ok { loc := .phys pa, space := space, mt := mt, va := va }

/-- The fill of a mapped INVALID stash line translates, or raises TRANS or PERM of space 1 with the global address
(R262). A store to a filled line has the rights that its fill had. -/
def fillFault (s : State) (g : Group) (user write : Bool) (c off : Nat) : Option (Nat × Nat) :=
  let k := s.bc g.bid c
  match stashAt k off with
  | none => none
  | some (m, i) =>
    let x := k.stash m
    if x.line i != 0 then none
    else
      let va := x.va + 128 * i
      match reach s (s.launchOf g.bid).ctx user write 1 va with
      | .error c => some (c, va + off % 128)
      | .ok _ => none

/-- The access of a lane: its place, or its cause and fault address (R244 to R251). An atomic fills no stash line: its service
refuses a mapped range (R447). -/
def access (s : State) (gid lane space ea n : Nat) (kind : Kind) : Except (Nat × Nat) Site :=
  let g := s.g gid
  let l := s.launchOf g.bid
  let write := kind != .load
  match decodeAddr space ea with
  | .error sp => .error (memCause sp 2, ea)
  | .ok d =>
    if d.space == 1 || d.space == 6 then
      if d.rest % n != 0 then .error (memCause d.space 3, ea)
      else match reach s l.ctx (!g.sys) write d.space d.rest with
        | .error c => .error (c, ea)
        | .ok x => .ok x
    else if d.space == 3 then
      if d.rest % n != 0 || d.rest + n > 65536 then .error (memCause 3 3, ea)
      else match reach s l.ctx (!g.sys) write 3 (privateVa s g lane d.rest) with
        | .error c => .error (c, ea)
        | .ok x => .ok x
    else
      match tileCoreOf s g d with
      | none => .error (memCause d.space 2, ea)
      | some k =>
        let off := bits d.rest 20 0
        if off % n != 0 || off + n > l.tileb then .error (memCause d.space 3, ea)
        else
          let here : Site := { loc := .tile g.bid k off, space := d.space, mt := 0, va := off }
          if kind == .atomic then .ok here
          else match fillFault s g (!g.sys) write k off with
          | some (c, fa) => .error (c, fa)
          | none => .ok here

/-- The data that an access reads at a place is poisoned: its line, the line that a stash fill would take, or the line of
tile memory (R33, R311, R312, R447). -/
def sitePoisoned (s : State) (x : Site) : Bool :=
  match x.loc with
  | .phys pa => isPoisoned s pa
  | .tile b c off =>
    let k := s.bc b c
    match stashAt k off with
    | some (m, i) => (k.stash m).line i == 0 && isPoisoned s ((linePa s b c m i).getD 0)
    | none => NSet.has k.bad (off / 128)

/-- The machine-check cause of reading poisoned data there: that of the line, or 11.7 in tile memory (R311). -/
def poisonCause (s : State) (x : Site) : Nat :=
  match x.loc with
  | .phys pa => lineCheck s pa
  | .tile b c off =>
    match stashAt (s.bc b c) off with
    | some (m, i) => lineCheck s ((linePa s b c m i).getD 0)
    | none => 0x167

/-- The breakpoint of a group matches an access (R404). -/
def brkHit (g : Group) (kind : Kind) (x : Site) (n : Nat) : Bool :=
  match g.brk with
  | none => false
  | some b =>
    let space := x.space == 1 || x.space == 3 || x.space == 6
    let wanted := b.kind == 3 || (b.kind == 1 && kind == .load) || (b.kind == 2 && kind != .load)
    space && wanted && x.va < b.base + 2 ^ b.lg && b.base < x.va + n

end Sys2Proof.Machine
end

