-- ==== Sys2Proof/Decode.lean ====
section
/-!
DEFINITION. The decoder of the 96-bit instruction word (R339 to R357) and the encoder written from the
same field tables.

Every value of OP is an instruction (R357), so the decoder is total on words; reserved values of the other
fields are kept and raise their causes when the instruction issues (R356). Rows of the opcode table that
split one opcode (STASH, MPAIR, BLDF) are told apart by the bit their description names.

The decoder builds constructors of an inductive of 357, more than compiled code can number, so it is
marked noncomputable; the kernel evaluates it, and Machine/WordDispatch.lean runs the same words in
compiled code.
-/

namespace Sys2Proof

/-- The register code of R343. -/
def decodeOpnd (c : BitVec 10) : Opnd :=
  let n := c.toNat
  if n < 256 then .v n
  else if n < 416 then .s (n - 256)
  else if n < 448 then .spec (n - 416)
  else if n < 512 then .rsvd c
  else if n < 520 then .t (n - 512)
  else if n < 528 then .rsvd c
  else if n < 544 then .d (n - 528)
  else if n < 548 then .c (n - 544)
  else if n < 576 then .rsvd c
  else if n < 640 then .imm ((n : Int) - 608)
  else if n = 1023 then .zr
  else .rsvd c

/-- The code of an operand (R343). -/
def encodeOpnd : Opnd → BitVec 10
  | .v n => BitVec.ofNat 10 n
  | .s n => BitVec.ofNat 10 (256 + n)
  | .spec n => BitVec.ofNat 10 (416 + n)
  | .t n => BitVec.ofNat 10 (512 + n)
  | .d n => BitVec.ofNat 10 (528 + n)
  | .c n => BitVec.ofNat 10 (544 + n)
  | .imm k => BitVec.ofNat 10 (608 + k).toNat
  | .zr => 1023
  | .rsvd c => c

/-- A 12-bit source field (R342). -/
def decodeSrc (x : BitVec 12) : Src :=
  ⟨x.getLsbD 11, x.getLsbD 10, decodeOpnd (x.extractLsb' 0 10)⟩

/-- The 12 bits of a source field (R342). -/
def encodeSrc (x : Src) : BitVec 12 :=
  BitVec.ofBool x.ep ++ (BitVec.ofBool x.lr ++ encodeOpnd x.reg)

/-- SCOPE (R174). -/
def decodeScope (x : BitVec 2) : Scope :=
  match x.toNat with
  | 0 => .lane
  | 1 => .group
  | 2 => .set
  | _ => .block

/-- The SCOPE code (R174). -/
def encodeScope : Scope → BitVec 2
  | .lane => 0
  | .group => 1
  | .set => 2
  | .block => 3

/-- GCOND (R340). -/
def decodeCond (x : BitVec 4) : Cond :=
  match x.toNat with
  | 0 => .al
  | 1 => .eq
  | 2 => .ne
  | 3 => .lt
  | 4 => .ge
  | 5 => .gt
  | 6 => .le
  | 7 => .lo
  | 8 => .hs
  | 9 => .hi
  | 10 => .ls
  | 11 => .mi
  | 12 => .pl
  | 13 => .vs
  | 14 => .vc
  | _ => .nv

/-- The GCOND code (R340). -/
def encodeCond : Cond → BitVec 4
  | .al => 0
  | .eq => 1
  | .ne => 2
  | .lt => 3
  | .ge => 4
  | .gt => 5
  | .le => 6
  | .lo => 7
  | .hs => 8
  | .hi => 9
  | .ls => 10
  | .mi => 11
  | .pl => 12
  | .vs => 13
  | .vc => 14
  | .nv => 15

/-- The common header (R339). -/
def decodeHdr (w : Word96) : Hdr :=
  ⟨decodeScope (w.extractLsb' 86 2), ⟨(w.extractLsb' 84 2).toNat, (w.extractLsb' 84 2).isLt⟩,
   decodeCond (w.extractLsb' 80 4), w.getLsbD 79⟩

/-- Bits [87:79] of the header (R339). -/
def encodeHdr (h : Hdr) : BitVec 9 :=
  encodeScope h.scope ++ (BitVec.ofNat 2 h.gc.val ++ (encodeCond h.cond ++ BitVec.ofBool h.fin))

/-- Format A (R347). -/
def decodeA (w : Word96) : FmtA :=
  { dst := decodeOpnd (w.extractLsb' 69 10), cw := w.extractLsb' 66 3
    sa := decodeSrc (w.extractLsb' 54 12), sb := decodeSrc (w.extractLsb' 42 12)
    sc := decodeSrc (w.extractLsb' 30 12), fn := w.extractLsb' 0 30 }

/-- Bits [78:0] of format A (R347). -/
def encodeA (f : FmtA) : BitVec 79 :=
  encodeOpnd f.dst ++ (f.cw ++ (encodeSrc f.sa ++ (encodeSrc f.sb ++ (encodeSrc f.sc ++ f.fn))))

/-- Format I (R348). -/
def decodeI (w : Word96) : FmtI :=
  { dst := decodeOpnd (w.extractLsb' 69 10), cw := w.extractLsb' 66 3
    sa := decodeSrc (w.extractLsb' 54 12), imm := w.extractLsb' 22 32, fn := w.extractLsb' 0 22 }

/-- Bits [78:0] of format I (R348). -/
def encodeI (f : FmtI) : BitVec 79 :=
  encodeOpnd f.dst ++ (f.cw ++ (encodeSrc f.sa ++ (f.imm ++ f.fn)))

/-- Format M (R349). -/
def decodeM (w : Word96) : FmtM :=
  { data := decodeOpnd (w.extractLsb' 69 10), ord := w.extractLsb' 66 3
    base := decodeSrc (w.extractLsb' 54 12), index := decodeSrc (w.extractLsb' 42 12)
    off := w.extractLsb' 18 24, space := w.extractLsb' 15 3, size := w.extractLsb' 12 3
    mscope := w.extractLsb' 9 3, cache := w.extractLsb' 6 3, scl := w.extractLsb' 3 3
    fn := w.extractLsb' 0 3 }

/-- Bits [78:0] of format M (R349). -/
def encodeM (f : FmtM) : BitVec 79 :=
  encodeOpnd f.data ++ (f.ord ++ (encodeSrc f.base ++ (encodeSrc f.index ++ (f.off ++
    (f.space ++ (f.size ++ (f.mscope ++ (f.cache ++ (f.scl ++ f.fn)))))))))

/-- Format B (R351). -/
def decodeB (w : Word96) : FmtB :=
  { tgt := w.extractLsb' 53 26
    await := [decodeOpnd (w.extractLsb' 43 10), decodeOpnd (w.extractLsb' 33 10),
      decodeOpnd (w.extractLsb' 23 10), decodeOpnd (w.extractLsb' 13 10)]
    safe := w.getLsbD 12, hint := w.getLsbD 11, fn := w.extractLsb' 0 11 }

/-- The await slot k of a list; a missing slot is unused (R207). -/
def awaitAt (l : List Opnd) (k : Nat) : Opnd := l.getD k .zr

/-- Bits [78:0] of format B (R351). -/
def encodeB (f : FmtB) : BitVec 79 :=
  f.tgt ++ (encodeOpnd (awaitAt f.await 0) ++ (encodeOpnd (awaitAt f.await 1) ++
    (encodeOpnd (awaitAt f.await 2) ++ (encodeOpnd (awaitAt f.await 3) ++
      (BitVec.ofBool f.safe ++ (BitVec.ofBool f.hint ++ f.fn))))))

/-- Format C (R353). -/
def decodeC (w : Word96) : FmtC :=
  { await := [decodeOpnd (w.extractLsb' 69 10), decodeOpnd (w.extractLsb' 59 10),
      decodeOpnd (w.extractLsb' 49 10), decodeOpnd (w.extractLsb' 39 10),
      decodeOpnd (w.extractLsb' 29 10), decodeOpnd (w.extractLsb' 19 10),
      decodeOpnd (w.extractLsb' 9 10)]
    safe := w.getLsbD 8, yieldHint := w.getLsbD 7, rsv := w.extractLsb' 0 7 }

/-- Bits [78:0] of format C (R353). -/
def encodeC (f : FmtC) : BitVec 79 :=
  encodeOpnd (awaitAt f.await 0) ++ (encodeOpnd (awaitAt f.await 1) ++
    (encodeOpnd (awaitAt f.await 2) ++ (encodeOpnd (awaitAt f.await 3) ++
      (encodeOpnd (awaitAt f.await 4) ++ (encodeOpnd (awaitAt f.await 5) ++
        (encodeOpnd (awaitAt f.await 6) ++
          (BitVec.ofBool f.safe ++ (BitVec.ofBool f.yieldHint ++ f.rsv))))))))

/-- Format E (R354). -/
def decodeE (w : Word96) : FmtE :=
  { desc := decodeOpnd (w.extractLsb' 69 10), bar := w.extractLsb' 63 6, ben := w.getLsbD 62
    evq := w.getLsbD 61, sa := decodeSrc (w.extractLsb' 49 12), sb := decodeSrc (w.extractLsb' 37 12)
    imm := w.extractLsb' 13 24, fn := w.extractLsb' 0 13 }

/-- Bits [78:0] of format E (R354). -/
def encodeE (f : FmtE) : BitVec 79 :=
  encodeOpnd f.desc ++ (f.bar ++ (BitVec.ofBool f.ben ++ (BitVec.ofBool f.evq ++
    (encodeSrc f.sa ++ (encodeSrc f.sb ++ (f.imm ++ f.fn))))))

/-- Format X (R355). -/
def decodeX (w : Word96) : FmtX :=
  { acc := w.extractLsb' 76 3, sla := w.extractLsb' 73 3, slb := w.extractLsb' 70 3
    pa := w.extractLsb' 66 4, pb := w.extractLsb' 62 4
    abase := decodeSrc (w.extractLsb' 50 12), bbase := decodeSrc (w.extractLsb' 38 12)
    shape := decodeSrc (w.extractLsb' 26 12), tri := w.extractLsb' 24 2, mask := w.extractLsb' 20 4
    fn := w.extractLsb' 0 20 }

/-- Bits [78:0] of format X (R355). -/
def encodeX (f : FmtX) : BitVec 79 :=
  f.acc ++ (f.sla ++ (f.slb ++ (f.pa ++ (f.pb ++ (encodeSrc f.abase ++ (encodeSrc f.bbase ++
    (encodeSrc f.shape ++ (f.tri ++ (f.mask ++ f.fn)))))))))

/-- Row 0x0 of the opcode map (R357). -/
def decodeRow0 (col : Nat) (w : Word96) : Instr :=
  let h := decodeHdr w
  match col with
  | 0 => .nop h (decodeA w)
  | 1 => .colo h (decodeC w)
  | 2 => .bra h (decodeB w)
  | 3 => .brx h (decodeB w)
  | 4 => .call h (decodeB w)
  | 5 => .callx h (decodeB w)
  | 6 => .ret h (decodeB w)
  | 7 => .exit h (decodeA w)
  | 8 => .bany h (decodeB w)
  | 9 => .ball h (decodeB w)
  | 10 => .yield h (decodeA w)
  | 11 => .trap h (decodeI w)
  | 12 => .bkpt h (decodeI w)
  | 13 => .rft h (decodeI w)
  | 14 => .loop h (decodeB w)
  | _ => .jmpt h (decodeB w)

/-- Row 0x1 of the opcode map (R357). -/
def decodeRow1 (col : Nat) (w : Word96) : Instr :=
  let h := decodeHdr w
  match col with
  | 0 => .iadd h (decodeA w)
  | 1 => .isub h (decodeA w)
  | 2 => .imul h (decodeA w)
  | 3 => .imulh h (decodeA w)
  | 4 => .imad h (decodeA w)
  | 5 => .imadw h (decodeA w)
  | 6 => .idiv h (decodeA w)
  | 7 => .irem h (decodeA w)
  | 8 => .imin h (decodeA w)
  | 9 => .imax h (decodeA w)
  | 10 => .iabs h (decodeA w)
  | 11 => .ineg h (decodeA w)
  | 12 => .iaddc h (decodeA w)
  | 13 => .isubb h (decodeA w)
  | 14 => .isad h (decodeA w)
  | _ => .idot4 h (decodeA w)

/-- Row 0x2 of the opcode map (R357). -/
def decodeRow2 (col : Nat) (w : Word96) : Instr :=
  let h := decodeHdr w
  match col with
  | 0 => .iaddi h (decodeI w)
  | 1 => .imuli h (decodeI w)
  | 2 => .imadi h (decodeI w)
  | 3 => .imini h (decodeI w)
  | 4 => .imaxi h (decodeI w)
  | 5 => .andi h (decodeI w)
  | 6 => .ori h (decodeI w)
  | 7 => .xori h (decodeI w)
  | 8 => .shli h (decodeI w)
  | 9 => .shri h (decodeI w)
  | 10 => .sari h (decodeI w)
  | 11 => .movi h (decodeI w)
  | 12 => .lea h (decodeM w)
  | 13 => .leax h (decodeM w)
  | 14 => .sptest h (decodeA w)
  | _ => .spcast h (decodeA w)

/-- Row 0x3 of the opcode map (R357). -/
def decodeRow3 (col : Nat) (w : Word96) : Instr :=
  let h := decodeHdr w
  match col with
  | 0 => .and_ h (decodeA w)
  | 1 => .or_ h (decodeA w)
  | 2 => .xor_ h (decodeA w)
  | 3 => .btab h (decodeA w)
  | 4 => .shl h (decodeA w)
  | 5 => .shr h (decodeA w)
  | 6 => .sar h (decodeA w)
  | 7 => .rot h (decodeA w)
  | 8 => .funnel h (decodeA w)
  | 9 => .popc h (decodeA w)
  | 10 => .clz h (decodeA w)
  | 11 => .brev h (decodeA w)
  | 12 => .bfx h (decodeA w)
  | 13 => .bfi h (decodeA w)
  | 14 => .icmp h (decodeA w)
  | _ => .sel h (decodeA w)

/-- Row 0x4 of the opcode map (R357). -/
def decodeRow4 (col : Nat) (w : Word96) : Instr :=
  let h := decodeHdr w
  match col with
  | 0 => .fadd h (decodeA w)
  | 1 => .fsub h (decodeA w)
  | 2 => .fmul h (decodeA w)
  | 3 => .ffma h (decodeA w)
  | 4 => .fmin h (decodeA w)
  | 5 => .fmax h (decodeA w)
  | 6 => .fcmp h (decodeA w)
  | 7 => .fclass h (decodeA w)
  | 8 => .frnd h (decodeA w)
  | 9 => .ffrc h (decodeA w)
  | 10 => .fscale h (decodeA w)
  | 11 => .fdiv h (decodeA w)
  | 12 => .fsqrt h (decodeA w)
  | 13 => .fdot2 h (decodeA w)
  | 14 => .fmed3 h (decodeA w)
  | _ => .fsgn h (decodeA w)

/-- Row 0x5 of the opcode map (R357). -/
def decodeRow5 (col : Nat) (w : Word96) : Instr :=
  let h := decodeHdr w
  match col with
  | 0 => .hadd2 h (decodeA w)
  | 1 => .hmul2 h (decodeA w)
  | 2 => .hfma2 h (decodeA w)
  | 3 => .hmin2 h (decodeA w)
  | 4 => .hmax2 h (decodeA w)
  | 5 => .hcmp2 h (decodeA w)
  | 6 => .hdot2 h (decodeA w)
  | 7 => .cadd h (decodeA w)
  | 8 => .cmul h (decodeA w)
  | 9 => .cmad h (decodeA w)
  | 10 => .cmulc h (decodeA w)
  | 11 => .cabs2 h (decodeA w)
  | 12 => .cexpi h (decodeA w)
  | 13 => .cscale h (decodeA w)
  | 14 => .crot h (decodeA w)
  | _ => .cmag h (decodeA w)

/-- Row 0x6 of the opcode map (R357). -/
def decodeRow6 (col : Nat) (w : Word96) : Instr :=
  let h := decodeHdr w
  match col with
  | 0 => .rcp h (decodeA w)
  | 1 => .rsq h (decodeA w)
  | 2 => .ex2 h (decodeA w)
  | 3 => .lg2 h (decodeA w)
  | 4 => .sint h (decodeA w)
  | 5 => .cost h (decodeA w)
  | 6 => .tanh h (decodeA w)
  | 7 => .sigm h (decodeA w)
  | 8 => .cvt h (decodeA w)
  | 9 => .cvpk2 h (decodeA w)
  | 10 => .cvpk4 h (decodeA w)
  | 11 => .unpk h (decodeA w)
  | 12 => .pk6 h (decodeA w)
  | 13 => .upk6 h (decodeA w)
  | 14 => .pki4 h (decodeA w)
  | _ => .qscl h (decodeA w)

/-- Row 0x7 of the opcode map (R357). -/
def decodeRow7 (col : Nat) (w : Word96) : Instr :=
  let h := decodeHdr w
  match col with
  | 0 => .pull h (decodeA w)
  | 1 => .pullt h (decodeA w)
  | 2 => .bcst h (decodeA w)
  | 3 => .poll h (decodeA w)
  | 4 => .vmask h (decodeA w)
  | 5 => .lred h (decodeA w)
  | 6 => .lscan h (decodeA w)
  | 7 => .peers h (decodeA w)
  | 8 => .reord h (decodeA w)
  | 9 => .perm h (decodeA w)
  | 10 => .mov h (decodeA w)
  | 11 => .movs h (decodeA w)
  | 12 => .ccset h (decodeA w)
  | 13 => .ccmov h (decodeA w)
  | 14 => .cclog h (decodeA w)
  | _ => .first h (decodeA w)

/-- Row 0x8 of the opcode map (R357). -/
def decodeRow8 (col : Nat) (w : Word96) : Instr :=
  let h := decodeHdr w
  match col with
  | 0 => .dmov h (decodeA w)
  | 1 => .dfromv h (decodeA w)
  | 2 => .dtov h (decodeA w)
  | 3 => .ddot h (decodeA w)
  | 4 => .dcross h (decodeA w)
  | 5 => .drefl h (decodeA w)
  | 6 => .drefr h (decodeA w)
  | 7 => .dscl h (decodeA w)
  | 8 => .dnorm h (decodeA w)
  | 9 => .dsetn h (decodeA w)
  | 10 => .dslerp h (decodeA w)
  | 11 => .dcmp h (decodeA w)
  | 12 => .dneg h (decodeA w)
  | 13 => .dadd h (decodeA w)
  | 14 => .dproj h (decodeA w)
  | _ => .dframe h (decodeA w)

/-- Row 0x9 of the opcode map (R357). -/
noncomputable def decodeRow9 (col : Nat) (w : Word96) : Instr :=
  let h := decodeHdr w
  match col with
  | 0 => .ld h (decodeM w)
  | 1 => .st h (decodeM w)
  | 2 => .ldt h (decodeM w)
  | 3 => .stt h (decodeM w)
  | 4 => .ldp h (decodeM w)
  | 5 => .stp h (decodeM w)
  | 6 => .lds h (decodeM w)
  | 7 => .sts h (decodeM w)
  | 8 => .ldc h (decodeM w)
  | 9 => .ldpl h (decodeM w)
  | 10 => .stpl h (decodeM w)
  | 11 => .pref h (decodeM w)
  | 12 => .ldgn h (decodeM w)
  | 13 => .stgn h (decodeM w)
  | 14 => .cctl h (decodeM w)
  | _ => if w.getLsbD 0 then .stashUnmap h (decodeE w) else .stashMap h (decodeE w)

/-- Row 0xA of the opcode map (R357). -/
noncomputable def decodeRow10 (col : Nat) (w : Word96) : Instr :=
  let h := decodeHdr w
  match col with
  | 0 => .aadd h (decodeM w)
  | 1 => .amin h (decodeM w)
  | 2 => .amax h (decodeM w)
  | 3 => .aand h (decodeM w)
  | 4 => .aor h (decodeM w)
  | 5 => .axor h (decodeM w)
  | 6 => .axchg h (decodeM w)
  | 7 => .acas h (decodeM w)
  | 8 => .afadd h (decodeM w)
  | 9 => .ainc h (decodeM w)
  | 10 => .adec h (decodeM w)
  | 11 => .radd h (decodeM w)
  | 12 => .rmin h (decodeM w)
  | 13 => .rmax h (decodeM w)
  | 14 => .rfadd h (decodeM w)
  | _ => .acas2 h (decodeM w)

/-- Row 0xB of the opcode map (R357). -/
noncomputable def decodeRow11 (col : Nat) (w : Word96) : Instr :=
  let h := decodeHdr w
  match col with
  | 0 => .fence h (decodeM w)
  | 1 => .arv h (decodeI w)
  | 2 => .arvx h (decodeI w)
  | 3 => .waitp h (decodeI w)
  | 4 => .waitc h (decodeI w)
  | 5 => .binit h (decodeI w)
  | 6 => .bqry h (decodeI w)
  | 7 => .rput h (decodeA w)
  | 8 => .rget h (decodeA w)
  | 9 => .rrel h (decodeA w)
  | 10 => .rdv h (decodeA w)
  | 11 => .mswin h (decodeI w)
  | 12 => .mslot h (decodeA w)
  | 13 => .speed h (decodeI w)
  | 14 => .evrec h (decodeI w)
  | _ => .signal h (decodeI w)

/-- Row 0xC of the opcode map (R357). -/
noncomputable def decodeRow12 (col : Nat) (w : Word96) : Instr :=
  let h := decodeHdr w
  match col with
  | 0 => .cpy h (decodeE w)
  | 1 => .cpy2d h (decodeE w)
  | 2 => .cpyt h (decodeE w)
  | 3 => .gath h (decodeE w)
  | 4 => .scat h (decodeE w)
  | 5 => .stsp h (decodeE w)
  | 6 => .ldsp h (decodeE w)
  | 7 => .cpypl h (decodeE w)
  | 8 => .coll h (decodeE w)
  | 9 => .rdma h (decodeE w)
  | 10 => .nsend h (decodeE w)
  | 11 => .nrecv h (decodeE w)
  | 12 => .cfill h (decodeE w)
  | 13 => .cinv h (decodeE w)
  | 14 => .cstat h (decodeE w)
  | _ => .cabort h (decodeE w)

/-- Row 0xD of the opcode map (R357). -/
noncomputable def decodeRow13 (col : Nat) (w : Word96) : Instr :=
  let h := decodeHdr w
  match col with
  | 0 => .mma h (decodeX w)
  | 1 => .mmap h (decodeX w)
  | 2 => .mmat h (decodeX w)
  | 3 => .mmapt h (decodeX w)
  | 4 => .acz h (decodeX w)
  | 5 => .acld h (decodeX w)
  | 6 => .acst h (decodeX w)
  | 7 => .acmv h (decodeX w)
  | 8 => .net h (decodeX w)
  | 9 => .netr h (decodeX w)
  | 10 => .plcv h (decodeE w)
  | 11 => .plq h (decodeX w)
  | 12 => .mscl h (decodeX w)
  | 13 => .msoft h (decodeX w)
  | 14 => if w.getLsbD 22 then .mpairBind h (decodeI w) else .mpairRel h (decodeI w)
  | _ => .mepi h (decodeX w)

/-- Row 0xE of the opcode map (R357). -/
noncomputable def decodeRow14 (col : Nat) (w : Word96) : Instr :=
  let h := decodeHdr w
  match col with
  | 0 => .emit h (decodeA w)
  | 1 => .emitv h (decodeA w)
  | 2 => .blend h (decodeA w)
  | 3 => .ztest h (decodeA w)
  | 4 => .tres h (decodeA w)
  | 5 => .splat h (decodeE w)
  | 6 => .splatc h (decodeE w)
  | 7 => .trace h (decodeA w)
  | 8 => .spawn h (decodeA w)
  | 9 => .hit h (decodeA w)
  | 10 => .rqry h (decodeA w)
  | 11 => if w.getLsbD 0 then .bldfAdd h (decodeE w) else .bldfOpen h (decodeE w)
  | 12 => .bldc h (decodeE w)
  | 13 => .tlck h (decodeE w)
  | 14 => .tlrst h (decodeE w)
  | _ => .drawx h (decodeE w)

/-- Row 0xF of the opcode map (R357). -/
noncomputable def decodeRow15 (col : Nat) (w : Word96) : Instr :=
  let h := decodeHdr w
  match col with
  | 0 => .rdsr h (decodeI w)
  | 1 => .wrsr h (decodeI w)
  | 2 => .save h (decodeI w)
  | 3 => .rest h (decodeI w)
  | 4 => .ctxsw h (decodeI w)
  | 5 => .tlbi h (decodeI w)
  | 6 => .cflush h (decodeI w)
  | 7 => .wake h (decodeI w)
  | 8 => .dieq h (decodeI w)
  | 9 => .logr h (decodeI w)
  | 10 => .perf h (decodeI w)
  | 11 => .bud h (decodeI w)
  | 12 => .halt h (decodeI w)
  | 13 => .dbg h (decodeI w)
  | 14 => .brks h (decodeI w)
  | _ => .ill h (decodeI w)

/-- The instruction a 96-bit word holds (R357). -/
noncomputable def decodeWord (w : Word96) : Instr :=
  let col := (w.extractLsb' 88 4).toNat
  match (w.extractLsb' 92 4).toNat with
  | 0 => decodeRow0 col w
  | 1 => decodeRow1 col w
  | 2 => decodeRow2 col w
  | 3 => decodeRow3 col w
  | 4 => decodeRow4 col w
  | 5 => decodeRow5 col w
  | 6 => decodeRow6 col w
  | 7 => decodeRow7 col w
  | 8 => decodeRow8 col w
  | 9 => decodeRow9 col w
  | 10 => decodeRow10 col w
  | 11 => decodeRow11 col w
  | 12 => decodeRow12 col w
  | 13 => decodeRow13 col w
  | 14 => decodeRow14 col w
  | _ => decodeRow15 col w

/-- Why bytes are not an instruction: fewer than the twelve bytes of a slot are there (R333). -/
inductive DecodeError where
  | fewerThanTwelveBytes
deriving DecidableEq, Repr

/-- The number that bytes hold in little-endian order (R5). -/
def leNat : List Byte → Nat
  | [] => 0
  | b :: rest => b.toNat + 256 * leNat rest

/-- The instruction at the head of a list of bytes, with the bytes that follow it (R333). -/
noncomputable def decode (bs : List Byte) : Except DecodeError (Instr × List Byte) :=
  if bs.length < 12 then .error .fewerThanTwelveBytes
  else .ok (decodeWord (BitVec.ofNat 96 (leNat (bs.take 12))), bs.drop 12)

/-- The instruction my decoder reads from an instruction whose bits are `w`, bit 0 the least significant bit
of byte 0; the bits above `nbits` are 0. -/
noncomputable def decodeTableWord (nbits w : Nat) : Option Instr :=
  match decode ((List.range 12).map fun k => BitVec.ofNat 8 (w % 2 ^ nbits / 256 ^ k)) with
  | .ok (i, _) => some i
  | .error _ => none

/-- The 96 bits of an encoded instruction from its opcode, header and body (R339). -/
def joinWord (op : BitVec 8) (h : Hdr) (body : BitVec 79) : Word96 := op ++ (encodeHdr h ++ body)

/-- The word of an instruction; a device or host step has none. -/
def encodeWord : Instr → Option Word96
  | .doorbell _ _ => none
  | .completionAcknowledgement _ _ => none
  | .queueEnable _ => none
  | .queueDisable _ => none
  | .registerWrite _ _ _ => none
  | .launchCommand _ => none
  | .copyCommand _ => none
  | .copyCommandComplete _ _ => none
  | .signalCommand _ => none
  | .waitCommand _ => none
  | .waitSatisfied _ => none
  | .ctxCreate _ => none
  | .ctxDestroy _ => none
  | .ctxRegister _ => none
  | .ctxRevoke _ => none
  | .resync _ => none
  | .dumpStatus _ => none
  | .dumpRelease _ => none
  | .attest _ => none
  | .badkind _ => none
  | .rdmaWrite _ _ _ _ => none
  | .rdmaRead _ _ _ _ => none
  | .send _ _ => none
  | .ceMarkReceived _ => none
  | .portEnableMaskWrite _ => none
  | .moduleReset => none
  | .bootStageVerify _ _ _ => none
  | .fatalError _ => none
  | .uncorrectableMemoryError _ _ _ => none
  | .phaseLoss _ _ => none
  | .dieLinkModuleOff _ _ _ => none
  | .dieOfflineRequest _ _ => none
  | .dieOnlineRequest _ => none
  | .pendingTransitionStart => none
  | .diePreemptComplete _ => none
  | .pageMigrate _ _ _ _ => none
  | .dieEvacuateComplete _ => none
  | .dieRemapComplete _ => none
  | .dieWakeComplete _ _ => none
  | .dieRemapinComplete _ => none
  | .frameBoundary => none
  | .lSlotAnnounce _ _ => none
  | .drainWindowBegin _ => none
  | .clusterSlotOpen _ => none
  | .slotPublishedEnd _ => none
  | .slotWorkDone _ => none
  | .slotCloseMessage _ => none
  | .mswinClaimExpiry _ => none
  | .controlIntervalBoundary _ => none
  | .speedChangeStopEnd _ => none
  | .ratioChangeApply _ => none
  | .c0rsvApply _ => none
  | .class0Admission _ _ => none
  | .blockPlace _ _ => none
  | .taskPlace _ _ _ => none
  | .blockAdmit _ => none
  | .blockThrottle _ => none
  | .blockRetire _ => none
  | .eventQueueDequeue _ => none
  | .issueArbitration _ _ => none
  | .lowerClassPark _ _ => none
  | .longLatencyWriteback _ _ => none
  | .watchdogExpiry _ => none
  | .blockPreempt _ => none
  | .preemptSave _ => none
  | .blockResume _ _ => none
  | .asyncOpComplete _ _ => none
  | .operandBeatArrive _ _ => none
  | .pageWalkComplete _ _ => none
  | .segmentWakeComplete _ _ => none
  | .bucketMove _ _ => none
  | .l2WayDisable _ _ => none
  | .upgrade _ _ => none
  | .readExclusive _ _ => none
  | .readShared _ _ _ => none
  | .invalidation _ _ => none
  | .invalidationAcknowledgement _ _ => none
  | .forwardedSnoop _ _ => none
  | .snoopAcknowledgement _ _ => none
  | .writeBack _ _ => none
  | .writeBackAcknowledgement _ _ => none
  | .exclusiveDataGrant _ _ => none
  | .registerEccError _ _ _ _ => none
  | .emitBufferRead _ => none
  | .primitiveBin _ => none
  | .partialFlush _ => none
  | .tileAssign _ _ _ => none
  | .tileCheckpoint _ _ => none
  | .fragmentWaveDispatch _ _ _ => none
  | .binningEnd _ => none
  | .tileRetire _ _ => none
  | .hitDispatch _ _ _ => none
  | .childRayTrace _ _ => none
  | .hitRecordFill _ _ => none
  | .nop h f => some (joinWord 0x00 h (encodeA f))
  | .colo h f => some (joinWord 0x01 h (encodeC f))
  | .bra h f => some (joinWord 0x02 h (encodeB f))
  | .brx h f => some (joinWord 0x03 h (encodeB f))
  | .call h f => some (joinWord 0x04 h (encodeB f))
  | .callx h f => some (joinWord 0x05 h (encodeB f))
  | .ret h f => some (joinWord 0x06 h (encodeB f))
  | .exit h f => some (joinWord 0x07 h (encodeA f))
  | .bany h f => some (joinWord 0x08 h (encodeB f))
  | .ball h f => some (joinWord 0x09 h (encodeB f))
  | .yield h f => some (joinWord 0x0A h (encodeA f))
  | .trap h f => some (joinWord 0x0B h (encodeI f))
  | .bkpt h f => some (joinWord 0x0C h (encodeI f))
  | .rft h f => some (joinWord 0x0D h (encodeI f))
  | .loop h f => some (joinWord 0x0E h (encodeB f))
  | .jmpt h f => some (joinWord 0x0F h (encodeB f))
  | .iadd h f => some (joinWord 0x10 h (encodeA f))
  | .isub h f => some (joinWord 0x11 h (encodeA f))
  | .imul h f => some (joinWord 0x12 h (encodeA f))
  | .imulh h f => some (joinWord 0x13 h (encodeA f))
  | .imad h f => some (joinWord 0x14 h (encodeA f))
  | .imadw h f => some (joinWord 0x15 h (encodeA f))
  | .idiv h f => some (joinWord 0x16 h (encodeA f))
  | .irem h f => some (joinWord 0x17 h (encodeA f))
  | .imin h f => some (joinWord 0x18 h (encodeA f))
  | .imax h f => some (joinWord 0x19 h (encodeA f))
  | .iabs h f => some (joinWord 0x1A h (encodeA f))
  | .ineg h f => some (joinWord 0x1B h (encodeA f))
  | .iaddc h f => some (joinWord 0x1C h (encodeA f))
  | .isubb h f => some (joinWord 0x1D h (encodeA f))
  | .isad h f => some (joinWord 0x1E h (encodeA f))
  | .idot4 h f => some (joinWord 0x1F h (encodeA f))
  | .iaddi h f => some (joinWord 0x20 h (encodeI f))
  | .imuli h f => some (joinWord 0x21 h (encodeI f))
  | .imadi h f => some (joinWord 0x22 h (encodeI f))
  | .imini h f => some (joinWord 0x23 h (encodeI f))
  | .imaxi h f => some (joinWord 0x24 h (encodeI f))
  | .andi h f => some (joinWord 0x25 h (encodeI f))
  | .ori h f => some (joinWord 0x26 h (encodeI f))
  | .xori h f => some (joinWord 0x27 h (encodeI f))
  | .shli h f => some (joinWord 0x28 h (encodeI f))
  | .shri h f => some (joinWord 0x29 h (encodeI f))
  | .sari h f => some (joinWord 0x2A h (encodeI f))
  | .movi h f => some (joinWord 0x2B h (encodeI f))
  | .lea h f => some (joinWord 0x2C h (encodeM f))
  | .leax h f => some (joinWord 0x2D h (encodeM f))
  | .sptest h f => some (joinWord 0x2E h (encodeA f))
  | .spcast h f => some (joinWord 0x2F h (encodeA f))
  | .and_ h f => some (joinWord 0x30 h (encodeA f))
  | .or_ h f => some (joinWord 0x31 h (encodeA f))
  | .xor_ h f => some (joinWord 0x32 h (encodeA f))
  | .btab h f => some (joinWord 0x33 h (encodeA f))
  | .shl h f => some (joinWord 0x34 h (encodeA f))
  | .shr h f => some (joinWord 0x35 h (encodeA f))
  | .sar h f => some (joinWord 0x36 h (encodeA f))
  | .rot h f => some (joinWord 0x37 h (encodeA f))
  | .funnel h f => some (joinWord 0x38 h (encodeA f))
  | .popc h f => some (joinWord 0x39 h (encodeA f))
  | .clz h f => some (joinWord 0x3A h (encodeA f))
  | .brev h f => some (joinWord 0x3B h (encodeA f))
  | .bfx h f => some (joinWord 0x3C h (encodeA f))
  | .bfi h f => some (joinWord 0x3D h (encodeA f))
  | .icmp h f => some (joinWord 0x3E h (encodeA f))
  | .sel h f => some (joinWord 0x3F h (encodeA f))
  | .fadd h f => some (joinWord 0x40 h (encodeA f))
  | .fsub h f => some (joinWord 0x41 h (encodeA f))
  | .fmul h f => some (joinWord 0x42 h (encodeA f))
  | .ffma h f => some (joinWord 0x43 h (encodeA f))
  | .fmin h f => some (joinWord 0x44 h (encodeA f))
  | .fmax h f => some (joinWord 0x45 h (encodeA f))
  | .fcmp h f => some (joinWord 0x46 h (encodeA f))
  | .fclass h f => some (joinWord 0x47 h (encodeA f))
  | .frnd h f => some (joinWord 0x48 h (encodeA f))
  | .ffrc h f => some (joinWord 0x49 h (encodeA f))
  | .fscale h f => some (joinWord 0x4A h (encodeA f))
  | .fdiv h f => some (joinWord 0x4B h (encodeA f))
  | .fsqrt h f => some (joinWord 0x4C h (encodeA f))
  | .fdot2 h f => some (joinWord 0x4D h (encodeA f))
  | .fmed3 h f => some (joinWord 0x4E h (encodeA f))
  | .fsgn h f => some (joinWord 0x4F h (encodeA f))
  | .hadd2 h f => some (joinWord 0x50 h (encodeA f))
  | .hmul2 h f => some (joinWord 0x51 h (encodeA f))
  | .hfma2 h f => some (joinWord 0x52 h (encodeA f))
  | .hmin2 h f => some (joinWord 0x53 h (encodeA f))
  | .hmax2 h f => some (joinWord 0x54 h (encodeA f))
  | .hcmp2 h f => some (joinWord 0x55 h (encodeA f))
  | .hdot2 h f => some (joinWord 0x56 h (encodeA f))
  | .cadd h f => some (joinWord 0x57 h (encodeA f))
  | .cmul h f => some (joinWord 0x58 h (encodeA f))
  | .cmad h f => some (joinWord 0x59 h (encodeA f))
  | .cmulc h f => some (joinWord 0x5A h (encodeA f))
  | .cabs2 h f => some (joinWord 0x5B h (encodeA f))
  | .cexpi h f => some (joinWord 0x5C h (encodeA f))
  | .cscale h f => some (joinWord 0x5D h (encodeA f))
  | .crot h f => some (joinWord 0x5E h (encodeA f))
  | .cmag h f => some (joinWord 0x5F h (encodeA f))
  | .rcp h f => some (joinWord 0x60 h (encodeA f))
  | .rsq h f => some (joinWord 0x61 h (encodeA f))
  | .ex2 h f => some (joinWord 0x62 h (encodeA f))
  | .lg2 h f => some (joinWord 0x63 h (encodeA f))
  | .sint h f => some (joinWord 0x64 h (encodeA f))
  | .cost h f => some (joinWord 0x65 h (encodeA f))
  | .tanh h f => some (joinWord 0x66 h (encodeA f))
  | .sigm h f => some (joinWord 0x67 h (encodeA f))
  | .cvt h f => some (joinWord 0x68 h (encodeA f))
  | .cvpk2 h f => some (joinWord 0x69 h (encodeA f))
  | .cvpk4 h f => some (joinWord 0x6A h (encodeA f))
  | .unpk h f => some (joinWord 0x6B h (encodeA f))
  | .pk6 h f => some (joinWord 0x6C h (encodeA f))
  | .upk6 h f => some (joinWord 0x6D h (encodeA f))
  | .pki4 h f => some (joinWord 0x6E h (encodeA f))
  | .qscl h f => some (joinWord 0x6F h (encodeA f))
  | .pull h f => some (joinWord 0x70 h (encodeA f))
  | .pullt h f => some (joinWord 0x71 h (encodeA f))
  | .bcst h f => some (joinWord 0x72 h (encodeA f))
  | .poll h f => some (joinWord 0x73 h (encodeA f))
  | .vmask h f => some (joinWord 0x74 h (encodeA f))
  | .lred h f => some (joinWord 0x75 h (encodeA f))
  | .lscan h f => some (joinWord 0x76 h (encodeA f))
  | .peers h f => some (joinWord 0x77 h (encodeA f))
  | .reord h f => some (joinWord 0x78 h (encodeA f))
  | .perm h f => some (joinWord 0x79 h (encodeA f))
  | .mov h f => some (joinWord 0x7A h (encodeA f))
  | .movs h f => some (joinWord 0x7B h (encodeA f))
  | .ccset h f => some (joinWord 0x7C h (encodeA f))
  | .ccmov h f => some (joinWord 0x7D h (encodeA f))
  | .cclog h f => some (joinWord 0x7E h (encodeA f))
  | .first h f => some (joinWord 0x7F h (encodeA f))
  | .dmov h f => some (joinWord 0x80 h (encodeA f))
  | .dfromv h f => some (joinWord 0x81 h (encodeA f))
  | .dtov h f => some (joinWord 0x82 h (encodeA f))
  | .ddot h f => some (joinWord 0x83 h (encodeA f))
  | .dcross h f => some (joinWord 0x84 h (encodeA f))
  | .drefl h f => some (joinWord 0x85 h (encodeA f))
  | .drefr h f => some (joinWord 0x86 h (encodeA f))
  | .dscl h f => some (joinWord 0x87 h (encodeA f))
  | .dnorm h f => some (joinWord 0x88 h (encodeA f))
  | .dsetn h f => some (joinWord 0x89 h (encodeA f))
  | .dslerp h f => some (joinWord 0x8A h (encodeA f))
  | .dcmp h f => some (joinWord 0x8B h (encodeA f))
  | .dneg h f => some (joinWord 0x8C h (encodeA f))
  | .dadd h f => some (joinWord 0x8D h (encodeA f))
  | .dproj h f => some (joinWord 0x8E h (encodeA f))
  | .dframe h f => some (joinWord 0x8F h (encodeA f))
  | .ld h f => some (joinWord 0x90 h (encodeM f))
  | .st h f => some (joinWord 0x91 h (encodeM f))
  | .ldt h f => some (joinWord 0x92 h (encodeM f))
  | .stt h f => some (joinWord 0x93 h (encodeM f))
  | .ldp h f => some (joinWord 0x94 h (encodeM f))
  | .stp h f => some (joinWord 0x95 h (encodeM f))
  | .lds h f => some (joinWord 0x96 h (encodeM f))
  | .sts h f => some (joinWord 0x97 h (encodeM f))
  | .ldc h f => some (joinWord 0x98 h (encodeM f))
  | .ldpl h f => some (joinWord 0x99 h (encodeM f))
  | .stpl h f => some (joinWord 0x9A h (encodeM f))
  | .pref h f => some (joinWord 0x9B h (encodeM f))
  | .ldgn h f => some (joinWord 0x9C h (encodeM f))
  | .stgn h f => some (joinWord 0x9D h (encodeM f))
  | .cctl h f => some (joinWord 0x9E h (encodeM f))
  | .stashMap h f => some (joinWord 0x9F h (encodeE f))
  | .stashUnmap h f => some (joinWord 0x9F h (encodeE f))
  | .aadd h f => some (joinWord 0xA0 h (encodeM f))
  | .amin h f => some (joinWord 0xA1 h (encodeM f))
  | .amax h f => some (joinWord 0xA2 h (encodeM f))
  | .aand h f => some (joinWord 0xA3 h (encodeM f))
  | .aor h f => some (joinWord 0xA4 h (encodeM f))
  | .axor h f => some (joinWord 0xA5 h (encodeM f))
  | .axchg h f => some (joinWord 0xA6 h (encodeM f))
  | .acas h f => some (joinWord 0xA7 h (encodeM f))
  | .afadd h f => some (joinWord 0xA8 h (encodeM f))
  | .ainc h f => some (joinWord 0xA9 h (encodeM f))
  | .adec h f => some (joinWord 0xAA h (encodeM f))
  | .radd h f => some (joinWord 0xAB h (encodeM f))
  | .rmin h f => some (joinWord 0xAC h (encodeM f))
  | .rmax h f => some (joinWord 0xAD h (encodeM f))
  | .rfadd h f => some (joinWord 0xAE h (encodeM f))
  | .acas2 h f => some (joinWord 0xAF h (encodeM f))
  | .fence h f => some (joinWord 0xB0 h (encodeM f))
  | .arv h f => some (joinWord 0xB1 h (encodeI f))
  | .arvx h f => some (joinWord 0xB2 h (encodeI f))
  | .waitp h f => some (joinWord 0xB3 h (encodeI f))
  | .waitc h f => some (joinWord 0xB4 h (encodeI f))
  | .binit h f => some (joinWord 0xB5 h (encodeI f))
  | .bqry h f => some (joinWord 0xB6 h (encodeI f))
  | .rput h f => some (joinWord 0xB7 h (encodeA f))
  | .rget h f => some (joinWord 0xB8 h (encodeA f))
  | .rrel h f => some (joinWord 0xB9 h (encodeA f))
  | .rdv h f => some (joinWord 0xBA h (encodeA f))
  | .mswin h f => some (joinWord 0xBB h (encodeI f))
  | .mslot h f => some (joinWord 0xBC h (encodeA f))
  | .speed h f => some (joinWord 0xBD h (encodeI f))
  | .evrec h f => some (joinWord 0xBE h (encodeI f))
  | .signal h f => some (joinWord 0xBF h (encodeI f))
  | .cpy h f => some (joinWord 0xC0 h (encodeE f))
  | .cpy2d h f => some (joinWord 0xC1 h (encodeE f))
  | .cpyt h f => some (joinWord 0xC2 h (encodeE f))
  | .gath h f => some (joinWord 0xC3 h (encodeE f))
  | .scat h f => some (joinWord 0xC4 h (encodeE f))
  | .stsp h f => some (joinWord 0xC5 h (encodeE f))
  | .ldsp h f => some (joinWord 0xC6 h (encodeE f))
  | .cpypl h f => some (joinWord 0xC7 h (encodeE f))
  | .coll h f => some (joinWord 0xC8 h (encodeE f))
  | .rdma h f => some (joinWord 0xC9 h (encodeE f))
  | .nsend h f => some (joinWord 0xCA h (encodeE f))
  | .nrecv h f => some (joinWord 0xCB h (encodeE f))
  | .cfill h f => some (joinWord 0xCC h (encodeE f))
  | .cinv h f => some (joinWord 0xCD h (encodeE f))
  | .cstat h f => some (joinWord 0xCE h (encodeE f))
  | .cabort h f => some (joinWord 0xCF h (encodeE f))
  | .mma h f => some (joinWord 0xD0 h (encodeX f))
  | .mmap h f => some (joinWord 0xD1 h (encodeX f))
  | .mmat h f => some (joinWord 0xD2 h (encodeX f))
  | .mmapt h f => some (joinWord 0xD3 h (encodeX f))
  | .acz h f => some (joinWord 0xD4 h (encodeX f))
  | .acld h f => some (joinWord 0xD5 h (encodeX f))
  | .acst h f => some (joinWord 0xD6 h (encodeX f))
  | .acmv h f => some (joinWord 0xD7 h (encodeX f))
  | .net h f => some (joinWord 0xD8 h (encodeX f))
  | .netr h f => some (joinWord 0xD9 h (encodeX f))
  | .plcv h f => some (joinWord 0xDA h (encodeE f))
  | .plq h f => some (joinWord 0xDB h (encodeX f))
  | .mscl h f => some (joinWord 0xDC h (encodeX f))
  | .msoft h f => some (joinWord 0xDD h (encodeX f))
  | .mpairBind h f => some (joinWord 0xDE h (encodeI f))
  | .mpairRel h f => some (joinWord 0xDE h (encodeI f))
  | .mepi h f => some (joinWord 0xDF h (encodeX f))
  | .emit h f => some (joinWord 0xE0 h (encodeA f))
  | .emitv h f => some (joinWord 0xE1 h (encodeA f))
  | .blend h f => some (joinWord 0xE2 h (encodeA f))
  | .ztest h f => some (joinWord 0xE3 h (encodeA f))
  | .tres h f => some (joinWord 0xE4 h (encodeA f))
  | .splat h f => some (joinWord 0xE5 h (encodeE f))
  | .splatc h f => some (joinWord 0xE6 h (encodeE f))
  | .trace h f => some (joinWord 0xE7 h (encodeA f))
  | .spawn h f => some (joinWord 0xE8 h (encodeA f))
  | .hit h f => some (joinWord 0xE9 h (encodeA f))
  | .rqry h f => some (joinWord 0xEA h (encodeA f))
  | .bldfOpen h f => some (joinWord 0xEB h (encodeE f))
  | .bldfAdd h f => some (joinWord 0xEB h (encodeE f))
  | .bldc h f => some (joinWord 0xEC h (encodeE f))
  | .tlck h f => some (joinWord 0xED h (encodeE f))
  | .tlrst h f => some (joinWord 0xEE h (encodeE f))
  | .drawx h f => some (joinWord 0xEF h (encodeE f))
  | .rdsr h f => some (joinWord 0xF0 h (encodeI f))
  | .wrsr h f => some (joinWord 0xF1 h (encodeI f))
  | .save h f => some (joinWord 0xF2 h (encodeI f))
  | .rest h f => some (joinWord 0xF3 h (encodeI f))
  | .ctxsw h f => some (joinWord 0xF4 h (encodeI f))
  | .tlbi h f => some (joinWord 0xF5 h (encodeI f))
  | .cflush h f => some (joinWord 0xF6 h (encodeI f))
  | .wake h f => some (joinWord 0xF7 h (encodeI f))
  | .dieq h f => some (joinWord 0xF8 h (encodeI f))
  | .logr h f => some (joinWord 0xF9 h (encodeI f))
  | .perf h f => some (joinWord 0xFA h (encodeI f))
  | .bud h f => some (joinWord 0xFB h (encodeI f))
  | .halt h f => some (joinWord 0xFC h (encodeI f))
  | .dbg h f => some (joinWord 0xFD h (encodeI f))
  | .brks h f => some (joinWord 0xFE h (encodeI f))
  | .ill h f => some (joinWord 0xFF h (encodeI f))
  | .entryTranslationFault _ => none
  | .hostAbort _ _ => none
  | .storeQueueDrain _ => none
  | .lineEviction _ _ => none

end Sys2Proof
end

