-- ==== Sys2Proof/Machine/Flags.lean ====
section
/-!
DEFINITION. Flag computations of the integer instructions and delivery of exact results (R372, R373, R386, R392).
-/

namespace Sys2Proof.Machine

/-- The least and the largest value of a type (R369, R373). -/
def tyRange (ty : Nat) : Int × Int :=
  if ty == 1 then (0, 2 ^ 32 - 1) else if ty == 2 then (-(2 ^ 63), 2 ^ 63 - 1) else (-(2 ^ 31), 2 ^ 31 - 1)

/-- `x` lies outside the range. -/
def outside (r : Int × Int) (x : Int) : Bool := decide (x < r.1) || decide (r.2 < x)

/-- The value of sat(x, lo, hi). -/
def clamp (r : Int × Int) (x : Int) : Int := if x < r.1 then r.1 else if r.2 < x then r.2 else x

/-- The pattern written for an exact result: saturated, or modulo 2^w (R373). -/
def deliver (w : Nat) (r : Int × Int) (sat : Bool) (x : Int) : Nat := wrap w (if sat then clamp r x else x)

/-- Flags S and Z of a pattern, with C and V given (R372). -/
def flagsSZ (w x : Nat) (fc fv : Bool) : BitVec 4 := mkFlags (tb x (w - 1)) (x == 0) fc fv

/-- Flags of a logical result: C and V are 0 (R372). -/
def flagsLogic (w x : Nat) : BitVec 4 := flagsSZ w x false false

/-- Flags of an exact arithmetic result: V when it lies outside the range, C is 0 (R372). -/
def flagsExact (w : Nat) (r : Int × Int) (x : Int) (res : Nat) : BitVec 4 := flagsSZ w res false (outside r x)

/-- Carry out of a width-bit sum with a carry in. -/
def carryAdd (w a b cin : Nat) : Bool := decide (2 ^ w ≤ a + b + cin)

/-- Signed overflow of a width-bit sum with a carry in. -/
def overAdd (w a b cin : Nat) : Bool :=
  outside (-((2 : Int) ^ (w - 1)), (2 : Int) ^ (w - 1) - 1) (sext w a + sext w b + cin)

/-- No borrow of a width-bit difference with a borrow in. -/
def carrySub (a b bin : Nat) : Bool := decide (b + bin ≤ a)

/-- Signed overflow of a width-bit difference with a borrow in. -/
def overSub (w a b bin : Nat) : Bool :=
  outside (-((2 : Int) ^ (w - 1)), (2 : Int) ^ (w - 1) - 1) (sext w a - sext w b - bin)

/-- Flags of IADD on patterns, the result given (R372). -/
def flagsAdd (w a b res : Nat) : BitVec 4 := flagsSZ w res (carryAdd w a b 0) (overAdd w a b 0)

/-- Flags of ISUB on patterns, the result given (R372). -/
def flagsSub (w a b res : Nat) : BitVec 4 := flagsSZ w res (carrySub a b 0) (overSub w a b 0)

/-- Flags of IADDC: the carry in counts, and Z chains through the carry register (R372, R386). -/
def flagsAddc (w a b res : Nat) (k : BitVec 4) : BitVec 4 :=
  mkFlags (tb res (w - 1)) (res == 0 && flagZ k) (carryAdd w a b (b2n (flagC k))) (overAdd w a b (b2n (flagC k)))

/-- Flags of ISUBB: the borrow in counts, and Z chains through the carry register (R372, R386). -/
def flagsSubb (w a b res : Nat) (k : BitVec 4) : BitVec 4 :=
  let bin := 1 - b2n (flagC k)
  mkFlags (tb res (w - 1)) (res == 0 && flagZ k) (carrySub a b bin) (overSub w a b bin)

/-- Flags of a shift with the last bit shifted out (R372, R392). -/
def flagsShift (w res : Nat) (out : Bool) : BitVec 4 := flagsSZ w res out false

end Sys2Proof.Machine
end

