-- ==== Sys2Proof/Machine/Integer.lean ====
section
/-!
DEFINITION. Rows 0x1 and 0x3 of the opcode map: integer arithmetic, logic, shifts and bit fields
(R369 to R373, R384 to R387, R392 to R394).
-/

namespace Sys2Proof.Machine

/-- Integer FN: a type of 0 to 2 and no bit outside `mask` (R369, R373). -/
def intFn (mask : Nat) (fn : BitVec 30) : Bool := fn.toNat % 4 != 3 && fn.toNat &&& mask == fn.toNat

/-- SAT: FN[2] (R373). -/
def satOf (fn : BitVec 30) : Bool := fn.getLsbD 2

/-- Registers of an operand of a type. -/
def tyRegs (fn : BitVec 30) : Nat := if tyOf fn.toNat == 2 then 2 else 1

/-- An arithmetic instruction of exact result `x`: the result delivered under R373 and the flags of `fl`, which
takes the patterns of SA and SB and the result. -/
def intArith (f : FmtA) (u : Ux) (s : State) (x : Int → Int → Int → Int)
    (fl : Nat → Nat → Nat → Int → BitVec 4) : Res :=
  let ty := tyOf f.fn.toNat
  let w := widthOf ty
  let r := tyRange ty
  .ok { st := writeLanes s u f.dst w f.cw fun p =>
    let e := x (rdInt s u ty f.sa.reg p) (rdInt s u ty f.sb.reg p) (rdInt s u ty f.sc.reg p)
    let res := deliver w r (satOf f.fn) e
    (res, fl (rdPat s u w f.sa.reg p) (rdPat s u w f.sb.reg p) res e) }

/-- The flags of an exact result of the instruction's type. -/
def exactFlags (f : FmtA) (_ _ res : Nat) (e : Int) : BitVec 4 :=
  let ty := tyOf f.fn.toNat
  flagsExact (widthOf ty) (tyRange ty) e res

/-- IADD: two data sources, SAT, a condition result. -/
def shapeIadd (f : FmtA) : Shape := shapeA f (tyRegs f.fn) (some (tyRegs f.fn)) (some (tyRegs f.fn)) none true (intFn 7 f.fn)

/-- IADD (R384, R372). -/
def execIadd (h : Hdr) (f : FmtA) (s : State) : Host.Outcome State Fault Refusal :=
  issue h (shapeIadd f) s fun u s => intArith f u s (fun a b _ => a + b) (fun a b res _ => flagsAdd (widthOf (tyOf f.fn.toNat)) a b res)

/-- ISUB: two data sources, SAT, a condition result. -/
def shapeIsub (f : FmtA) : Shape := shapeA f (tyRegs f.fn) (some (tyRegs f.fn)) (some (tyRegs f.fn)) none true (intFn 7 f.fn)

/-- ISUB (R384, R372). -/
def execIsub (h : Hdr) (f : FmtA) (s : State) : Host.Outcome State Fault Refusal :=
  issue h (shapeIsub f) s fun u s => intArith f u s (fun a b _ => a - b) (fun a b res _ => flagsSub (widthOf (tyOf f.fn.toNat)) a b res)

/-- IMUL: two data sources, SAT, a condition result. -/
def shapeImul (f : FmtA) : Shape := shapeA f (tyRegs f.fn) (some (tyRegs f.fn)) (some (tyRegs f.fn)) none true (intFn 7 f.fn)

/-- IMUL (R384, R372). -/
def execImul (h : Hdr) (f : FmtA) (s : State) : Host.Outcome State Fault Refusal :=
  issue h (shapeImul f) s fun u s => intArith f u s (fun a b _ => a * b) (exactFlags f)

/-- IMULH: no SAT and no condition result. -/
def shapeImulh (f : FmtA) : Shape := shapeA f (tyRegs f.fn) (some (tyRegs f.fn)) (some (tyRegs f.fn)) none false (intFn 3 f.fn)

/-- IMULH: the high half of the exact product (R384). -/
def execImulh (h : Hdr) (f : FmtA) (s : State) : Host.Outcome State Fault Refusal :=
  issue h (shapeImulh f) s fun u s => 
    let ty := tyOf f.fn.toNat
    let w := widthOf ty
    .ok { st := writeLanes s u f.dst w f.cw fun p =>
      (wrap w (rdInt s u ty f.sa.reg p * rdInt s u ty f.sb.reg p / (2 : Int) ^ w), 0) }

/-- IMAD: three data sources, SAT, a condition result. -/
def shapeImad (f : FmtA) : Shape := shapeA f (tyRegs f.fn) (some (tyRegs f.fn)) (some (tyRegs f.fn)) (some (tyRegs f.fn)) true (intFn 7 f.fn)

/-- IMAD (R384, R372). -/
def execImad (h : Hdr) (f : FmtA) (s : State) : Host.Outcome State Fault Refusal :=
  issue h (shapeImad f) s fun u s => intArith f u s (fun a b c => a * b + c) (exactFlags f)

/-- IMADW: SA and SB are single registers, DST and SC pairs; TY 0 or 1 (R384). -/
def shapeImadw (f : FmtA) : Shape :=
  shapeA f 2 (some 1) (some 1) (some 2) true (f.fn.toNat % 4 < 2 && f.fn.toNat < 8)

/-- IMADW: the exact 32-bit product plus a 64-bit addend (R384, R372, R373). -/
def execImadw (h : Hdr) (f : FmtA) (s : State) : Host.Outcome State Fault Refusal :=
  issue h (shapeImadw f) s fun u s =>
    let ty := tyOf f.fn.toNat
    let r : Int × Int := if ty == 1 then (0, 2 ^ 64 - 1) else (-(2 ^ 63), 2 ^ 63 - 1)
    .ok { st := writeLanes s u f.dst 64 f.cw fun p =>
      let c : Int := if ty == 1 then ((rd64 s u f.sc.reg p).toNat : Int) else (rd64 s u f.sc.reg p).toInt
      let e := rdInt s u ty f.sa.reg p * rdInt s u ty f.sb.reg p + c
      let res := deliver 64 r (satOf f.fn) e
      (res, flagsExact 64 r e res) }

/-- The quotient of IDIV where the division is defined, or under Q (R385). -/
def idivOf (ty : Nat) (a b : Int) : Int :=
  if b = 0 then (if ty == 1 then 2 ^ 32 - 1 else if a < 0 then -1 else (tyRange ty).2)
  else if signedTy ty && a == (tyRange ty).1 && b == -1 then a
  else Int.tdiv a b

/-- The remainder of IREM where the division is defined, or under Q (R385). -/
def iremOf (ty : Nat) (a b : Int) : Int :=
  if b = 0 then a
  else if signedTy ty && a == (tyRange ty).1 && b == -1 then 0
  else Int.tmod a b

/-- The fault of a division in a lane with Q clear: 2.2 by zero, 2.3 overflow (R385). -/
def divFault (s : State) (u : Ux) (f : FmtA) (p : Pos) : Option Nat :=
  let ty := tyOf f.fn.toNat
  let a := rdInt s u ty f.sa.reg p
  let b := rdInt s u ty f.sb.reg p
  if f.fn.getLsbD 3 then none
  else if b = 0 then some (2 * 32 + 2)
  else if signedTy ty && a == (tyRange ty).1 && b == -1 then some (2 * 32 + 3)
  else none

/-- A division: the lowest faulting lane decides, else the results are produced (R200, R385). -/
def divide (f : FmtA) (u : Ux) (s : State) (q : Nat → Int → Int → Int) : Res :=
  let ty := tyOf f.fn.toNat
  match firstSome ((workLanes u (isScalar f.dst)).map (divFault s u f)) with
  | some c => trapOf c
  | none => .ok (produceLanes s u f.dst (widthOf ty) fun p =>
      wrap (widthOf ty) (q ty (rdInt s u ty f.sa.reg p) (rdInt s u ty f.sb.reg p)))

/-- IDIV: two data sources, FN[3] Q, no condition result. -/
def shapeIdiv (f : FmtA) : Shape := shapeA f (tyRegs f.fn) (some (tyRegs f.fn)) (some (tyRegs f.fn)) none false (intFn 11 f.fn)

/-- IDIV: long latency (R385). -/
def execIdiv (h : Hdr) (f : FmtA) (s : State) : Host.Outcome State Fault Refusal :=
  issue h (shapeIdiv f) s fun u s => divide f u s idivOf

/-- IREM: two data sources, FN[3] Q, no condition result. -/
def shapeIrem (f : FmtA) : Shape := shapeA f (tyRegs f.fn) (some (tyRegs f.fn)) (some (tyRegs f.fn)) none false (intFn 11 f.fn)

/-- IREM: long latency (R385). -/
def execIrem (h : Hdr) (f : FmtA) (s : State) : Host.Outcome State Fault Refusal :=
  issue h (shapeIrem f) s fun u s => divide f u s iremOf

/-- IMIN: two data sources, a condition result. -/
def shapeImin (f : FmtA) : Shape := shapeA f (tyRegs f.fn) (some (tyRegs f.fn)) (some (tyRegs f.fn)) none true (intFn 3 f.fn)

/-- IMIN (R384). -/
def execImin (h : Hdr) (f : FmtA) (s : State) : Host.Outcome State Fault Refusal :=
  issue h (shapeImin f) s fun u s => intArith f u s (fun a b _ => min a b) (fun _ _ res _ => flagsLogic (widthOf (tyOf f.fn.toNat)) res)

/-- IMAX: two data sources, a condition result. -/
def shapeImax (f : FmtA) : Shape := shapeA f (tyRegs f.fn) (some (tyRegs f.fn)) (some (tyRegs f.fn)) none true (intFn 3 f.fn)

/-- IMAX (R384). -/
def execImax (h : Hdr) (f : FmtA) (s : State) : Host.Outcome State Fault Refusal :=
  issue h (shapeImax f) s fun u s => intArith f u s (fun a b _ => max a b) (fun _ _ res _ => flagsLogic (widthOf (tyOf f.fn.toNat)) res)

/-- IABS: one data source, SAT, a condition result. -/
def shapeIabs (f : FmtA) : Shape := shapeA f (tyRegs f.fn) (some (tyRegs f.fn)) none none true (intFn 7 f.fn)

/-- IABS (R384). -/
def execIabs (h : Hdr) (f : FmtA) (s : State) : Host.Outcome State Fault Refusal :=
  issue h (shapeIabs f) s fun u s => intArith f u s (fun a _ _ => if a < 0 then -a else a) (exactFlags f)

/-- INEG: one data source, SAT, a condition result. -/
def shapeIneg (f : FmtA) : Shape := shapeA f (tyRegs f.fn) (some (tyRegs f.fn)) none none true (intFn 7 f.fn)

/-- INEG (R384). -/
def execIneg (h : Hdr) (f : FmtA) (s : State) : Host.Outcome State Fault Refusal :=
  issue h (shapeIneg f) s fun u s => intArith f u s (fun a _ _ => -a) (exactFlags f)

/-- SC of IADDC, ISUBB names c0 to c3 (R386). -/
def carryChk (x : Src) : Option Nat := need 12 (({ c := true } : Acc).takes x.reg)

/-- IADDC and ISUBB: two data sources and the carry register. -/
def shapeCarry (f : FmtA) : Shape :=
  let n := tyRegs f.fn
  let once := isScalar f.dst
  { enc := [dstChk (dstAcc n) f.dst, none, optSrc 10 (some n) once f.sa, optSrc 11 (some n) once f.sb,
      carryChk f.sc, need 8 (intFn 7 f.fn)]
    srcs := [useOf f.sa n, useOf f.sb n, useOf f.sc 1]
    dsts := [{ o := f.dst, n := n }]
    once := once }

/-- The carry register of a lane. For an instruction that executes once for the unit it is that of the active
lanes where they agree, else a free value: no rule states which lane's carry a scalar sum takes (log 22). -/
def carryOf (s : State) (u : Ux) (once : Bool) (o : Opnd) (p : Pos) : BitVec 4 :=
  let at_ (q : Pos) : BitVec 4 := match o with
    | .c n => (s.g q.gid).creg n q.lane
    | _ => 0
  if !once then at_ p
  else if u.active.all fun q => at_ q == at_ p then at_ p
  else (Config.freeWord s.free).truncate 4

/-- A chained sum or difference (R386). -/
def chained (f : FmtA) (u : Ux) (s : State) (x : Int → Int → Int → Int)
    (fl : Nat → Nat → Nat → Nat → BitVec 4 → BitVec 4) : Res :=
  let ty := tyOf f.fn.toNat
  let w := widthOf ty
  .ok { st := { (writeLanes s u f.dst w f.cw fun p =>
    let k := carryOf s u (isScalar f.dst) f.sc.reg p
    let res := deliver w (tyRange ty) (satOf f.fn)
      (x (rdInt s u ty f.sa.reg p) (rdInt s u ty f.sb.reg p) (b2n (flagC k)))
    (res, fl w (rdPat s u w f.sa.reg p) (rdPat s u w f.sb.reg p) res k)) with free := s.free + 1 } }

/-- IADDC. -/
def shapeIaddc (f : FmtA) : Shape := shapeCarry f

/-- IADDC: a + b + C (R386). -/
def execIaddc (h : Hdr) (f : FmtA) (s : State) : Host.Outcome State Fault Refusal :=
  issue h (shapeIaddc f) s fun u s => chained f u s (fun a b c => a + b + c) flagsAddc

/-- ISUBB. -/
def shapeIsubb (f : FmtA) : Shape := shapeCarry f

/-- ISUBB: a - b - (1 - C) (R386). -/
def execIsubb (h : Hdr) (f : FmtA) (s : State) : Host.Outcome State Fault Refusal :=
  issue h (shapeIsubb f) s fun u s => chained f u s (fun a b c => a - b - (1 - c)) flagsSubb

/-- ISAD: three data sources. -/
def shapeIsad (f : FmtA) : Shape :=
  shapeA f (tyRegs f.fn) (some (tyRegs f.fn)) (some (tyRegs f.fn)) (some (tyRegs f.fn)) true (intFn 7 f.fn)

/-- ISAD: |a - b| + c (R384). -/
def execIsad (h : Hdr) (f : FmtA) (s : State) : Host.Outcome State Fault Refusal :=
  issue h (shapeIsad f) s fun u s =>
    intArith f u s (fun a b c => (if a < b then b - a else a - b) + c) (exactFlags f)

/-- IDOT4: TY 0, SAT, SA in FN[3], SB in FN[4] (R387). -/
def shapeIdot4 (f : FmtA) : Shape :=
  shapeA f 1 (some 1) (some 1) (some 1) true (f.fn.toNat &&& 0x1C == f.fn.toNat)

/-- Byte i of a word, signed or not (R387). -/
def byteInt (signed : Bool) (x i : Nat) : Int :=
  let b := x / 256 ^ i % 256
  if signed then sext 8 b else (b : Int)

/-- IDOT4: c plus the sum of four byte products (R387). -/
def execIdot4 (h : Hdr) (f : FmtA) (s : State) : Host.Outcome State Fault Refusal :=
  issue h (shapeIdot4 f) s fun u s =>
    .ok { st := writeLanes s u f.dst 32 f.cw fun p =>
      let a := (rd s u f.sa.reg p).toNat
      let b := (rd s u f.sb.reg p).toNat
      let e := rdInt s u 0 f.sc.reg p + ((List.range 4).map fun i =>
        byteInt (f.fn.getLsbD 3) a i * byteInt (f.fn.getLsbD 4) b i).foldl (· + ·) 0
      let res := deliver 32 (tyRange 0) (satOf f.fn) e
      (res, flagsExact 32 (tyRange 0) e res) }

/-! ### Logic (R392) -/

/-- A bitwise instruction on patterns, with the flags of a logical result (R372, R392). -/
def logic (f : FmtA) (u : Ux) (s : State) (x : Nat → Nat → Nat → Nat → Nat) : Res :=
  let w := widthOf (tyOf f.fn.toNat)
  .ok { st := writeLanes s u f.dst w f.cw fun p =>
    let res := x w (rdPat s u w f.sa.reg p) (rdPat s u w f.sb.reg p) (rdPat s u w f.sc.reg p) % 2 ^ w
    (res, flagsLogic w res) }

/-- AND: two data sources. -/
def shapeAnd (f : FmtA) : Shape := shapeA f (tyRegs f.fn) (some (tyRegs f.fn)) (some (tyRegs f.fn)) none true (intFn 3 f.fn)

/-- AND (R392). -/
def execAnd (h : Hdr) (f : FmtA) (s : State) : Host.Outcome State Fault Refusal :=
  issue h (shapeAnd f) s fun u s => logic f u s fun _ a b _ => a &&& b

/-- OR: two data sources. -/
def shapeOr (f : FmtA) : Shape := shapeA f (tyRegs f.fn) (some (tyRegs f.fn)) (some (tyRegs f.fn)) none true (intFn 3 f.fn)

/-- OR (R392). -/
def execOr (h : Hdr) (f : FmtA) (s : State) : Host.Outcome State Fault Refusal :=
  issue h (shapeOr f) s fun u s => logic f u s fun _ a b _ => a ||| b

/-- XOR: two data sources. -/
def shapeXor (f : FmtA) : Shape := shapeA f (tyRegs f.fn) (some (tyRegs f.fn)) (some (tyRegs f.fn)) none true (intFn 3 f.fn)

/-- XOR (R392). -/
def execXor (h : Hdr) (f : FmtA) (s : State) : Host.Outcome State Fault Refusal :=
  issue h (shapeXor f) s fun u s => logic f u s fun _ a b _ => a ^^^ b

/-- BTAB: three data sources, the table in FN[9:2] (R392). -/
def shapeBtab (f : FmtA) : Shape :=
  shapeA f (tyRegs f.fn) (some (tyRegs f.fn)) (some (tyRegs f.fn)) (some (tyRegs f.fn)) true (intFn 0x3FF f.fn)

/-- The number whose bit i, below w, is `g i`. -/
def ofBits (w : Nat) (g : Nat → Bool) : Nat := (List.range w).foldl (fun a i => a + b2n (g i) * 2 ^ i) 0

/-- BTAB: bit i is TAB[a[i] + 2 b[i] + 4 c[i]] (R392). -/
def execBtab (h : Hdr) (f : FmtA) (s : State) : Host.Outcome State Fault Refusal :=
  issue h (shapeBtab f) s fun u s =>
    logic f u s fun w a b c => ofBits w fun i =>
      tb (f.fn.toNat / 4) (b2n (tb a i) + 2 * b2n (tb b i) + 4 * b2n (tb c i))

/-! ### Shifts (R392): the count is a 32-bit register at every type -/

/-- A left shift: the result and the last bit shifted out (R392). -/
def shiftLeft (w a n : Nat) : Nat × Bool :=
  (if n < w then a * 2 ^ n % 2 ^ w else 0, if n = 0 || w < n then false else tb a (w - n))

/-- A right shift with zero fill. -/
def shiftRight (w a n : Nat) : Nat × Bool :=
  (if n < w then a / 2 ^ n else 0, if n = 0 || w < n then false else tb a (n - 1))

/-- A right shift with sign fill. -/
def shiftArith (w a n : Nat) : Nat × Bool :=
  (wrap w (sext w a / (2 : Int) ^ (if n < w then n else w)),
   if n = 0 then false else if w < n then tb a (w - 1) else tb a (n - 1))

/-- A rotation to the left, with its C flag: bit 0 of the result where b[7:0] is not 0. R392 does not say whether the count of the flag
is b[7:0] or b[7:0] mod w, where the former is a multiple of w (R392; DESIGN CHOICE, log 167). -/
def rotate (w a n : Nat) : Nat × Bool :=
  let k := n % w
  let res := a * 2 ^ k % 2 ^ w + a / 2 ^ (w - k)
  let out := if k = 0 then a else res
  (out, n != 0 && tb out 0)

/-- A shift instruction with its count in SB (R392). -/
def shiftBy (f : FmtA) (u : Ux) (s : State) (x : Nat → Nat → Nat → Nat × Bool) : Res :=
  let w := widthOf (tyOf f.fn.toNat)
  .ok { st := writeLanes s u f.dst w f.cw fun p =>
    let r := x w (rdPat s u w f.sa.reg p) ((rd s u f.sb.reg p).toNat % 256)
    (r.1, flagsShift w r.1 r.2) }

/-- SHL: a data source and a 32-bit count. -/
def shapeShl (f : FmtA) : Shape := shapeA f (tyRegs f.fn) (some (tyRegs f.fn)) (some 1) none true (intFn 3 f.fn)

/-- SHL (R392). -/
def execShl (h : Hdr) (f : FmtA) (s : State) : Host.Outcome State Fault Refusal :=
  issue h (shapeShl f) s fun u s => shiftBy f u s shiftLeft

/-- SHR: a data source and a 32-bit count. -/
def shapeShr (f : FmtA) : Shape := shapeA f (tyRegs f.fn) (some (tyRegs f.fn)) (some 1) none true (intFn 3 f.fn)

/-- SHR (R392). -/
def execShr (h : Hdr) (f : FmtA) (s : State) : Host.Outcome State Fault Refusal :=
  issue h (shapeShr f) s fun u s => shiftBy f u s shiftRight

/-- SAR: a data source and a 32-bit count. -/
def shapeSar (f : FmtA) : Shape := shapeA f (tyRegs f.fn) (some (tyRegs f.fn)) (some 1) none true (intFn 3 f.fn)

/-- SAR (R392). -/
def execSar (h : Hdr) (f : FmtA) (s : State) : Host.Outcome State Fault Refusal :=
  issue h (shapeSar f) s fun u s => shiftBy f u s shiftArith

/-- ROT: a data source and a 32-bit count. -/
def shapeRot (f : FmtA) : Shape := shapeA f (tyRegs f.fn) (some (tyRegs f.fn)) (some 1) none true (intFn 3 f.fn)

/-- ROT (R392). -/
def execRot (h : Hdr) (f : FmtA) (s : State) : Host.Outcome State Fault Refusal :=
  issue h (shapeRot f) s fun u s => shiftBy f u s rotate

/-- FUNNEL: TY 0 or 1, no condition result (R392). -/
def shapeFunnel (f : FmtA) : Shape := shapeA f 1 (some 1) (some 1) (some 1) false (f.fn.toNat < 2)

/-- FUNNEL: cat(b, a) shifted right by c[5:0], low word (R392). -/
def execFunnel (h : Hdr) (f : FmtA) (s : State) : Host.Outcome State Fault Refusal :=
  issue h (shapeFunnel f) s fun u s =>
    .ok { st := writeLanes s u f.dst 32 f.cw fun p =>
      (((rd s u f.sb.reg p).toNat * 2 ^ 32 + (rd s u f.sa.reg p).toNat) / 2 ^ ((rd s u f.sc.reg p).toNat % 64) %
        2 ^ 32, 0) }

/-- A count of a pattern, delivered as a 32-bit value (R369, R392). -/
def countOf (f : FmtA) (u : Ux) (s : State) (x : Nat → Nat → Nat) : Res :=
  let w := widthOf (tyOf f.fn.toNat)
  .ok { st := writeLanes s u f.dst 32 f.cw fun p =>
    let res := x w (rdPat s u w f.sa.reg p)
    (res, flagsLogic 32 res) }

/-- Leading zero bits of a pattern of w bits. -/
def leadingZeros (w a : Nat) : Nat := if a = 0 then w else w - 1 - Nat.log2 a

/-- POPC: a source of the type, a single destination. -/
def shapePopc (f : FmtA) : Shape := shapeA f 1 (some (tyRegs f.fn)) none none true (intFn 3 f.fn)

/-- POPC (R392). -/
def execPopc (h : Hdr) (f : FmtA) (s : State) : Host.Outcome State Fault Refusal :=
  issue h (shapePopc f) s fun u s => countOf f u s popc

/-- CLZ: a source of the type, a single destination. -/
def shapeClz (f : FmtA) : Shape := shapeA f 1 (some (tyRegs f.fn)) none none true (intFn 3 f.fn)

/-- CLZ (R392). -/
def execClz (h : Hdr) (f : FmtA) (s : State) : Host.Outcome State Fault Refusal :=
  issue h (shapeClz f) s fun u s => countOf f u s leadingZeros

/-- BREV: one data source. -/
def shapeBrev (f : FmtA) : Shape :=
  shapeA f (tyRegs f.fn) (some (tyRegs f.fn)) none none true (intFn 3 f.fn)

/-- BREV: bit i of the result is bit w - 1 - i (R392). -/
def execBrev (h : Hdr) (f : FmtA) (s : State) : Host.Outcome State Fault Refusal :=
  issue h (shapeBrev f) s fun u s => logic f u s fun w a _ _ => ofBits w fun i => tb a (w - 1 - i)

/-! ### Bit fields (R393) -/

/-- BFX of a pattern under a control: start p, end e clipped to the width (R393). -/
def bfxOf (w : Nat) (signed : Bool) (a ctl : Nat) : Nat :=
  let p := ctl % 256
  let m := ctl / 256 % 256
  let e := min (p + m) w
  if m = 0 || w ≤ p then 0
  else
    let x := bits a (e - 1) p
    if signed then wrap w (sext (e - p) x) else x

/-- BFI of a pattern under a control (R393). -/
def bfiOf (w : Nat) (a b ctl : Nat) : Nat :=
  let p := ctl % 256
  let m := ctl / 256 % 256
  let e := min (p + m) w
  if m = 0 || w ≤ p then a
  else a % 2 ^ p + bits b (e - p - 1) 0 * 2 ^ p + a / 2 ^ e * 2 ^ e

/-- BFX: the control in SB is 32 bits wide. -/
def shapeBfx (f : FmtA) : Shape :=
  shapeA f (tyRegs f.fn) (some (tyRegs f.fn)) (some 1) none true (intFn 3 f.fn)

/-- BFX (R393). -/
def execBfx (h : Hdr) (f : FmtA) (s : State) : Host.Outcome State Fault Refusal :=
  issue h (shapeBfx f) s fun u s =>
    let ty := tyOf f.fn.toNat
    let w := widthOf ty
    .ok { st := writeLanes s u f.dst w f.cw fun p =>
      let res := bfxOf w (signedTy ty) (rdPat s u w f.sa.reg p) (rd s u f.sb.reg p).toNat
      (res, flagsLogic w res) }

/-- BFI: the control in SC is 32 bits wide. -/
def shapeBfi (f : FmtA) : Shape :=
  shapeA f (tyRegs f.fn) (some (tyRegs f.fn)) (some (tyRegs f.fn)) (some 1) true (intFn 3 f.fn)

/-- BFI (R393). -/
def execBfi (h : Hdr) (f : FmtA) (s : State) : Host.Outcome State Fault Refusal :=
  issue h (shapeBfi f) s fun u s =>
    let w := widthOf (tyOf f.fn.toNat)
    .ok { st := writeLanes s u f.dst w f.cw fun p =>
      let res := bfiOf w (rdPat s u w f.sa.reg p) (rdPat s u w f.sb.reg p) (rd s u f.sc.reg p).toNat
      (res, flagsLogic w res) }

/-! ### Compare and select (R394) -/

/-- The condition of a 4-bit code (R340). -/
def condOfCode (n : Nat) : Cond := decodeCond (BitVec.ofNat 4 n)

/-- ICMP: CW[2] is 1; the condition code in FN[5:2]; the destination is one register (R394). -/
def shapeIcmp (f : FmtA) : Shape :=
  let n := tyRegs f.fn
  let once := isScalar f.dst
  { enc := [dstChk (dstAcc 1) f.dst, need 9 (f.cw.getLsbD 2), optSrc 10 (some n) once f.sa,
      optSrc 11 (some n) once f.sb, unusedSrc 12 f.sc, need 8 (intFn 0x3F f.fn)]
    srcs := [useOf f.sa n, useOf f.sb n]
    dsts := [{ o := f.dst }]
    once := once }

/-- ICMP: the flags of ISUB, and 1 or 0 as the condition holds on them (R394). -/
def execIcmp (h : Hdr) (f : FmtA) (s : State) : Host.Outcome State Fault Refusal :=
  issue h (shapeIcmp f) s fun u s =>
    let w := widthOf (tyOf f.fn.toNat)
    .ok { st := writeLanes s u f.dst 32 f.cw fun p =>
      let a := rdPat s u w f.sa.reg p
      let b := rdPat s u w f.sb.reg p
      let fl := flagsSub w a b (wrap w ((a : Int) - b))
      (b2n (condHolds (condOfCode (f.fn.toNat / 4 % 16)) fl), fl) }

/-- SEL: the condition code in FN[5:2], the condition register in FN[7:6], which it reads, no condition result (R319, R394). -/
def shapeSel (f : FmtA) : Shape :=
  let sh := shapeA f (tyRegs f.fn) (some (tyRegs f.fn)) (some (tyRegs f.fn)) none false (intFn 0xFF f.fn)
  { sh with srcs := sh.srcs ++ [{ o := .c (f.fn.toNat / 64 % 4) }] }

/-- SEL: a where the condition holds on the lane's condition register, else b (R394). With a scalar destination
the flags are those of the active lanes where they agree, else a free value (log 22). -/
def execSel (h : Hdr) (f : FmtA) (s : State) : Host.Outcome State Fault Refusal :=
  issue h (shapeSel f) s fun u s =>
    let w := widthOf (tyOf f.fn.toNat)
    .ok { st := { (writeLanes s u f.dst w f.cw fun p =>
      let k := carryOf s u (isScalar f.dst) (.c (f.fn.toNat / 64 % 4)) p
      (rdPat s u w (if condHolds (condOfCode (f.fn.toNat / 4 % 16)) k then f.sa.reg else f.sb.reg) p, 0)) with
        free := s.free + 1 } }

end Sys2Proof.Machine
end

