-- ==== Sys2Proof/Machine/Address.lean ====
section
/-!
DEFINITION. Row 0x2 of the opcode map: integer immediates, effective addresses and pointer casts
(R388 to R391).
-/

namespace Sys2Proof.Machine

/-- FN of the format I rows: a type of 0 to 2 and no bit outside `mask` (R369, R388). -/
def immFn (mask : Nat) (fn : BitVec 22) : Bool := fn.toNat % 4 != 3 && fn.toNat &&& mask == fn.toNat

/-- Registers of an operand of a type. -/
def immRegs (fn : BitVec 22) : Nat := if tyOf fn.toNat == 2 then 2 else 1

/-- The immediate as an integer of a type: sign-extended, or zero-extended where a description says so at TY 1 (R388). -/
def immInt (ty : Nat) (imm : BitVec 32) (zeroExt : Bool) : Int :=
  if ty == 1 then (if zeroExt then (imm.toNat : Int) else (wrap 32 imm.toInt : Int)) else imm.toInt

/-- The immediate as a pattern of w bits, sign-extended (R388). -/
def immPat (w : Nat) (imm : BitVec 32) : Nat := wrap w imm.toInt

/-- An arithmetic instruction with an immediate: the result delivered under R373 and its flags. -/
def immArith (f : FmtI) (u : Ux) (s : State) (zeroExt sat : Bool) (x : Int → Int → Int → Int)
    (fl : Nat → Nat → Nat → Int → BitVec 4) : Res :=
  let ty := tyOf f.fn.toNat
  let w := widthOf ty
  .ok { st := writeLanes s u f.dst w f.cw fun p =>
    let e := x (rdInt s u ty f.sa.reg p) (immInt ty f.imm zeroExt) (rdInt s u ty f.dst p)
    let res := deliver w (tyRange ty) sat e
    (res, fl (rdPat s u w f.sa.reg p) (immPat w f.imm) res e) }

/-- The flags of an exact result of the instruction's type. -/
def exactFlagsI (f : FmtI) (_ _ res : Nat) (e : Int) : BitVec 4 :=
  flagsExact (widthOf (tyOf f.fn.toNat)) (tyRange (tyOf f.fn.toNat)) e res

/-- IADDI: the fields it takes (R388). -/
def shapeIaddi (f : FmtI) : Shape := shapeI f (immRegs f.fn) (some (immRegs f.fn)) true true (immFn 7 f.fn) false

/-- IADDI: a + k (R388, R372). -/
def execIaddi (h : Hdr) (f : FmtI) (s : State) : Host.Outcome State Fault Refusal :=
  issue h (shapeIaddi f) s fun u s => immArith f u s false (f.fn.getLsbD 2) (fun a k _ => a + k)
    (fun a b res _ => flagsAdd (widthOf (tyOf f.fn.toNat)) a b res)

/-- IMULI: the fields it takes (R388). -/
def shapeImuli (f : FmtI) : Shape := shapeI f (immRegs f.fn) (some (immRegs f.fn)) true true (immFn 7 f.fn) false

/-- IMULI: a x k (R388, R372). -/
def execImuli (h : Hdr) (f : FmtI) (s : State) : Host.Outcome State Fault Refusal :=
  issue h (shapeImuli f) s fun u s => immArith f u s false (f.fn.getLsbD 2) (fun a k _ => a * k) (exactFlagsI f)

/-- IMADI: the fields it takes (R388). -/
def shapeImadi (f : FmtI) : Shape := shapeI f (immRegs f.fn) (some (immRegs f.fn)) true true (immFn 7 f.fn) true

/-- IMADI: a x k + d, with DST read under the blocking policy (R388). -/
def execImadi (h : Hdr) (f : FmtI) (s : State) : Host.Outcome State Fault Refusal :=
  issue h (shapeImadi f) s fun u s => immArith f u s false (f.fn.getLsbD 2) (fun a k d => a * k + d) (exactFlagsI f)

/-- IMINI: the fields it takes (R388). -/
def shapeImini (f : FmtI) : Shape := shapeI f (immRegs f.fn) (some (immRegs f.fn)) true true (immFn 3 f.fn) false

/-- IMINI (R388). -/
def execImini (h : Hdr) (f : FmtI) (s : State) : Host.Outcome State Fault Refusal :=
  issue h (shapeImini f) s fun u s => immArith f u s true false (fun a k _ => min a k)
    (fun _ _ res _ => flagsLogic (widthOf (tyOf f.fn.toNat)) res)

/-- IMAXI: the fields it takes (R388). -/
def shapeImaxi (f : FmtI) : Shape := shapeI f (immRegs f.fn) (some (immRegs f.fn)) true true (immFn 3 f.fn) false

/-- IMAXI (R388). -/
def execImaxi (h : Hdr) (f : FmtI) (s : State) : Host.Outcome State Fault Refusal :=
  issue h (shapeImaxi f) s fun u s => immArith f u s true false (fun a k _ => max a k)
    (fun _ _ res _ => flagsLogic (widthOf (tyOf f.fn.toNat)) res)

/-- A bitwise instruction with an immediate (R388). -/
def immLogic (f : FmtI) (u : Ux) (s : State) (x : Nat → Nat → Nat) : Res :=
  let w := widthOf (tyOf f.fn.toNat)
  .ok { st := writeLanes s u f.dst w f.cw fun p =>
    let res := x (rdPat s u w f.sa.reg p) (immPat w f.imm)
    (res, flagsLogic w res) }

/-- ANDI: the fields it takes (R388). -/
def shapeAndi (f : FmtI) : Shape := shapeI f (immRegs f.fn) (some (immRegs f.fn)) true true (immFn 3 f.fn) false

/-- ANDI (R388). -/
def execAndi (h : Hdr) (f : FmtI) (s : State) : Host.Outcome State Fault Refusal :=
  issue h (shapeAndi f) s fun u s => immLogic f u s fun a k => a &&& k

/-- ORI: the fields it takes (R388). -/
def shapeOri (f : FmtI) : Shape := shapeI f (immRegs f.fn) (some (immRegs f.fn)) true true (immFn 3 f.fn) false

/-- ORI (R388). -/
def execOri (h : Hdr) (f : FmtI) (s : State) : Host.Outcome State Fault Refusal :=
  issue h (shapeOri f) s fun u s => immLogic f u s fun a k => a ||| k

/-- XORI: the fields it takes (R388). -/
def shapeXori (f : FmtI) : Shape := shapeI f (immRegs f.fn) (some (immRegs f.fn)) true true (immFn 3 f.fn) false

/-- XORI (R388). -/
def execXori (h : Hdr) (f : FmtI) (s : State) : Host.Outcome State Fault Refusal :=
  issue h (shapeXori f) s fun u s => immLogic f u s fun a k => a ^^^ k

/-- A shift by an immediate count (R388, R392). -/
def immShift (f : FmtI) (u : Ux) (s : State) (x : Nat → Nat → Nat → Nat × Bool) : Res :=
  let w := widthOf (tyOf f.fn.toNat)
  .ok { st := writeLanes s u f.dst w f.cw fun p =>
    let r := x w (rdPat s u w f.sa.reg p) (f.imm.toNat % 64)
    (r.1, flagsShift w r.1 r.2) }

/-- SHLI: the fields it takes (R388). -/
def shapeShli (f : FmtI) : Shape := shapeI f (immRegs f.fn) (some (immRegs f.fn)) true (f.imm.toNat < 64) (immFn 3 f.fn) false

/-- SHLI: the count is IMM[5:0] (R388). -/
def execShli (h : Hdr) (f : FmtI) (s : State) : Host.Outcome State Fault Refusal :=
  issue h (shapeShli f) s fun u s => immShift f u s shiftLeft

/-- SHRI: the fields it takes (R388). -/
def shapeShri (f : FmtI) : Shape := shapeI f (immRegs f.fn) (some (immRegs f.fn)) true (f.imm.toNat < 64) (immFn 3 f.fn) false

/-- SHRI: the count is IMM[5:0] (R388). -/
def execShri (h : Hdr) (f : FmtI) (s : State) : Host.Outcome State Fault Refusal :=
  issue h (shapeShri f) s fun u s => immShift f u s shiftRight

/-- SARI: the fields it takes (R388). -/
def shapeSari (f : FmtI) : Shape := shapeI f (immRegs f.fn) (some (immRegs f.fn)) true (f.imm.toNat < 64) (immFn 3 f.fn) false

/-- SARI: the count is IMM[5:0] (R388). -/
def execSari (h : Hdr) (f : FmtI) (s : State) : Host.Outcome State Fault Refusal :=
  issue h (shapeSari f) s fun u s => immShift f u s shiftArith

/-- MOVI: SA is unused; FN[2] HI at TY 2 alone. HI writes the high register of the pair and leaves the low one (R388). -/
def shapeMovi (f : FmtI) : Shape :=
  shapeI f (immRegs f.fn) none false true (immFn (if tyOf f.fn.toNat == 2 then 7 else 3) f.fn) false

/-- MOVI (R388). -/
def execMovi (h : Hdr) (f : FmtI) (s : State) : Host.Outcome State Fault Refusal :=
  issue h (shapeMovi f) s fun u s =>
    if f.fn.getLsbD 2 then .ok { st := writeLanes s u (regPlus f.dst 1) 32 f.cw fun _ => (f.imm.toNat, 0) }
    else .ok { st := writeLanes s u f.dst (widthOf (tyOf f.fn.toNat)) f.cw fun _ =>
      (immPat (widthOf (tyOf f.fn.toNat)) f.imm, 0) }

/-! ### Effective addresses (R389) -/

/-- The fields of LEA and LEAX: ORD, MSCOPE, CACHE and FN are 0, and SIZE is one of `sizes` (R389). -/
def shapeAddr (f : FmtM) (sizes : List Nat) : Shape :=
  let once := isScalar f.data
  let n := if f.size.toNat == 3 then 2 else 1
  { enc := [dstChk (dstAcc n) f.data, need 14 (f.ord == 0), baseChk once (wideBase f.space.toNat) f.base,
      indexChk once f.index, need 15 (f.space != 7),
      need 16 (sizes.contains f.size.toNat), need 14 (f.mscope == 0), need 17 (f.cache == 0),
      need 8 (decide (f.scl.toNat < 6) && f.fn == 0)]
    srcs := [baseUse f, useOf f.index 1]
    dsts := [{ o := f.data, n := n }]
    once := once }

/-- LEA: SIZE 2 or 3. -/
def shapeLea (f : FmtM) : Shape := shapeAddr f [2, 3]

/-- LEA: the effective address, its low word or whole (R389). -/
def execLea (h : Hdr) (f : FmtM) (s : State) : Host.Outcome State Fault Refusal :=
  issue h (shapeLea f) s fun u s =>
    .ok { st := writeLanes s u f.data (if f.size.toNat == 3 then 64 else 32) 0 fun p => (effAddr s u f true p, 0) }

/-- The generic form of a decoded address of a group (R245, R391). -/
def genericForm (g : Group) (d : Decoded) : Nat :=
  match d.space with
  | 2 => 0xFE * 2 ^ 56 + g.core * 2 ^ 47 + d.rest
  | 3 => 0xFF * 2 ^ 56 + d.rest
  | 4 => 0xFD * 2 ^ 56 + d.rest
  | 5 => 0xFC * 2 ^ 56 + d.rest
  | _ => d.rest

/-- A tile, cluster-shared or pooled address names the issuing core (R391). -/
def namesOwnCore (s : State) (g : Group) (d : Decoded) : Bool := tileCoreOf s g d == some g.bcore

/-- The conversion of an address between spaces for a thread, or none where it fails (R391). -/
def castAddr (s : State) (gid lane fromSp toSp x : Nat) : Option Nat :=
  let g := s.g gid
  match decodeAddr fromSp x with
  | .error _ => none
  | .ok d =>
    if fromSp == toSp then some x
    else if toSp == 0 then some (genericForm g d)
    else if fromSp == 0 then
      if d.space != toSp || (toSp == 2 && d.core != some g.core) then none else some d.rest
    else if fromSp == 2 && toSp == 4 then some (g.core % 4 * 2 ^ 21 + d.rest)
    else if fromSp == 2 && toSp == 5 then
      let leader := ((s.b g.bid).cores.headD BCore.blank).core
      some (b2n (dieOf g.core != dieOf leader) * 2 ^ 25 + g.bcore * 2 ^ 21 + d.rest)
    else if (fromSp == 4 || fromSp == 5) && toSp == 2 then
      if namesOwnCore s g d then some (bits d.rest 20 0) else none
    else if fromSp == 3 && toSp == 1 then some (privateVa s g lane d.rest)
    else none

/-- LEAX: SIZE 3. -/
def shapeLeax (f : FmtM) : Shape := shapeAddr f [3]

/-- LEAX: the effective address as a generic address; a conversion that fails raises the WINDOW fault of the named
space, constant space included (R389). -/
def execLeax (h : Hdr) (f : FmtM) (s : State) : Host.Outcome State Fault Refusal :=
  issue h (shapeLeax f) s fun u s =>
    let sp := f.space.toNat
    let cast (p : Pos) : Option Nat :=
      if sp == 6 then none else castAddr s p.gid p.lane sp 0 (effAddr s u f true p)
    match (workLanes u (isScalar f.data)).find? fun p => (cast p).isNone with
    | some p => .error (.trap (laneTrap (memCause sp 2) (effAddr s u f true p) p))
    | none => .ok { st := writeLanes s u f.data 64 0 fun p => ((cast p).getD 0, 0) }

/-! ### Pointer tests and casts (R390, R391) -/

/-- SPTEST: a pair at SA, SB and SC unused, FN 0, a condition result. -/
def shapeSptest (f : FmtA) : Shape := shapeA f 1 (some 2) none none true (f.fn == 0)

/-- The word of SPTEST for a generic address: SPC, LOCAL and INB (R390). -/
def sptestWord (s : State) (gid x : Nat) : Nat :=
  let g := s.g gid
  let top := bits x 63 56
  let spc := if top < 2 then 1 else if top == 0xFE then 2 else if top == 0xFF then 3
    else if top == 0xFD then 4 else if top == 0xFC then 5 else 0
  match decodeGeneric x with
  | .error _ => spc
  | .ok d =>
    let loc := d.space == 1 || d.space == 3 || (tileCoreOf s g d).isSome
    let inb := d.space == 1 || d.space == 3 || bits d.rest 20 0 < (s.launchOf g.bid).tileb
    spc + b2n loc * 8 + b2n (loc && inb) * 16

/-- SPTEST: never faults; Z is 1 when LOCAL is 0 (R390). -/
def execSptest (h : Hdr) (f : FmtA) (s : State) : Host.Outcome State Fault Refusal :=
  issue h (shapeSptest f) s fun u s =>
    .ok { st := writeLanes s u f.dst 32 f.cw fun p =>
      let r := sptestWord s p.gid (rd64 s u f.sa.reg p).toNat
      (r, mkFlags false (!tb r 3) false false) }

/-- FROM and TO of SPCAST (R391). -/
def castFrom (f : FmtA) : Nat := f.fn.toNat % 8
def castTo (f : FmtA) : Nat := f.fn.toNat / 8 % 8

/-- SPCAST: a pair where the space is generic or global, else one register, on either side (R391). -/
def shapeSpcast (f : FmtA) : Shape :=
  shapeA f (if castTo f < 2 then 2 else 1) (some (if castFrom f < 2 then 2 else 1)) none none true
    (decide (f.fn.toNat < 64) && decide (castFrom f < 6) && decide (castTo f < 6))

/-- SPCAST: the converted address and Z = 0, or 0 and Z = 1 (R391). -/
def execSpcast (h : Hdr) (f : FmtA) (s : State) : Host.Outcome State Fault Refusal :=
  issue h (shapeSpcast f) s fun u s =>
    .ok { st := writeLanes s u f.dst (if castTo f < 2 then 64 else 32) f.cw fun p =>
      let x := rdPat s u (if castFrom f < 2 then 64 else 32) f.sa.reg p
      match castAddr s p.gid p.lane (castFrom f) (castTo f) x with
      | some y => (y, mkFlags false false false false)
      | none => (0, mkFlags false true false false) }

end Sys2Proof.Machine
end

