-- ==== Sys2Proof/Machine/Real.lean ====
section
/-!
DEFINITION. Exact and high-precision arithmetic: square roots, logarithms, exponentials and circular functions on
integers scaled by 2^S. A real is held to far more bits than any result has, so that its rounding is that of the
exact value (log 24).
-/

namespace Sys2Proof.Machine

/-- Newton's iteration for a square root, from above. -/
def isqrtGo : Nat → Nat → Nat → Nat
  | 0, _, x => x
  | k + 1, n, x => let y := (x + n / x) / 2; if y < x then isqrtGo k n y else x

/-- The integer square root. -/
def isqrt (n : Nat) : Nat := if n == 0 then 0 else isqrtGo 64 n (2 ^ (n.log2 / 2 + 1))

/-- Floor of log2(n/d), for n and d not 0. -/
def floorLog2 (n d : Nat) : Int :=
  let k : Int := (n.log2 : Int) - d.log2
  let enough : Bool := if 0 ≤ k then decide (d * 2 ^ k.toNat ≤ n) else decide (d ≤ n * 2 ^ (-k).toNat)
  if enough then k else k - 1

/-- n/d divided by 2^e, as numerator and denominator. -/
def scaleQ (n d : Nat) (e : Int) : Nat × Nat :=
  if 0 ≤ e then (n, d * 2 ^ e.toNat) else (n * 2 ^ (-e).toNat, d)

/-- The integer nearest to n/d, ties to even, for d > 0. -/
def rneDiv (n : Int) (d : Nat) : Int :=
  let q := n / (d : Int)
  let r := n - q * d
  if 2 * r > d || (2 * r == d && q % 2 == 1) then q + 1 else q

/-- A number scaled by 2^S taken to scale 2^g: the nearest value on the coarser grid, on which every value that
rounds exactly or ties lies. -/
def snap (S g : Nat) (x : Int) : Int := rneDiv x (2 ^ (S - g))

/-- Terms of an alternating or plain power series: t(k+1) = t(k) x m / (2^S (k-th divisor)), summed until 0. -/
def seriesGo (S : Nat) (m : Int) (div : Nat → Nat) : Nat → Nat → Int → Int → Int
  | 0, _, _, acc => acc
  | n + 1, k, t, acc =>
    if t == 0 then acc
    else seriesGo S m div n (k + 1) (t * m / (2 ^ S : Int) / (div k : Int)) (acc + t)

/-- Sum of t^(2k+1)/(2k+1) with the sign of `sg` to the k, for a scaled t. -/
def oddGo (S : Nat) (t2 : Int) : Nat → Nat → Int → Int → Int
  | 0, _, _, acc => acc
  | n + 1, k, p, acc =>
    if p == 0 then acc else oddGo S t2 n (k + 1) (p * t2 / (2 ^ S : Int)) (acc + p / ((2 * k + 1 : Nat) : Int))

/-- atanh of a scaled t. -/
def atanhFix (S : Nat) (t : Int) : Int := oddGo S (t * t / (2 ^ S : Int)) S 0 t 0

/-- atan of a scaled t. -/
def atanFix (S : Nat) (t : Int) : Int := oddGo S (-(t * t / (2 ^ S : Int))) S 0 t 0

/-- ln 2. -/
def ln2Fix (S : Nat) : Int := 2 * atanhFix S ((2 ^ S : Int) / 3)

/-- pi, by Machin's formula. -/
def piFix (S : Nat) : Int := 16 * atanFix S ((2 ^ S : Int) / 5) - 4 * atanFix S ((2 ^ S : Int) / 239)

/-- log2(n/d) scaled by 2^S, for n and d not 0; exact at powers of two. -/
def log2Fix (S n d : Nat) : Int :=
  let k := floorLog2 n d
  let m := scaleQ n d k
  let t : Int := ((((m.1 : Int) - m.2) * 2 ^ S) / ((m.1 + m.2 : Nat) : Int))
  k * 2 ^ S + 2 * atanhFix S t * 2 ^ S / ln2Fix S

/-- e^x for a scaled x of magnitude below 1. -/
def expFix (S : Nat) (x : Int) : Int := seriesGo S x (fun k => k + 1) S 0 (2 ^ S) 0

/-- x times 2^k, for an integer x and k of either sign. -/
def shl (x k : Int) : Int := if 0 ≤ k then x * 2 ^ k.toNat else x / (2 ^ (-k).toNat : Int)

/-- 2^x for a scaled x. -/
def exp2Fix (S : Nat) (x : Int) : Int :=
  let k := x / (2 ^ S : Int)
  shl (expFix S ((x - k * 2 ^ S) * ln2Fix S / (2 ^ S : Int))) k

/-- sin of a scaled x of magnitude below 2. -/
def sinFix (S : Nat) (x : Int) : Int :=
  seriesGo S (-(x * x / (2 ^ S : Int))) (fun k => (2 * k + 2) * (2 * k + 3)) S 0 x 0

/-- e^x less 1 for a scaled x of magnitude below 1. -/
def expm1Fix (S : Nat) (x : Int) : Int := seriesGo S x (fun k => k + 2) S 0 x 0

/-- The square root of a scaled x that is not negative. -/
def sqrtFix (S : Nat) (x : Int) : Int := (isqrt (x.toNat * 2 ^ S) : Nat)

/-- Halves an angle given by its cosine and sine, n times. -/
def halveGo (S : Nat) : Nat → Int → Int → Int × Int
  | 0, c, s => (c, s)
  | n + 1, c, s =>
    let c' := sqrtFix S (((2 ^ S : Int) + c) / 2)
    halveGo S n c' (if c' == 0 then 2 ^ S else s * 2 ^ S / (2 * c'))

/-- The angle in [0, pi) whose cosine and sine are given, the sine not negative. -/
def angleFix (S : Nat) (c s : Int) : Int :=
  let h := halveGo S 8 c s
  256 * atanFix S (h.2 * 2 ^ S / h.1)

end Sys2Proof.Machine
end

