-- ==== Sys2Proof/Machine/Format.lean ====
section
/-!
DEFINITION. Number formats: decoding, rounding, conversion and format slots (R216 to R232).
-/

namespace Sys2Proof.Machine

/-- FST bits (R197). -/
def fstI4s : Nat := 1
def fstSat : Nat := 2
def fstInv : Nat := 4
def fstOvf : Nat := 8
def fstUnf : Nat := 16
def fstDinv : Nat := 32

/-- The kinds of format. -/
inductive FKind where
  | ieee | bin8 | ocp | int
deriving DecidableEq, Repr

/-- A format: width, trailing bits, exponent of the smallest normal, signedness, infinities, and the code of the
largest finite magnitude; `full` is the full plane count and `maxExp` the exponent of the largest value
(R216, R221 to R223, R230). -/
structure Fmt where
  kind : FKind
  width : Nat
  t : Nat
  emin : Int
  signed : Bool := true
  inf : Bool := false
  maxCode : Nat
  full : Nat := 0
  maxExp : Int := 0
deriving DecidableEq, Repr

def fmtF32 : Fmt := { kind := .ieee, width := 32, t := 23, emin := -126, inf := true, maxCode := 0x7F7FFFFF, maxExp := 127 }
def fmtF16 : Fmt :=
  { kind := .ieee, width := 16, t := 10, emin := -14, inf := true, maxCode := 0x7BFF, full := 11, maxExp := 15 }
def fmtB16 : Fmt :=
  { kind := .ieee, width := 16, t := 7, emin := -126, inf := true, maxCode := 0x7F7F, full := 8, maxExp := 127 }
def fmtE2m3 : Fmt := { kind := .ocp, width := 6, t := 3, emin := 0, maxCode := 0x1F, full := 4, maxExp := 2 }
def fmtE3m2 : Fmt := { kind := .ocp, width := 6, t := 2, emin := -2, maxCode := 0x1F, full := 3, maxExp := 4 }
def fmtE2m1 : Fmt := { kind := .ocp, width := 4, t := 1, emin := 0, maxCode := 0x7, full := 2, maxExp := 2 }
def fmtI8 : Fmt := { kind := .int, width := 8, t := 0, emin := 0, maxCode := 127, full := 7, maxExp := 6 }
def fmtI4s : Fmt := { kind := .int, width := 4, t := 0, emin := 0, maxCode := 7, full := 3, maxExp := 2 }

/-- The bin8 format of a precision, signedness and infinity choice (R221). -/
def fmtBin8 (p : Nat) (sgn inf : Bool) : Fmt :=
  let w := if sgn then 8 - p else 9 - p
  let bias : Int := (2 : Int) ^ (w - 1)
  let top := (if sgn then 0x7F else 0xFE) - b2n inf
  { kind := .bin8, width := 8, t := p - 1, emin := 1 - bias, signed := sgn, inf := inf, maxCode := top, full := p
    maxExp := (if top / 2 ^ (p - 1) == 0 then 1 - bias - (p - 1 : Nat) + (top.log2 : Int)
      else ((top / 2 ^ (p - 1) : Nat) : Int) - bias) }

/-- An exact value over the extended reals: n/d with a sign, which a zero keeps. -/
inductive XV where
  | nan
  | inf (neg : Bool)
  | num (neg : Bool) (n d : Nat)
deriving DecidableEq, Repr

/-- The value m x 2^e. -/
def xDyadic (neg : Bool) (m : Nat) (e : Int) : XV :=
  if 0 ≤ e then .num neg (m * 2 ^ e.toNat) 1 else .num neg m (2 ^ (-e).toNat)

/-- An integer as an exact value. -/
def xInt (k : Int) : XV := .num (decide (k < 0)) k.natAbs 1

def XV.isNan : XV → Bool
  | .nan => true
  | _ => false

def XV.isInf : XV → Bool
  | .inf _ => true
  | _ => false

def XV.isZero : XV → Bool
  | .num _ n _ => n == 0
  | _ => false

/-- The sign; a NaN has none. -/
def XV.isNeg : XV → Bool
  | .nan => false
  | .inf s => s
  | .num s _ _ => s

def XV.opp : XV → XV
  | .nan => .nan
  | .inf s => .inf (!s)
  | .num s n d => .num (!s) n d

/-- Product over the extended reals; 0 x infinity is a NaN. -/
def XV.mul (a b : XV) : XV :=
  match a, b with
  | .nan, _ => .nan
  | _, .nan => .nan
  | .num s n d, .num s' n' d' => .num (s != s') (n * n') (d * d')
  | _, _ => if a.isZero || b.isZero then .nan else .inf (a.isNeg != b.isNeg)

/-- Quotient over the extended reals; 0/0 and infinity/infinity are NaN. -/
def XV.div (a b : XV) : XV :=
  match a, b with
  | .nan, _ => .nan
  | _, .nan => .nan
  | .num s n d, .num s' n' d' =>
    if n' == 0 then (if n == 0 then .nan else .inf (s != s')) else .num (s != s') (n * d') (d * n')
  | .inf _, .inf _ => .nan
  | .inf s, .num s' _ _ => .inf (s != s')
  | .num s _ _, .inf s' => .num (s != s') 0 1

/-- A value times 2^k. -/
def XV.scale (a : XV) (k : Int) : XV :=
  match a with
  | .num s n d => if 0 ≤ k then .num s (n * 2 ^ k.toNat) d else .num s n (d * 2 ^ (-k).toNat)
  | x => x

/-- A finite value as a signed numerator over its denominator. -/
def XV.signedNum : XV → Int × Nat
  | .num s n d => (if s then -(n : Int) else n, d)
  | _ => (0, 1)

/-- The exact sum of two finite values, without the sign of a zero. -/
def addQ (a b : Int × Nat) : Int × Nat :=
  if a.2 == b.2 then (a.1 + b.1, a.2) else (a.1 * b.2 + b.1 * a.2, a.2 * b.2)

/-- The exact sum of terms; infinities of both signs give a NaN. An exact zero keeps the sign that all terms share,
and is otherwise +0, or -0 under RDN (R217). -/
def xSum (mode : Nat) (l : List XV) : XV :=
  if l.any XV.isNan then .nan
  else if l.any XV.isInf then
    let infs := l.filter XV.isInf
    if infs.any XV.isNeg && infs.any (fun x => !x.isNeg) then .nan else .inf (infs.any XV.isNeg)
  else
    let q := (l.map XV.signedNum).foldl addQ (0, 1)
    if q.1 == 0 then
      if l.all (fun x => x.isZero && x.isNeg) then .num true 0 1
      else if l.all (fun x => x.isZero && !x.isNeg) then .num false 0 1
      else .num (mode == 3) 0 1
    else .num (decide (q.1 < 0)) q.1.natAbs q.2

/-- |a| compared with |b| for finite values. -/
def cmpMag (n d n' d' : Nat) : Ordering := compare (n * d') (n' * d)

/-! ### Codes (R216, R221 to R223) -/

/-- The NaN code of a bin8 format. -/
def Fmt.nanCode (F : Fmt) : Nat :=
  match F.kind with
  | .ieee => F.maxCode + 1 + 2 ^ (F.t - 1)
  | .bin8 => if F.signed then 0x80 else 0xFF
  | _ => 0

/-- The sign bit of a code. -/
def Fmt.signBit (F : Fmt) (neg : Bool) : Nat := if neg && F.signed then 2 ^ (F.width - 1) else 0

/-- The infinity of a format that has it. -/
def Fmt.infCode (F : Fmt) (neg : Bool) : Nat := F.maxCode + 1 + F.signBit neg

/-- The largest magnitude with a sign. -/
def Fmt.bigCode (F : Fmt) (neg : Bool) : Nat :=
  if F.kind == .int then (if neg then 2 ^ F.width - F.maxCode else F.maxCode) else F.maxCode + F.signBit neg

/-- A zero with a sign: bin8 and integers have +0 alone (R229). -/
def Fmt.zeroCode (F : Fmt) (neg : Bool) : Nat :=
  if F.kind == .ieee || F.kind == .ocp then F.signBit neg else 0

/-- Magnitude of a finite code less its sign: significand and exponent (R221). -/
def Fmt.magnitude (F : Fmt) (c : Nat) : Nat × Int :=
  let e := c / 2 ^ F.t
  let f := c % 2 ^ F.t
  if e == 0 then (f, F.emin - F.t) else (2 ^ F.t + f, F.emin - F.t + ((e : Int) - 1))

/-- The value of a code and the FST bits of reading it (R216, R221 to R223). -/
def Fmt.decode (F : Fmt) (code : Nat) : XV × Nat :=
  let c := code % 2 ^ F.width
  match F.kind with
  | .int =>
    if F.width == 4 && c == 8 then (.num false 0 1, fstI4s) else (xInt (sext F.width c), 0)
  | .ieee =>
    let s := tb c (F.width - 1)
    let m := c % 2 ^ (F.width - 1)
    if m == F.maxCode + 1 then (.inf s, 0)
    else if F.maxCode < m then (.nan, 0)
    else let x := F.magnitude m; (xDyadic s x.1 x.2, 0)
  | .bin8 =>
    let s := F.signed && tb c 7
    let m := if F.signed then c % 128 else c
    if c == F.nanCode then (.nan, 0)
    else if F.inf && m == F.maxCode + 1 then (.inf s, 0)
    else let x := F.magnitude m; (xDyadic s x.1 x.2, 0)
  | .ocp =>
    let s := tb c (F.width - 1)
    let x := F.magnitude (c % 2 ^ (F.width - 1))
    (xDyadic s x.1 x.2, 0)

/-! ### Rounding and conversion (R218 to R220, R229) -/

/-- n/d rounded to an integer under a mode, for a value of a sign (R218, R220). -/
def roundInt (mode rb : Nat) (neg : Bool) (n d : Nat) : Nat :=
  let q := n / d
  let r := n % d
  match mode with
  | 0 => if 2 * r > d || (2 * r == d && q % 2 == 1) then q + 1 else q
  | 1 => q
  | 2 => if r != 0 && !neg then q + 1 else q
  | 3 => if r != 0 && neg then q + 1 else q
  | 4 => if 2 * r ≥ d then q + 1 else q
  | _ => (n * 65536 + rb % 65536 * d) / (d * 65536)

/-- The rounded magnitude of n/d > 0 as a code, the exponent range unbounded above (R219). -/
def Fmt.roundMag (F : Fmt) (mode rb : Nat) (neg : Bool) (n d : Nat) : Nat :=
  if F.kind == .int then roundInt mode rb neg n d
  else
    let lo := F.emin - F.t
    let e := max (floorLog2 n d - F.t) lo
    let x := scaleQ n d e
    (e - lo).toNat * 2 ^ F.t + roundInt mode rb neg x.1 x.2

/-- The code of an overflow (R229). -/
def Fmt.overflow (F : Fmt) (mode : Nat) (sat neg : Bool) : Nat × Nat :=
  if sat || F.kind == .ocp || F.kind == .int then (F.bigCode neg, fstOvf ||| fstSat)
  else if !F.inf then (F.nanCode, fstOvf ||| fstInv)
  else if mode == 1 || (mode == 2 && neg) || (mode == 3 && !neg) then (F.bigCode neg, fstOvf)
  else (F.infCode neg, fstOvf)

/-- A negative non-zero value into a format without signs (R229). -/
def Fmt.negative (F : Fmt) (sat : Bool) : Nat × Nat := if sat then (0, fstSat) else (F.nanCode, fstInv)

/-- conv(x, F) under a mode, random bits and a saturation choice: the code and the FST bits. A negative value into bin8pPn takes the
row of that name alone, also where its magnitude exceeds the largest finite value: the table of R229 does not say whether OVF is set
beside it (R229; DESIGN CHOICE, log 162). -/
def conv (F : Fmt) (mode rb : Nat) (sat : Bool) (x : XV) : Nat × Nat :=
  match x with
  | .nan => if F.kind == .ocp || F.kind == .int then (0, fstSat) else (F.nanCode, 0)
  | .inf s =>
    if s && !F.signed then F.negative sat
    else if sat || F.kind == .ocp || F.kind == .int then (F.bigCode s, fstSat)
    else if F.inf then (F.infCode s, 0)
    else (F.nanCode, fstInv)
  | .num s n d =>
    if n == 0 then (F.zeroCode s, 0)
    else if s && !F.signed then F.negative sat
    else
      let c := F.roundMag mode rb s n d
      if c == 0 then (F.zeroCode s, if F.kind == .int then 0 else fstUnf)
      else if F.maxCode < c then F.overflow mode sat s
      else if F.kind == .int then ((if s then 2 ^ F.width - c else c), 0)
      else (c + F.signBit s, 0)

/-- The result of an operation without NaN operands: a NaN that arises sets INV (R217). -/
def arise (F : Fmt) (mode rb : Nat) (x : XV) : Nat × Nat :=
  if x.isNan then (F.nanCode, fstInv) else conv F mode rb false x

/-- An arithmetic result of a format: any NaN operand gives the canonical NaN (R217). -/
def arith (F : Fmt) (mode rb : Nat) (ins : List XV) (x : XV) : Nat × Nat :=
  if ins.any XV.isNan then (F.nanCode, 0) else arise F mode rb x

/-- rne(x, fp32) of an exact value. -/
def rne32 (x : XV) : Nat × Nat := conv fmtF32 0 0 false x

/-- The value of an FP32 code. -/
def f32 (c : Nat) : XV := (fmtF32.decode c).1

/-- A real held as an integer scaled by 2^S, snapped so that ties and exact values are themselves (log 24). -/
def xFix (S g : Nat) (x : Int) : XV :=
  let y := snap S g x
  .num (decide (x < 0)) y.natAbs (2 ^ g)

/-! ### Square roots -/

/-- The square root of n/d > 0 as an exact value for rounding: the root itself where it is a dyadic of the grid,
else a value strictly between the same neighbours of a grid of 64 bits beyond the format (R219). -/
def xSqrt (n d : Nat) : XV :=
  let k : Int := floorLog2 n d / 2 - 120
  let q := scaleQ n d (2 * k)
  let r := isqrt (q.1 / q.2)
  if r * r * q.2 == q.1 then xDyadic false r k else xDyadic false (2 * r + 1) (k - 1)

/-! ### Format slots (R230 to R232) -/

/-- A format slot. -/
structure Slot where
  fmtc : Nat
  fmt : Option Fmt
  tscale : Nat
  rnd : Nat
  sat : Bool
  smode : Nat
  /-- It is a matrix element, and it allows MX. -/
  elem : Bool
  mx : Bool
deriving DecidableEq, Repr

/-- The slot of a descriptor (R230). -/
def slotOf (w : Nat) : Slot :=
  let c := bits w 7 0
  { fmtc := c
    fmt := match c with
      | 1 => some fmtF32
      | 2 => some fmtF16
      | 3 => some fmtB16
      | 4 => some (fmtBin8 (bits w 14 12) (tb w 15) (tb w 16))
      | 5 => some fmtE2m3
      | 6 => some fmtE3m2
      | 7 => some fmtE2m1
      | 8 => some fmtI8
      | 9 => some fmtI4s
      | _ => none
    tscale := bits w 63 32, rnd := bits w 23 21, sat := tb w 19, smode := bits w 18 17
    elem := 2 ≤ c && c ≤ 9, mx := 4 ≤ c && c ≤ 7 }

/-- A descriptor is valid (R230, R231). -/
def slotValid (w : Nat) : Bool :=
  let c := bits w 7 0
  if c == 0 then w == 0
  else
    let sm := bits w 18 17
    let ts := bits w 63 32
    c ≤ 9 && bits w 31 24 == 0 && bits w 11 8 == 0 && bits w 23 21 < 6 && bits w 20 19 < 2 &&
      (if c == 4 then bits w 14 12 != 0 else bits w 16 12 == 0) &&
      (sm != 1 || (4 ≤ c && c ≤ 7)) &&
      (if sm == 3 then !tb ts 31 && 1 ≤ bits ts 30 23 && bits ts 30 23 ≤ 254 else ts == 0)

/-- The shared MX scale of a block of values into an element format (R227). -/
def mxScale (F : Fmt) (l : List XV) : Nat :=
  if l.any fun x => x.isNan || x.isInf then 0xFF
  else
    let es := l.filterMap fun x => match x with
      | .num _ n d => if n == 0 then none else some (floorLog2 n d)
      | _ => none
    match es with
    | [] => 0
    | e :: rest =>
      let m := rest.foldl max e
      (max 0 (min 254 (m - F.maxExp + 127))).toNat

end Sys2Proof.Machine
end

