-- ==== Sys2Proof/Machine/Float.lean ====
section
/-!
DEFINITION. Rows 0x4 and 0x5 of the opcode map: FP32, paired halves and complex pairs (R405 to R415).
-/

namespace Sys2Proof.Machine

/-! ### Fields and results that rows 0x4 to 0x8 share (R405 to R408) -/

/-- The check of a rounding code: 7 is reserved, SLOT needs a slot, SR a random source (R406). -/
def rmChk (rm : Nat) (slot sr : Bool) : Option Nat :=
  if rm == 7 || (rm == 6 && !slot) then some 18 else if rm == 5 && !sr then some 8 else none

/-- No bit of FN outside a mask is set. -/
def fnChk (fn mask : Nat) : Option Nat := need 8 (fn &&& mask == fn)

/-- Rounding forms: none, RM 0 to 4, RM 0 to 5 with the random source in SC. -/
inductive RmForm where
  | no | plain | random
deriving DecidableEq, Repr

/-- The rounding code of an instruction, 0 where it has none. -/
def rmOf (k : RmForm) (fn : Nat) : Nat := if k = .no then 0 else fn % 8

/-- The shape of a floating format A instruction: counts of the sources, rounding form, further FN bits, and
whether it gives a condition result. -/
def shapeF (f : FmtA) (dn : Nat) (a b c : Option Nat) (k : RmForm) (mask : Nat) (flags : Bool) : Shape :=
  let once := isScalar f.dst
  let rm := rmOf k f.fn.toNat
  let c' := if k = .random then (if rm == 5 then some 1 else none) else c
  { enc := [dstChk (dstAcc dn) f.dst, cwChk flags f.cw, optSrc 10 a once f.sa, optSrc 11 b once f.sb,
      optSrc 12 c' once f.sc, fnChk f.fn.toNat (mask ||| (if k = .no then 0 else 7)),
      rmChk rm false (k = .random)]
    srcs := optUse a f.sa ++ optUse b f.sb ++ optUse c' f.sc
    dsts := [{ o := f.dst, n := dn }]
    once := once }

/-- A pair or group source: v or s registers alone (R194). -/
def pairAcc (once : Bool) : Acc := { v := !once, s := true }

/-- A lane's result: pattern, FST bits and flags. -/
structure FRes where
  x : Nat
  fst : Nat := 0
  fl : BitVec 4 := 0
deriving DecidableEq, Repr

/-- The flags of an FP32 result (R408). -/
def fpFlags (x : Nat) : BitVec 4 :=
  mkFlags (tb x 31) (x % 2 ^ 31 == 0) false (decide (0x7F800000 < x % 2 ^ 31))

/-- An FP32 code with FST bits and the flags of R408. -/
def fRes (r : Nat × Nat) : FRes := { x := r.1, fst := r.2, fl := fpFlags r.1 }

/-- The effect of lanes' results, of `w` bits, short- or long-latency; the condition registers are written at issue
in either case (R201, R408). -/
def floatWrite (u : Ux) (s : State) (dst : Opnd) (cw : BitVec 3) (w : Nat) (long : Bool) (g : Pos → FRes) : Eff :=
  let work := workLanes u (isScalar dst)
  let fst := work.map fun p => (p.gid, (g p).fst)
  let st := if long then s else writeLanes s u dst w 0 fun p => ((g p).x, 0)
  let e : Eff := if long then produceLanes s u dst w fun p => (g p).x else { st := st }
  let st2 := if cw.getLsbD 2 then
      u.active.foldl (fun t p => wrC t (cw.toNat % 4) p (g (if isScalar dst then work.headD p else p)).fl) e.st
    else e.st
  { e with st := st2, fst := fst }

/-- A body that completes with lanes' results. -/
def floatEff (u : Ux) (s : State) (dst : Opnd) (cw : BitVec 3) (w : Nat) (long : Bool) (g : Pos → FRes) : Res :=
  .ok (floatWrite u s dst cw w long g)

/-- The code of an integer constant in a format (R344). -/
def constCode (F : Fmt) (k : Int) : Nat := (conv F 0 0 false (xInt k)).1

/-- An FP32 operand's code: a constant stands for its value (R344). -/
def rdF (s : State) (u : Ux) (o : Opnd) (p : Pos) : Nat :=
  match o with
  | .imm k => constCode fmtF32 k
  | _ => (rd s u o p).toNat

/-- An FP32 operand's value. -/
def xF (s : State) (u : Ux) (o : Opnd) (p : Pos) : XV := f32 (rdF s u o p)

/-- The random bits of a lane under SR (R406). -/
def rbOf (s : State) (u : Ux) (f : FmtA) (p : Pos) : Nat := (rd s u f.sc.reg p).toNat

/-- An FP32 operation on the operands' values, rounded once (R409). -/
def fpOp (f : FmtA) (u : Ux) (s : State) (k : RmForm) (long : Bool) (srcs : List Opnd)
    (x : Nat → List XV → XV) : Res :=
  floatEff u s f.dst f.cw 32 long fun p =>
    let ins := srcs.map fun o => xF s u o p
    let rm := rmOf k f.fn.toNat
    fRes (arith fmtF32 rm (rbOf s u f p) ins (x rm ins))

/-- Operand k of a list of values. -/
def nth (l : List XV) (k : Nat) : XV := l.getD k .nan

/-! ### FP32: row 0x4 -/

/-- FADD (R409). -/
def shapeFadd (f : FmtA) : Shape := shapeF f 1 (some 1) (some 1) none .random 0 true

/-- FADD: a + b (R409). -/
def execFadd (h : Hdr) (f : FmtA) (s : State) : Host.Outcome State Fault Refusal :=
  issue h (shapeFadd f) s fun u s =>
    fpOp f u s .random false [f.sa.reg, f.sb.reg] fun rm l => xSum rm [nth l 0, nth l 1]

/-- FSUB (R409). -/
def shapeFsub (f : FmtA) : Shape := shapeF f 1 (some 1) (some 1) none .random 0 true

/-- FSUB: a - b (R409). -/
def execFsub (h : Hdr) (f : FmtA) (s : State) : Host.Outcome State Fault Refusal :=
  issue h (shapeFsub f) s fun u s =>
    fpOp f u s .random false [f.sa.reg, f.sb.reg] fun rm l => xSum rm [nth l 0, (nth l 1).opp]

/-- FMUL (R409). -/
def shapeFmul (f : FmtA) : Shape := shapeF f 1 (some 1) (some 1) none .random 0 true

/-- FMUL: a x b (R409). -/
def execFmul (h : Hdr) (f : FmtA) (s : State) : Host.Outcome State Fault Refusal :=
  issue h (shapeFmul f) s fun u s =>
    fpOp f u s .random false [f.sa.reg, f.sb.reg] fun _ l => (nth l 0).mul (nth l 1)

/-- FFMA (R409). -/
def shapeFfma (f : FmtA) : Shape := shapeF f 1 (some 1) (some 1) (some 1) .plain 0 true

/-- FFMA: a x b + c with one rounding (R409). -/
def execFfma (h : Hdr) (f : FmtA) (s : State) : Host.Outcome State Fault Refusal :=
  issue h (shapeFfma f) s fun u s =>
    fpOp f u s .plain false [f.sa.reg, f.sb.reg, f.sc.reg] fun rm l => xSum rm [(nth l 0).mul (nth l 1), nth l 2]

/-- The order of finite or infinite codes: -0 below +0 when `zeros` distinguishes them. -/
def codeKey (F : Fmt) (zeros : Bool) (c : Nat) : Int :=
  let m := c % 2 ^ (F.width - 1)
  let k : Int := if zeros then 2 * m + 1 else m
  if tb c (F.width - 1) then -k else k

/-- The lesser or greater operand (R410). -/
def minMax (F : Fmt) (greater : Bool) (a b : Nat) : Nat :=
  if (F.decode a).1.isNan then (if (F.decode b).1.isNan then F.nanCode else b)
  else if (F.decode b).1.isNan then a
  else if greater then (if codeKey F true b ≤ codeKey F true a then a else b)
  else (if codeKey F true a ≤ codeKey F true b then a else b)

/-- FMIN (R410). -/
def shapeFmin (f : FmtA) : Shape := shapeF f 1 (some 1) (some 1) none .no 0 true

/-- An operation on FP32 codes that sets no FST bit. -/
def codeOp (f : FmtA) (u : Ux) (s : State) (x : Pos → Nat) : Res :=
  floatEff u s f.dst f.cw 32 false fun p => fRes (x p, 0)

/-- FMIN (R410). -/
def execFmin (h : Hdr) (f : FmtA) (s : State) : Host.Outcome State Fault Refusal :=
  issue h (shapeFmin f) s fun u s =>
    codeOp f u s fun p => minMax fmtF32 false (rdF s u f.sa.reg p) (rdF s u f.sb.reg p)

/-- FMAX (R410). -/
def shapeFmax (f : FmtA) : Shape := shapeF f 1 (some 1) (some 1) none .no 0 true

/-- FMAX (R410). -/
def execFmax (h : Hdr) (f : FmtA) (s : State) : Host.Outcome State Fault Refusal :=
  issue h (shapeFmax f) s fun u s =>
    codeOp f u s fun p => minMax fmtF32 true (rdF s u f.sa.reg p) (rdF s u f.sb.reg p)

/-- The flags of a comparison of two codes (R411). -/
def cmpFlags (F : Fmt) (a b : Nat) : BitVec 4 :=
  if (F.decode a).1.isNan || (F.decode b).1.isNan then mkFlags false false true true
  else if codeKey F false a < codeKey F false b then mkFlags true false false false
  else if codeKey F false a == codeKey F false b then mkFlags false true true false
  else mkFlags false false true false

/-- The condition of a 4-bit code (R340). -/
def condOf (n : Nat) : Cond := decodeCond (BitVec.ofNat 4 n)

/-- FCMP: CW[2] is 1 (R411). -/
def shapeFcmp (f : FmtA) : Shape :=
  let sh := shapeF f 1 (some 1) (some 1) none .no 0x78 true
  { sh with enc := sh.enc.take 1 ++ [need 9 (f.cw.getLsbD 2)] ++ sh.enc.drop 2 }

/-- FCMP: flags, and 1 or 0 by COND (R411). -/
def execFcmp (h : Hdr) (f : FmtA) (s : State) : Host.Outcome State Fault Refusal :=
  issue h (shapeFcmp f) s fun u s => floatEff u s f.dst f.cw 32 false fun p =>
    let fl := cmpFlags fmtF32 (rdF s u f.sa.reg p) (rdF s u f.sb.reg p)
    { x := b2n (condHolds (condOf (bits f.fn.toNat 6 3)) fl), fl := fl }

/-- The class bit of an FP32 code (R412). -/
def classBit (c : Nat) : Nat :=
  let s := tb c 31
  let e := bits c 30 23
  let m := bits c 22 0
  if e == 255 then (if m == 0 then (if s then 0 else 7) else if tb m 22 then 9 else 8)
  else if e == 0 then (if m == 0 then (if s then 3 else 4) else if s then 2 else 5)
  else if s then 1 else 6

/-- FCLASS (R412). -/
def shapeFclass (f : FmtA) : Shape := shapeF f 1 (some 1) none none .no 0x3FF true

/-- FCLASS: the class as a one-bit value, and Z when the mask misses it (R412). -/
def execFclass (h : Hdr) (f : FmtA) (s : State) : Host.Outcome State Fault Refusal :=
  issue h (shapeFclass f) s fun u s => floatEff u s f.dst f.cw 32 false fun p =>
    let x := 2 ^ classBit (rdF s u f.sa.reg p)
    { x := x, fl := mkFlags false (x &&& f.fn.toNat % 1024 == 0) false false }

/-- FRND (R409). -/
def shapeFrnd (f : FmtA) : Shape := shapeF f 1 (some 1) none none .plain 0 true

/-- An FP32 code rounded to an integral value (R409). -/
def roundIntegral (rm c : Nat) : Nat :=
  match f32 c with
  | .nan => fmtF32.nanCode
  | .inf _ => c
  | .num s n d => if n % d == 0 then c else (rne32 (.num s (roundInt rm 0 s n d) 1)).1

/-- FRND (R409). -/
def execFrnd (h : Hdr) (f : FmtA) (s : State) : Host.Outcome State Fault Refusal :=
  issue h (shapeFrnd f) s fun u s => codeOp f u s fun p => roundIntegral (f.fn.toNat % 8) (rdF s u f.sa.reg p)

/-- FFRC (R409). -/
def shapeFfrc (f : FmtA) : Shape := shapeF f 1 (some 1) none none .no 0 true

/-- rne(a - floor(a)), 0x3F7FFFFF where that is 1 (R409). -/
def fracPart (x : XV) : Nat × Nat :=
  match x with
  | .nan => (fmtF32.nanCode, 0)
  | .inf _ => (fmtF32.nanCode, fstInv)
  | .num s n d =>
    let r := n % d
    let y := rne32 (.num false (if s && r != 0 then d - r else r) d)
    if y.1 == 0x3F800000 then (0x3F7FFFFF, y.2) else y

/-- FFRC (R409). -/
def execFfrc (h : Hdr) (f : FmtA) (s : State) : Host.Outcome State Fault Refusal :=
  issue h (shapeFfrc f) s fun u s => floatEff u s f.dst f.cw 32 false fun p => fRes (fracPart (xF s u f.sa.reg p))

/-- FSCALE (R409). -/
def shapeFscale (f : FmtA) : Shape := shapeF f 1 (some 1) (some 1) none .random 0 true

/-- FSCALE: a x 2^b; beyond 400 either way the result is that at 400 (R409). -/
def execFscale (h : Hdr) (f : FmtA) (s : State) : Host.Outcome State Fault Refusal :=
  issue h (shapeFscale f) s fun u s => floatEff u s f.dst f.cw 32 false fun p =>
    let a := xF s u f.sa.reg p
    let k := max (-400) (min 400 (sext 32 (rd s u f.sb.reg p).toNat))
    fRes (arith fmtF32 (f.fn.toNat % 8) (rbOf s u f p) [a] (a.scale k))

/-- FDIV (R409). -/
def shapeFdiv (f : FmtA) : Shape := shapeF f 1 (some 1) (some 1) none .random 0 true

/-- FDIV: a / b as IEEE division, long latency (R409). -/
def execFdiv (h : Hdr) (f : FmtA) (s : State) : Host.Outcome State Fault Refusal :=
  issue h (shapeFdiv f) s fun u s =>
    fpOp f u s .random true [f.sa.reg, f.sb.reg] fun _ l => (nth l 0).div (nth l 1)

/-- The square root over the extended reals, IEEE: the root of -0 is -0 (R409). -/
def xRoot (x : XV) : XV :=
  match x with
  | .nan => .nan
  | .inf s => if s then .nan else .inf false
  | .num s n d => if n == 0 then .num s 0 1 else if s then .nan else xSqrt n d

/-- FSQRT (R409). -/
def shapeFsqrt (f : FmtA) : Shape := shapeF f 1 (some 1) none none .random 0 true

/-- FSQRT, long latency (R409). -/
def execFsqrt (h : Hdr) (f : FmtA) (s : State) : Host.Outcome State Fault Refusal :=
  issue h (shapeFsqrt f) s fun u s => fpOp f u s .random true [f.sa.reg] fun _ l => xRoot (nth l 0)

/-- FDOT2: SA and SB are pairs (R409). -/
def shapeFdot2 (f : FmtA) : Shape :=
  let once := isScalar f.dst
  let sh := shapeF f 1 (some 2) (some 2) (some 1) .plain 0 true
  { sh with enc := sh.enc.take 2 ++ [srcChk 10 (pairAcc once) once f.sa, srcChk 11 (pairAcc once) once f.sb] ++
      sh.enc.drop 4 }

/-- FDOT2: a0 b0 + a1 b1 + c, exact and rounded once (R409). -/
def execFdot2 (h : Hdr) (f : FmtA) (s : State) : Host.Outcome State Fault Refusal :=
  issue h (shapeFdot2 f) s fun u s =>
    fpOp f u s .plain false [f.sa.reg, f.sb.reg, regPlus f.sa.reg 1, regPlus f.sb.reg 1, f.sc.reg]
      fun rm l => xSum rm [(nth l 0).mul (nth l 1), (nth l 2).mul (nth l 3), nth l 4]

/-- FMED3 (R409). -/
def shapeFmed3 (f : FmtA) : Shape := shapeF f 1 (some 1) (some 1) (some 1) .no 0 true

/-- FMED3 (R409). -/
def execFmed3 (h : Hdr) (f : FmtA) (s : State) : Host.Outcome State Fault Refusal :=
  issue h (shapeFmed3 f) s fun u s => codeOp f u s fun p =>
    let a := rdF s u f.sa.reg p
    let b := rdF s u f.sb.reg p
    minMax fmtF32 true (minMax fmtF32 false a b)
      (minMax fmtF32 false (minMax fmtF32 true a b) (rdF s u f.sc.reg p))

/-- FSGN: SB is unused under `.abs` (R413). -/
def shapeFsgn (f : FmtA) : Shape :=
  shapeF f 1 (some 1) (if f.fn.toNat % 4 == 3 then none else some 1) none .no 3 true

/-- FSGN: a's magnitude under a chosen sign (R413). -/
def execFsgn (h : Hdr) (f : FmtA) (s : State) : Host.Outcome State Fault Refusal :=
  issue h (shapeFsgn f) s fun u s => codeOp f u s fun p =>
    let a := rdF s u f.sa.reg p
    let sb := tb (rdF s u f.sb.reg p) 31
    let sg := match f.fn.toNat % 4 with
      | 0 => sb
      | 1 => !sb
      | 2 => tb a 31 != sb
      | _ => false
    a % 2 ^ 31 + b2n sg * 2 ^ 31

/-! ### Paired halves: row 0x5 (R414) -/

/-- The element format: FN[3]. -/
def halfFmt (fn : Nat) : Fmt := if tb fn 3 then fmtB16 else fmtF16

/-- A paired operand: a constant fills both halves (R344). -/
def rdH (s : State) (u : Ux) (F : Fmt) (o : Opnd) (p : Pos) : Nat :=
  match o with
  | .imm k => constCode F k * 65537
  | _ => (rd s u o p).toNat

/-- Element i of a paired register. -/
def halfAt (x i : Nat) : Nat := x / 65536 ^ i % 65536

/-- The two results of an element operation packed into a register (R224). -/
def packHalves (g : Nat → Nat × Nat) : FRes := { x := (g 0).1 + (g 1).1 * 65536, fst := (g 0).2 ||| (g 1).2 }

/-- An element-wise arithmetic operation (R414). -/
def halfOp (f : FmtA) (u : Ux) (s : State) (k : RmForm) (srcs : List Opnd) (x : Nat → List XV → XV) : Res :=
  floatEff u s f.dst 0 32 false fun p =>
    let F := halfFmt f.fn.toNat
    let rm := rmOf k f.fn.toNat
    packHalves fun i =>
      let ins := srcs.map fun o => (F.decode (halfAt (rdH s u F o p) i)).1
      arith F rm (halfAt (rbOf s u f p) i) ins (x rm ins)

/-- An element-wise operation on codes (R414). -/
def halfCode (f : FmtA) (u : Ux) (s : State) (x : Fmt → Nat → Nat → Nat) : Res :=
  floatEff u s f.dst 0 32 false fun p =>
    let F := halfFmt f.fn.toNat
    packHalves fun i => (x F (halfAt (rdH s u F f.sa.reg p) i) (halfAt (rdH s u F f.sb.reg p) i), 0)

/-- HADD2 (R414). -/
def shapeHadd2 (f : FmtA) : Shape := shapeF f 1 (some 1) (some 1) none .random 8 false

/-- HADD2 (R414). -/
def execHadd2 (h : Hdr) (f : FmtA) (s : State) : Host.Outcome State Fault Refusal :=
  issue h (shapeHadd2 f) s fun u s =>
    halfOp f u s .random [f.sa.reg, f.sb.reg] fun rm l => xSum rm [nth l 0, nth l 1]

/-- HMUL2 (R414). -/
def shapeHmul2 (f : FmtA) : Shape := shapeF f 1 (some 1) (some 1) none .random 8 false

/-- HMUL2 (R414). -/
def execHmul2 (h : Hdr) (f : FmtA) (s : State) : Host.Outcome State Fault Refusal :=
  issue h (shapeHmul2 f) s fun u s =>
    halfOp f u s .random [f.sa.reg, f.sb.reg] fun _ l => (nth l 0).mul (nth l 1)

/-- HFMA2 (R414). -/
def shapeHfma2 (f : FmtA) : Shape := shapeF f 1 (some 1) (some 1) (some 1) .plain 8 false

/-- HFMA2 (R414). -/
def execHfma2 (h : Hdr) (f : FmtA) (s : State) : Host.Outcome State Fault Refusal :=
  issue h (shapeHfma2 f) s fun u s =>
    halfOp f u s .plain [f.sa.reg, f.sb.reg, f.sc.reg] fun rm l => xSum rm [(nth l 0).mul (nth l 1), nth l 2]

/-- HMIN2 (R414). -/
def shapeHmin2 (f : FmtA) : Shape := shapeF f 1 (some 1) (some 1) none .no 8 false

/-- HMIN2 (R410, R414). -/
def execHmin2 (h : Hdr) (f : FmtA) (s : State) : Host.Outcome State Fault Refusal :=
  issue h (shapeHmin2 f) s fun u s => halfCode f u s fun F a b => minMax F false a b

/-- HMAX2 (R414). -/
def shapeHmax2 (f : FmtA) : Shape := shapeF f 1 (some 1) (some 1) none .no 8 false

/-- HMAX2 (R410, R414). -/
def execHmax2 (h : Hdr) (f : FmtA) (s : State) : Host.Outcome State Fault Refusal :=
  issue h (shapeHmax2 f) s fun u s => halfCode f u s fun F a b => minMax F true a b

/-- HCMP2: COND in FN[7:4] (R414). -/
def shapeHcmp2 (f : FmtA) : Shape := shapeF f 1 (some 1) (some 1) none .no 0xF8 false

/-- HCMP2: all ones where the condition holds (R411, R414). -/
def execHcmp2 (h : Hdr) (f : FmtA) (s : State) : Host.Outcome State Fault Refusal :=
  issue h (shapeHcmp2 f) s fun u s => halfCode f u s fun F a b =>
    if condHolds (condOf (bits f.fn.toNat 7 4)) (cmpFlags F a b) then 0xFFFF else 0

/-- HDOT2 (R414). -/
def shapeHdot2 (f : FmtA) : Shape := shapeF f 1 (some 1) (some 1) (some 1) .plain 8 true

/-- HDOT2: a0 b0 + a1 b1 + c in FP32, rounded once (R414). -/
def execHdot2 (h : Hdr) (f : FmtA) (s : State) : Host.Outcome State Fault Refusal :=
  issue h (shapeHdot2 f) s fun u s => floatEff u s f.dst f.cw 32 false fun p =>
    let F := halfFmt f.fn.toNat
    let el := fun (o : Opnd) i => (F.decode (halfAt (rdH s u F o p) i)).1
    let c := xF s u f.sc.reg p
    let ins := [el f.sa.reg 0, el f.sb.reg 0, el f.sa.reg 1, el f.sb.reg 1, c]
    let rm := f.fn.toNat % 8
    fRes (arith fmtF32 rm 0 ins (xSum rm [(nth ins 0).mul (nth ins 1), (nth ins 2).mul (nth ins 3), c]))

/-! ### Complex pairs: row 0x5 (R234, R415) -/

/-- A complex operand or result: a v pair, which is not uniform (R371, R415). -/
def complexAcc (once : Bool) : Acc := { v := !once }

/-- The shape of a complex instruction: which sources are complex, whether the result is a pair, and the FN mask. -/
def shapeC (f : FmtA) (pair : Bool) (b c : Bool) (mask : Nat) : Shape :=
  let once := isScalar f.dst
  { enc := [dstChk (if pair then complexAcc false else dstAcc 1) f.dst, cwChk false f.cw,
      srcChk 10 (complexAcc once) false f.sa,
      if b then srcChk 11 (complexAcc once) false f.sb else unusedSrc 11 f.sb,
      if c then srcChk 12 (complexAcc once) false f.sc else unusedSrc 12 f.sc, fnChk f.fn.toNat mask]
    srcs := useOf f.sa 2 :: ((if b then [useOf f.sb 2] else []) ++ (if c then [useOf f.sc 2] else []))
    dsts := [{ o := f.dst, n := if pair then 2 else 1 }]
    once := once }

/-- Both components of a complex operand. -/
def rdC (s : State) (u : Ux) (o : Opnd) (p : Pos) : XV × XV := (xF s u o p, xF s u (regPlus o 1) p)

/-- A complex result of component values: a NaN operand gives NaN in both (R234). -/
def complexEff (f : FmtA) (u : Ux) (s : State) (g : Pos → List XV × XV × XV) : Res :=
  floatEff u s f.dst 0 64 false fun p =>
    let r := g p
    let re := arith fmtF32 0 0 r.1 r.2.1
    let im := arith fmtF32 0 0 r.1 r.2.2
    { x := re.1 + im.1 * 2 ^ 32, fst := re.2 ||| im.2 }

/-- CADD (R415). -/
def shapeCadd (f : FmtA) : Shape := shapeC f true true false 1

/-- CADD: a + b or a - b (R415). -/
def execCadd (h : Hdr) (f : FmtA) (s : State) : Host.Outcome State Fault Refusal :=
  issue h (shapeCadd f) s fun u s => complexEff f u s fun p =>
    let a := rdC s u f.sa.reg p
    let b := rdC s u f.sb.reg p
    let sg := fun (x : XV) => if f.fn.getLsbD 0 then x.opp else x
    ([a.1, a.2, b.1, b.2], xSum 0 [a.1, sg b.1], xSum 0 [a.2, sg b.2])

/-- CMUL (R415). -/
def shapeCmul (f : FmtA) : Shape := shapeC f true true false 0

/-- CMUL (R415). -/
def execCmul (h : Hdr) (f : FmtA) (s : State) : Host.Outcome State Fault Refusal :=
  issue h (shapeCmul f) s fun u s => complexEff f u s fun p =>
    let a := rdC s u f.sa.reg p
    let b := rdC s u f.sb.reg p
    ([a.1, a.2, b.1, b.2], xSum 0 [a.1.mul b.1, (a.2.mul b.2).opp], xSum 0 [a.1.mul b.2, a.2.mul b.1])

/-- CMAD (R415). -/
def shapeCmad (f : FmtA) : Shape := shapeC f true true true 0

/-- CMAD (R415). -/
def execCmad (h : Hdr) (f : FmtA) (s : State) : Host.Outcome State Fault Refusal :=
  issue h (shapeCmad f) s fun u s => complexEff f u s fun p =>
    let a := rdC s u f.sa.reg p
    let b := rdC s u f.sb.reg p
    let c := rdC s u f.sc.reg p
    ([a.1, a.2, b.1, b.2, c.1, c.2], xSum 0 [a.1.mul b.1, (a.2.mul b.2).opp, c.1],
      xSum 0 [a.1.mul b.2, a.2.mul b.1, c.2])

/-- CMULC (R415). -/
def shapeCmulc (f : FmtA) : Shape := shapeC f true true false 0

/-- CMULC: a x conj(b) (R415). -/
def execCmulc (h : Hdr) (f : FmtA) (s : State) : Host.Outcome State Fault Refusal :=
  issue h (shapeCmulc f) s fun u s => complexEff f u s fun p =>
    let a := rdC s u f.sa.reg p
    let b := rdC s u f.sb.reg p
    ([a.1, a.2, b.1, b.2], xSum 0 [a.1.mul b.1, a.2.mul b.2], xSum 0 [a.2.mul b.1, (a.1.mul b.2).opp])

/-- CABS2 (R415). -/
def shapeCabs2 (f : FmtA) : Shape := shapeC f false false false 0

/-- CABS2: the sum of squares, one register (R415). -/
def execCabs2 (h : Hdr) (f : FmtA) (s : State) : Host.Outcome State Fault Refusal :=
  issue h (shapeCabs2 f) s fun u s => floatEff u s f.dst 0 32 false fun p =>
    let a := rdC s u f.sa.reg p
    fRes (arith fmtF32 0 0 [a.1, a.2] (xSum 0 [a.1.mul a.1, a.2.mul a.2]))

/-- CSCALE: SB is an FP32 single (R415). -/
def shapeCscale (f : FmtA) : Shape :=
  let sh := shapeC f true false false 0
  { sh with
    enc := sh.enc.take 3 ++ [srcChk 11 (dataAcc 1 false) false f.sb] ++ sh.enc.drop 4
    srcs := sh.srcs ++ [useOf f.sb 1] }

/-- CSCALE: both components times b (R415). -/
def execCscale (h : Hdr) (f : FmtA) (s : State) : Host.Outcome State Fault Refusal :=
  issue h (shapeCscale f) s fun u s => complexEff f u s fun p =>
    let a := rdC s u f.sa.reg p
    let b := xF s u f.sb.reg p
    ([a.1, a.2, b], a.1.mul b, a.2.mul b)

/-- CROT (R415). -/
def shapeCrot (f : FmtA) : Shape := shapeC f true false false 3

/-- CROT: a x i^k on the codes, exactly; a NaN component gives NaN in both (R415). -/
def execCrot (h : Hdr) (f : FmtA) (s : State) : Host.Outcome State Fault Refusal :=
  issue h (shapeCrot f) s fun u s => floatEff u s f.dst 0 64 false fun p =>
    let re := rdF s u f.sa.reg p
    let im := rdF s u (regPlus f.sa.reg 1) p
    let flip := fun (x : Nat) => if tb x 31 then x - 2 ^ 31 else x + 2 ^ 31
    let r := match f.fn.toNat % 4 with
      | 0 => (re, im)
      | 1 => (flip im, re)
      | 2 => (flip re, flip im)
      | _ => (im, flip re)
    let nan := fmtF32.nanCode
    { x := if (f32 re).isNan || (f32 im).isNan then nan + nan * 2 ^ 32 else r.1 + r.2 * 2 ^ 32 }

/-- CMAG (R415). -/
def shapeCmag (f : FmtA) : Shape := shapeC f false false false 0

/-- CMAG: the root of the sum of squares, correctly rounded (R415). -/
def execCmag (h : Hdr) (f : FmtA) (s : State) : Host.Outcome State Fault Refusal :=
  issue h (shapeCmag f) s fun u s => floatEff u s f.dst 0 32 false fun p =>
    let a := rdC s u f.sa.reg p
    fRes (arith fmtF32 0 0 [a.1, a.2] (xRoot (xSum 0 [a.1.mul a.1, a.2.mul a.2])))

end Sys2Proof.Machine
end

