-- ==== Sys2Proof/Machine/Convert.lean ====
section
/-!
DEFINITION. Row 0x6 of the opcode map, and CEXPI: special functions and conversions (R233, R415 to R423).
-/

namespace Sys2Proof.Machine

/-! ### Special functions (R233) -/

/-- Bits after the point to which the special functions are computed (log 24). -/
def sfuBits : Nat := 640

/-- An exact number scaled by 2^S. -/
def fixOf (S n d : Nat) : Int := ((n * 2 ^ S / d : Nat) : Int)

/-- A scaled real as a value. -/
def xReal (S : Nat) (x : Int) : XV := .num (decide (x < 0)) x.natAbs (2 ^ S)

/-- The canonical NaN with INV: it arose from an operand that is not a NaN. -/
def nanInv : Nat × Nat := (fmtF32.nanCode, fstInv)

/-- RCP (R233). -/
def sfuRcp (x : XV) : Nat × Nat := rne32 ((XV.num false 1 1).div x)

/-- RSQ (R233). -/
def sfuRsq (x : XV) : Nat × Nat :=
  match x with
  | .nan => (fmtF32.nanCode, 0)
  | .inf s => if s then nanInv else (0, 0)
  | .num s n d => if n == 0 then rne32 (.inf s) else if s then nanInv else rne32 (xSqrt d n)

/-- EX2; beyond 200 the result is that of 200, an overflow or a zero (R233). -/
def sfuEx2 (x : XV) : Nat × Nat :=
  match x with
  | .nan => (fmtF32.nanCode, 0)
  | .inf s => if s then (0, 0) else rne32 (.inf false)
  | .num s n d =>
    if 200 * d < n then rne32 (xDyadic false 1 (if s then -200 else 200))
    else if n % d == 0 then rne32 (xDyadic false 1 (if s then -((n / d : Nat) : Int) else (n / d : Nat)))
    else rne32 (xReal sfuBits (exp2Fix sfuBits (if s then -fixOf sfuBits n d else fixOf sfuBits n d)))

/-- LG2 (R233). -/
def sfuLg2 (x : XV) : Nat × Nat :=
  match x with
  | .nan => (fmtF32.nanCode, 0)
  | .inf s => if s then nanInv else rne32 (.inf false)
  | .num s n d =>
    if n == 0 then rne32 (.inf true) else if s then nanInv else rne32 (xReal sfuBits (log2Fix sfuBits n d))

/-- The sine of 2 pi times a number of turns in [0, 1), held as n/d; exact at quarter turns. -/
def sinTurns (n d : Nat) : XV :=
  let q := 4 * n / d
  let f := 4 * n - q * d
  if f == 0 then
    match q with
    | 1 => .num false 1 1
    | 3 => .num true 1 1
    | _ => .num false 0 1
  else
    let g := if q % 2 == 0 then f else d - f
    let y := sinFix sfuBits (fixOf sfuBits g (4 * d) * 2 * piFix sfuBits / (2 ^ sfuBits : Int))
    xReal sfuBits (if q ≥ 2 then -y else y)

/-- Turns modulo 1 of a signed n/d. -/
def turnsOf (s : Bool) (n d : Nat) : Nat := if s && n % d != 0 then d - n % d else n % d

/-- SINT (R233). -/
def sfuSint (x : XV) : Nat × Nat :=
  match x with
  | .nan => (fmtF32.nanCode, 0)
  | .inf _ => nanInv
  | .num s n d => if n == 0 then rne32 (.num s 0 1) else rne32 (sinTurns (turnsOf s n d) d)

/-- COST (R233). -/
def sfuCost (x : XV) : Nat × Nat :=
  match x with
  | .nan => (fmtF32.nanCode, 0)
  | .inf _ => nanInv
  | .num s n d => rne32 (sinTurns ((4 * turnsOf s n d + d) % (4 * d)) (4 * d))

/-- e^x for a scaled x. -/
def expReal (S : Nat) (x : Int) : Int := exp2Fix S (x * 2 ^ S / ln2Fix S)

/-- TANH; from 9.1 on the result is 1 (R233). -/
def sfuTanh (x : XV) : Nat × Nat :=
  match x with
  | .nan => (fmtF32.nanCode, 0)
  | .inf s => rne32 (.num s 1 1)
  | .num s n d =>
    if n == 0 then rne32 (.num s 0 1)
    else if 91 * d ≤ 10 * n then rne32 (.num s 1 1)
    else
      let S := sfuBits
      let y := 2 * fixOf S n d
      let e := if y < 2 ^ S then expm1Fix S y else expReal S y - 2 ^ S
      let r := e * 2 ^ S / (e + 2 * 2 ^ S)
      rne32 (xReal S (if s then -r else r))

/-- SIGM; from 17.4 on the result is 1, and from -110 down the value rounds to 0 (R233). -/
def sfuSigm (x : XV) : Nat × Nat :=
  match x with
  | .nan => (fmtF32.nanCode, 0)
  | .inf s => if s then (0, 0) else rne32 (.num false 1 1)
  | .num s n d =>
    if n == 0 then rne32 (.num false 1 2)
    else if !s && 174 * d ≤ 10 * n then rne32 (.num false 1 1)
    else if s && 110 * d ≤ n then (0, fstUnf)
    else
      let S := sfuBits
      let e := expReal S (if s then fixOf S n d else -fixOf S n d)
      rne32 (xReal S (2 ^ (2 * S) / (2 ^ S + e)))

/-- A special function of one FP32 source, long latency, FN 0 (R416). -/
def shapeSfu (f : FmtA) : Shape := shapeF f 1 (some 1) none none .no 0 true

/-- The results of a special function. -/
def sfuEff (f : FmtA) (u : Ux) (s : State) (g : XV → Nat × Nat) : Res :=
  floatEff u s f.dst f.cw 32 true fun p => fRes (g (xF s u f.sa.reg p))

/-- RCP (R416). -/
def execRcp (h : Hdr) (f : FmtA) (s : State) : Host.Outcome State Fault Refusal :=
  issue h (shapeSfu f) s fun u s => sfuEff f u s sfuRcp

/-- RSQ (R416). -/
def execRsq (h : Hdr) (f : FmtA) (s : State) : Host.Outcome State Fault Refusal :=
  issue h (shapeSfu f) s fun u s => sfuEff f u s sfuRsq

/-- EX2 (R416). -/
def execEx2 (h : Hdr) (f : FmtA) (s : State) : Host.Outcome State Fault Refusal :=
  issue h (shapeSfu f) s fun u s => sfuEff f u s sfuEx2

/-- LG2 (R416). -/
def execLg2 (h : Hdr) (f : FmtA) (s : State) : Host.Outcome State Fault Refusal :=
  issue h (shapeSfu f) s fun u s => sfuEff f u s sfuLg2

/-- SINT (R416). -/
def execSint (h : Hdr) (f : FmtA) (s : State) : Host.Outcome State Fault Refusal :=
  issue h (shapeSfu f) s fun u s => sfuEff f u s sfuSint

/-- COST (R416). -/
def execCost (h : Hdr) (f : FmtA) (s : State) : Host.Outcome State Fault Refusal :=
  issue h (shapeSfu f) s fun u s => sfuEff f u s sfuCost

/-- TANH (R416). -/
def execTanh (h : Hdr) (f : FmtA) (s : State) : Host.Outcome State Fault Refusal :=
  issue h (shapeSfu f) s fun u s => sfuEff f u s sfuTanh

/-- SIGM (R416). -/
def execSigm (h : Hdr) (f : FmtA) (s : State) : Host.Outcome State Fault Refusal :=
  issue h (shapeSfu f) s fun u s => sfuEff f u s sfuSigm

/-- CEXPI: an FP32 source, a complex result (R415). -/
def shapeCexpi (f : FmtA) : Shape :=
  { enc := [dstChk (complexAcc false) f.dst, cwChk false f.cw, srcChk 10 (dataAcc 1 false) false f.sa,
      unusedSrc 11 f.sb, unusedSrc 12 f.sc, fnChk f.fn.toNat 0]
    srcs := [useOf f.sa 1]
    dsts := [{ o := f.dst, n := 2 }] }

/-- CEXPI: (COST a, SINT a) (R415). -/
def execCexpi (h : Hdr) (f : FmtA) (s : State) : Host.Outcome State Fault Refusal :=
  issue h (shapeCexpi f) s fun u s => floatEff u s f.dst 0 64 false fun p =>
    let c := sfuCost (xF s u f.sa.reg p)
    let d := sfuSint (xF s u f.sa.reg p)
    { x := c.1 + d.1 * 2 ^ 32, fst := c.2 ||| d.2 }

/-! ### Conversions through a slot (R417 to R420) -/

/-- Format slot k of the launch of a group (R230). -/
def slotAt (s : State) (gid k : Nat) : Slot := slotOf ((s.launchOf (s.g gid).bid).fslot k)

/-- The slot that FN[5:3] names, for the group that holds the issue slot. -/
def slotHere (s : State) (fn : Nat) : Slot := slotAt s ((s.cur.map (·.1)).getD 0) (bits fn 5 3)

/-- The element format of a slot, or fp32 for an unused one. -/
def Slot.F (sl : Slot) : Fmt := sl.fmt.getD fmtF32

/-- The scale operand is used: MX or per row (R417). -/
def Slot.scUsed (sl : Slot) : Bool := sl.smode == 1 || sl.smode == 2

/-- The slot fault of an instruction that accepts an element where `ok` holds (R232). -/
def slotFault (sl : Slot) (ok : Bool) : Option Nat :=
  if sl.fmtc == 0 then some (2 * 32) else if !ok then some (2 * 32 + 1) else none

/-- The rounding mode in force: that of the slot under SLOT; SR without a random source is RNE (R218, R220). -/
def modeOf (sl : Slot) (rm : Nat) : Nat := if rm == 6 then (if sl.rnd == 5 then 0 else sl.rnd) else rm

/-- A value scaled for encoding, with whether a NaN arose (R417). -/
def scaleEnc (sl : Slot) (x : XV) (sc : Nat) : XV × Bool :=
  match sl.smode with
  | 1 => if sc % 256 == 255 then (.nan, false) else (x.scale (127 - (sc % 256 : Nat)), false)
  | 2 => let r := f32 sc; let q := x.div r; (q, q.isNan && !x.isNan && !r.isNan)
  | 3 => (x.div (f32 sl.tscale), false)
  | _ => (x, false)

/-- An element scaled for decoding, with whether a NaN arose (R417). -/
def scaleDec (sl : Slot) (y : XV) (sc : Nat) : XV × Bool :=
  match sl.smode with
  | 1 => if sc % 256 == 255 then (.nan, false) else (y.scale ((sc % 256 : Nat) - 127), false)
  | 2 => let r := f32 sc; let q := y.mul r; (q, q.isNan && !y.isNan && !r.isNan)
  | 3 => (y.mul (f32 sl.tscale), false)
  | _ => (y, false)

/-- A value encoded into the slot's element (R417, R229). -/
def encodeElem (sl : Slot) (rm rb sc : Nat) (x : XV) : Nat × Nat :=
  let y := scaleEnc sl x sc
  let r := conv sl.F (modeOf sl rm) rb sl.sat y.1
  (r.1, r.2 ||| (if y.2 then fstInv else 0))

/-- An element decoded to FP32 (R417). -/
def decodeElem (sl : Slot) (rm sc code : Nat) : Nat × Nat :=
  let e := sl.F.decode code
  let y := scaleDec sl e.1 sc
  let r := conv fmtF32 (modeOf sl rm) 0 false y.1
  (r.1, r.2 ||| e.2 ||| (if y.2 then fstInv else 0))

/-- The shape of a conversion: the classes and counts of DST and SA, whether it names a slot, whether it decodes, and
its FN mask. `fnOk` is a further FN condition. -/
def shapeConv (f : FmtA) (sl : Slot) (dn an : Nat) (aAcc : Acc) (slot dec up : Bool) (mask : Nat) (fnOk : Bool) :
    Shape :=
  let once := isScalar f.dst
  let rm := f.fn.toNat % 8
  let sb : Option Nat := if rm == 5 && !dec then some 1 else none
  let sc : Option Nat := if slot && sl.scUsed then some 1 else none
  { enc := [dstChk (dstAcc dn) f.dst, cwChk false f.cw, srcChk 10 aAcc once f.sa, optSrc 11 sb once f.sb,
      optSrc 12 sc once f.sc, need 8 fnOk, fnChk f.fn.toNat mask, rmChk rm slot (!dec)]
    srcs := (if up then [{ o := f.dst, n := 1 }] else []) ++ useOf f.sa an :: (optUse sb f.sb ++ optUse sc f.sc)
    dsts := [{ o := f.dst, n := dn }]
    once := once }

/-- The random bits of a conversion, from SB. -/
def rbB (s : State) (u : Ux) (f : FmtA) (p : Pos) : Nat := (rd s u f.sb.reg p).toNat

/-- The scale operand of a conversion, from SC. -/
def scC (s : State) (u : Ux) (sl : Slot) (f : FmtA) (p : Pos) : Nat :=
  if sl.smode == 2 then rdF s u f.sc.reg p else (rd s u f.sc.reg p).toNat

/-- KIND of CVT (R418). -/
def cvtKind (f : FmtA) : Nat := bits f.fn.toNat 8 6

/-- CVT (R417, R418). -/
def shapeCvt (f : FmtA) (sl : Slot) : Shape :=
  let k := cvtKind f
  shapeConv f sl 1 1 (dataAcc 1 (isScalar f.dst)) (k < 2) (k == 1) false (if k < 2 then 0x1FF else 0x1C7) (k < 6)

/-- FP32 to a 32-bit integer, saturating: FST.SAT for a NaN or a value out of range, which for a finite one is an
overflow too (R229, R418). -/
def toInt32 (signed : Bool) (mode rb : Nat) (x : XV) : Nat × Nat :=
  let lo : Int := if signed then -(2 ^ 31) else 0
  let hi : Int := if signed then 2 ^ 31 - 1 else 2 ^ 32 - 1
  match x with
  | .nan => (0, fstSat)
  | .inf s => (wrap 32 (if s then lo else hi), fstSat)
  | .num s n d =>
    let m := roundInt mode rb s n d
    let y : Int := if s then -(m : Int) else m
    if outside (lo, hi) y then (wrap 32 (clamp (lo, hi) y), fstSat ||| fstOvf) else (wrap 32 y, 0)

/-- The result of CVT in a lane (R418). -/
def cvtLane (s : State) (u : Ux) (f : FmtA) (sl : Slot) (p : Pos) : Nat × Nat :=
  let rm := f.fn.toNat % 8
  let a := (rd s u f.sa.reg p).toNat
  match cvtKind f with
  | 0 => encodeElem sl rm (rbB s u f p) (scC s u sl f p) (xF s u f.sa.reg p)
  | 1 => decodeElem sl rm (scC s u sl f p) a
  | 2 => toInt32 true rm (rbB s u f p) (xF s u f.sa.reg p)
  | 3 => toInt32 false rm (rbB s u f p) (xF s u f.sa.reg p)
  | 4 => conv fmtF32 rm (rbB s u f p) false (xInt (sext 32 a))
  | _ => conv fmtF32 rm (rbB s u f p) false (xInt a)

/-- CVT: one value per lane (R418). -/
def execCvt (h : Hdr) (f : FmtA) (s : State) : Host.Outcome State Fault Refusal :=
  issue h (shapeCvt f (slotHere s f.fn.toNat)) s fun u s =>
    let sl := slotAt s u.gid (bits f.fn.toNat 5 3)
    match (if cvtKind f < 2 then slotFault sl sl.elem else none) with
    | some c => trapOf c
    | none => floatEff u s f.dst 0 32 false fun p => let r := cvtLane s u f sl p; { x := r.1, fst := r.2 }

/-- CVPK2 and CVPK4: SA is a v group of n (R419). -/
def shapeCvpk (f : FmtA) (sl : Slot) (n : Nat) : Shape :=
  shapeConv f sl 1 n { v := !isScalar f.dst } true false (f.fn.getLsbD 9) 0x23F true

/-- The packed element codes of a lane (R419). -/
def cvpkLane (s : State) (u : Ux) (f : FmtA) (sl : Slot) (n : Nat) (p : Pos) : FRes :=
  let w := sl.F.width
  let up := f.fn.getLsbD 9
  let one (j : Nat) : Nat × Nat :=
    encodeElem sl (f.fn.toNat % 8) (rbB s u f p) (scC s u sl f p) (xF s u (regPlus f.sa.reg j) p)
  let old := if up then (rd s u f.dst p).toNat % 2 ^ (n * w) else 0
  { x := (List.range n).foldl (fun x j => x + (one j).1 * 2 ^ (w * (if up then n + j else j))) old
    fst := (List.range n).foldl (fun x j => x ||| (one j).2) 0 }

/-- The effect of CVPK2 and CVPK4 with the widths they accept (R419). -/
def cvpkEff (f : FmtA) (n wide : Nat) (u : Ux) (s : State) : Res :=
  let sl := slotAt s u.gid (bits f.fn.toNat 5 3)
  let w := sl.F.width
  let ok := sl.elem && (w == wide || w == wide / 2) && !(f.fn.getLsbD 9 && w == wide)
  match slotFault sl ok with
  | some c => trapOf c
  | none => floatEff u s f.dst 0 32 false (cvpkLane s u f sl n)

/-- CVPK2: 16- and 8-bit elements (R419). -/
def execCvpk2 (h : Hdr) (f : FmtA) (s : State) : Host.Outcome State Fault Refusal :=
  issue h (shapeCvpk f (slotHere s f.fn.toNat) 2) s fun u s => cvpkEff f 2 16 u s

/-- CVPK4: 8- and 4-bit elements (R419). -/
def execCvpk4 (h : Hdr) (f : FmtA) (s : State) : Host.Outcome State Fault Refusal :=
  issue h (shapeCvpk f (slotHere s f.fn.toNat) 4) s fun u s => cvpkEff f 4 8 u s

/-- Registers that UNPK writes. -/
def unpkN (f : FmtA) : Nat := if f.fn.getLsbD 8 then 4 else 2

/-- UNPK (R420). -/
def shapeUnpk (f : FmtA) (sl : Slot) : Shape :=
  let sh := shapeConv f sl (unpkN f) 1 (dataAcc 1 (isScalar f.dst)) true true false 0x73F true
  { sh with enc := [dstChk { v := true, s := true, sp := true, z := true } f.dst] ++ sh.enc.drop 1 }

/-- A result of several registers written at once to consecutive registers. -/
def writeRun (s : State) (u : Ux) (dst : Opnd) (g : Pos → List Nat) : State :=
  (workLanes u (isScalar dst)).foldl (fun st p =>
    (g p).zipIdx.foldl (fun st x => wr st (regPlus dst x.2) p (BitVec.ofNat 32 x.1)) st) s

/-- UNPK: elements decoded into consecutive registers (R420). -/
def execUnpk (h : Hdr) (f : FmtA) (s : State) : Host.Outcome State Fault Refusal :=
  issue h (shapeUnpk f (slotHere s f.fn.toNat)) s fun u s =>
    let sl := slotAt s u.gid (bits f.fn.toNat 5 3)
    let w := sl.F.width
    let n := unpkN f
    let part := bits f.fn.toNat 10 9
    let ok := sl.elem && (part + 1) * n ≤ (if w == 6 then 1 else 32 / w)
    match slotFault sl ok with
    | some c => trapOf c
    | none =>
      let el (p : Pos) (j : Nat) : Nat × Nat :=
        decodeElem sl (f.fn.toNat % 8) (scC s u sl f p) ((rd s u f.sa.reg p).toNat / 2 ^ (w * (part * n + j)))
      .ok { st := writeRun s u f.dst fun p => (List.range n).map fun j => (el p j).1
            fst := (workLanes u (isScalar f.dst)).map fun p =>
              (p.gid, (List.range n).foldl (fun x j => x ||| (el p j).2) 0) }

/-! ### 6-bit streams, i4 packing and shared scales (R421 to R423) -/

/-- PK6 and UPK6: group scope, one source (R421). -/
def shapePk6 (f : FmtA) : Shape :=
  { shapeF f 1 (some 1) none none .no 0 false with scopes := [.group] }

/-- Byte k of a list of 6-bit codes, four to three bytes (R225). -/
def streamByte (codes : Nat → Nat) (k : Nat) : Nat :=
  let j := k / 3
  (codes (4 * j) + codes (4 * j + 1) * 64 + codes (4 * j + 2) * 4096 + codes (4 * j + 3) * 262144) / 256 ^ (k % 3) % 256

/-- PK6: lanes' codes to 24 bytes in lanes 0 to 5 (R421). -/
def execPk6 (h : Hdr) (f : FmtA) (s : State) : Host.Outcome State Fault Refusal :=
  issue h (shapePk6 f) s fun u s =>
    let code (k : Nat) : Nat := match u.active.find? fun p => p.lane == k with
      | some p => (rd s u f.sa.reg p).toNat % 64
      | none => 0
    .ok { st := writeLanes s u f.dst 32 0 fun p =>
      (if p.lane < 6 then ((List.range 4).map fun j => streamByte code (4 * p.lane + j) * 256 ^ j).foldl (· + ·) 0
       else 0, 0) }

/-- Reads of registers in lanes that the source's empty policy covers beside the active ones: a fault, or the wait
for full cells (R202, R424). -/
def needCells (s : State) (l : List (RegUse × List Pos)) : Option Stop :=
  match firstSome (l.flatMap fun x => x.2.map fun p => readFault s x.1 p) with
  | some t => some (.trap t)
  | none =>
    match l.flatMap fun x => emptyCells s x.1 x.2 with
    | [] => none
    | cells => some (.wait (.cells cells))

/-- UPK6: its source is read in lanes 0 to 5 alone (R421). -/
def shapeUpk6 (f : FmtA) : Shape := { shapePk6 f with srcs := [{ o := f.sa.reg, away := true }] }

/-- UPK6: 24 bytes from lanes 0 to 5, active or not, to each active lane's code (R421). -/
def execUpk6 (h : Hdr) (f : FmtA) (s : State) : Host.Outcome State Fault Refusal :=
  issue h (shapeUpk6 f) s fun u s =>
    let lanes := (List.range 6).map fun k => (⟨k, u.gid, k⟩ : Pos)
    if u.active.isEmpty then .ok { st := s }
    else match needCells s [(useOf f.sa 1, lanes)] with
    | some e => .error e
    | none =>
      let stream := leVal (lanes.flatMap fun p => leBytes 4 (rd s u f.sa.reg p).toNat)
      .ok { st := writeLanes s u f.dst 32 0 fun p => (stream / 64 ^ p.lane % 64, 0) }

/-- PKI4: SH in FN[2:0] (R422). -/
def shapePki4 (f : FmtA) : Shape := shapeF f 1 (some 1) (some 1) none .no 7 false

/-- An i8 element scaled to i4s: its code and whether it saturated (R422). -/
def i4Of (sh x : Nat) : Nat × Bool :=
  let y := rneDiv (sext 8 x) (2 ^ sh)
  let z := clamp (-7, 7) y
  (wrap 4 z, y != z)

/-- PKI4 (R422). -/
def execPki4 (h : Hdr) (f : FmtA) (s : State) : Host.Outcome State Fault Refusal :=
  issue h (shapePki4 f) s fun u s => floatEff u s f.dst 0 32 false fun p =>
    let a := (rd s u f.sa.reg p).toNat
    let b := (rd s u f.sb.reg p).toNat
    let el (i : Nat) : Nat × Bool := i4Of (f.fn.toNat % 8) ((if i < 4 then a else b) / 256 ^ (i % 4) % 256)
    { x := ((List.range 8).map fun i => (el i).1 * 16 ^ i).foldl (· + ·) 0
      fst := if (List.range 8).any fun i => (el i).2 then fstSat else 0 }

/-- NR and SEG of QSCL (R423). -/
def qsclN (f : FmtA) : Nat := 2 ^ bits f.fn.toNat 7 6
def qsclSeg (f : FmtA) : Nat := bits f.fn.toNat 10 8

/-- QSCL: group scope; one, two or four registers (R423). -/
def shapeQscl (f : FmtA) : Shape :=
  let once := isScalar f.dst
  { scopes := [.group]
    enc := [dstChk (dstAcc 1) f.dst, cwChk false f.cw,
      srcChk 10 (if bits f.fn.toNat 7 6 == 0 then dataAcc 1 once else pairAcc once) once f.sa,
      unusedSrc 11 f.sb, unusedSrc 12 f.sc, need 8 (bits f.fn.toNat 7 6 != 3 && qsclSeg f < 6),
      fnChk f.fn.toNat 0x7F8]
    srcs := [useOf f.sa (qsclN f)]
    dsts := [{ o := f.dst }]
    once := once }

/-- QSCL: the shared scale of each segment's active lanes (R227, R423). -/
def execQscl (h : Hdr) (f : FmtA) (s : State) : Host.Outcome State Fault Refusal :=
  issue h (shapeQscl f) s fun u s =>
    let sl := slotAt s u.gid (bits f.fn.toNat 5 3)
    match slotFault sl sl.mx with
    | some c => trapOf c
    | none => .ok { st := writeLanes s u f.dst 32 0 fun p =>
      (mxScale sl.F ((u.active.filter fun q => q.lane / 2 ^ qsclSeg f == p.lane / 2 ^ qsclSeg f).flatMap fun q =>
        (List.range (qsclN f)).map fun k => xF s u (regPlus f.sa.reg k) q), 0) }

end Sys2Proof.Machine
end

