-- ==== Sys2Proof/Machine/CrossLane.lean ====
section
/-!
DEFINITION. Row 0x7 of the opcode map: cross-lane instructions, moves and condition codes (R188, R189, R424 to R431).

The participants of a unit are its issuing lanes at lane scope, and at a wider scope every lane of every member that holds
a thread (R424, log 25).
-/

namespace Sys2Proof.Machine

/-! ### Results over a unit (R176, R424) -/

/-- One lane of every member of the unit, for a scalar copy. -/
def memberPos (u : Ux) : List Pos := u.members.map fun m => ⟨0, m, 0⟩

/-- The lanes that results go to: with an s destination one in every member, the value being that of the first of
`lanes` (R176, R371, R424). -/
def targets (u : Ux) (dst : Opnd) (lanes : List Pos) : List (Pos × Pos) :=
  if isScalar dst then
    match lanes with
    | [] => []
    | p :: _ => (memberPos u).map fun m => (m, p)
  else lanes.map fun p => (p, p)

/-- The effect of results of `w` bits in lanes, with the FST bits of each (R200, R424). -/
def crossEff (u : Ux) (s : State) (dst : Opnd) (w : Nat) (long : Bool) (lanes : List Pos) (g : Pos → FRes) : Eff :=
  let tg := targets u dst lanes
  let fst := lanes.map fun p => (p.gid, (g p).fst)
  let now := match dst with
    | .t _ => true
    | _ => !long
  if now then { st := tg.foldl (fun st x => wrPat st w dst x.1 (g x.2).x) s, fst := fst }
  else { st := s, fst := fst, long := tg.flatMap fun x => longCells dst w x.1 (g x.2).x }

/-- The wait for a destination to be full in lanes that are not all active (R203). -/
def dstFull (s : State) (u : Ux) (dst : Opnd) (lanes : List Pos) : List (RegUse × List Pos) :=
  [({ o := dst }, if isScalar dst then memberPos u else lanes)]

/-- A body that first needs cells of some lanes. -/
def withCells (s : State) (l : List (RegUse × List Pos)) (e : Eff) : Res :=
  match needCells s l with
  | some st => .error st
  | none => .ok e

/-- The participants of a unit: at lane scope its issuing lanes, else the lanes of every member that hold a thread, those
at a greater PC included (R424, log 25). -/
def participants (s : State) (u : Ux) : List Pos :=
  if u.scope = .lane then u.issuing
  else (u.members.zipIdx.map fun m => ((s.g m.1).lanesIn 255).map fun k => (⟨32 * m.2 + k, m.1, k⟩ : Pos)).flatten

/-- The participant at a position. -/
def at_ (s : State) (u : Ux) (w : Int) : Option Pos := (participants s u).find? fun p => (p.w : Int) == w

/-- The shape of a cross-lane instruction: scopes, sources that each may vary, the FN mask and a further condition.
Sources read in lanes other than the active ones are left to the body. -/
def shapeX (f : FmtA) (scopes : List Scope) (a b c : Option (RegUse × Bool)) (flags : Bool) (mask : Nat) (ok : Bool) :
    Shape :=
  let src (cause : Nat) (x : Src) (o : Option (RegUse × Bool)) : Option Nat :=
    match o with
    | none => unusedSrc cause x
    | some (_, uni) => srcChk cause (dataAcc 1 uni) uni x
  let uses (o : Option (RegUse × Bool)) : List RegUse :=
    match o with
    | none => []
    | some (r, _) => [r]
  { scopes := scopes
    enc := [dstChk (dstAcc 1) f.dst, cwChk flags f.cw, src 10 f.sa a, src 11 f.sb b, src 12 f.sc c, need 8 ok,
      fnChk f.fn.toNat mask]
    srcs := uses a ++ uses b ++ uses c
    dsts := [{ o := f.dst }]
    once := isScalar f.dst }

/-- A source that the active lanes read. -/
def live (x : Src) : RegUse := useOf x 1

/-- A source that the body reads in lanes of its own choice: its registers are checked here, its cells there. -/
def away (x : Src) : RegUse := { o := x.reg, n := 1, away := true }

/-! ### Pulls (R426) -/

/-- The source position of PULL, or the lane itself. -/
def pullFrom (f : FmtA) (u : Ux) (s : State) (p : Pos) : Pos :=
  let sg := bits f.fn.toNat 5 2
  let size := 2 ^ (if u.scope == .set then sg else Nat.min sg 5)
  let base := p.w / size * size
  let b := (rd s u f.sb.reg p).toNat
  let j : Int := match f.fn.toNat % 4 with
    | 0 => ((base + b : Nat) : Int)
    | 1 => (p.w : Int) + sext 32 b
    | 2 => ((p.w ^^^ b : Nat) : Int)
    | _ => (base : Int) + (((p.w - base : Nat) : Int) + sext 32 b) % (size : Int)
  let inside : Bool := f.fn.toNat % 4 == 3 || !(outside ((base : Int), ((base + size : Nat) : Int) - 1) j)
  if inside then (at_ s u j).getD p else p

/-- PULL: lane, group and set scope; SEG to 9 (R425, R426). -/
def shapePull (f : FmtA) : Shape :=
  let once := isScalar f.dst
  shapeX f [.lane, .group, .set] (some (away f.sa, once)) (some (live f.sb, once)) none false 0x3F
    (bits f.fn.toNat 5 2 < 10)

/-- PULL (R426). -/
def execPull (h : Hdr) (f : FmtA) (s : State) : Host.Outcome State Fault Refusal :=
  issue h (shapePull f) s fun u s =>
    withCells s ((live f.sa, u.active.map (pullFrom f u s)) :: dstFull s u f.dst u.active) <|
      crossEff u s f.dst 32 true u.active fun p => { x := rdPat s u 32 f.sa.reg (pullFrom f u s p) }

/-- The source of PULLT in a lane: a of a position, c of one 32 on, or the lane's own a. -/
def pulltFrom (f : FmtA) (u : Ux) (s : State) (p : Pos) : Src × Pos :=
  let j := (rd s u f.sb.reg p).toNat % 64
  match at_ s u (j % 32 : Nat) with
  | some q => (if j < 32 then f.sa else f.sc, q)
  | none => (f.sa, p)

/-- PULLT: lane and group scope (R425). -/
def shapePullt (f : FmtA) : Shape :=
  let once := isScalar f.dst
  shapeX f [.lane, .group] (some (away f.sa, once)) (some (live f.sb, once)) (some (away f.sc, once)) false 0 true

/-- PULLT (R426). -/
def execPullt (h : Hdr) (f : FmtA) (s : State) : Host.Outcome State Fault Refusal :=
  issue h (shapePullt f) s fun u s =>
    let reads := u.active.map fun p => let x := pulltFrom f u s p; (useOf x.1 1, [x.2])
    withCells s (reads ++ dstFull s u f.dst u.active) <|
      crossEff u s f.dst 32 true u.active fun p =>
        let x := pulltFrom f u s p
        { x := rdPat s u 32 x.1.reg x.2 }

/-- BCST: all scopes; SB is uniform, SA may vary (R424, R425). -/
def shapeBcst (f : FmtA) : Shape :=
  shapeX f [.lane, .group, .set, .block] (some (away f.sa, false)) (some (live f.sb, true)) none false 0 true

/-- BCST: a of position b, or 0 (R425). -/
def execBcst (h : Hdr) (f : FmtA) (s : State) : Host.Outcome State Fault Refusal :=
  issue h (shapeBcst f) s fun u s =>
    match u.active with
    | [] => .ok { st := s }
    | p0 :: _ =>
      let q := at_ s u ((rd s u f.sb.reg p0).toNat : Nat)
      withCells s ((live f.sa, q.toList) :: dstFull s u f.dst u.active) <|
        crossEff u s f.dst 32 true u.active fun _ =>
          { x := match q with
            | some q => rdPat s u 32 f.sa.reg q
            | none => 0 }

/-! ### Votes (R427) -/

/-- POLL: all scopes, a condition result (R425). -/
def shapePoll (f : FmtA) : Shape :=
  shapeX f [.lane, .group, .set, .block] none none none true 0 true

/-- POLL: the count of true votes and the vote flags, in every participant (R427). -/
def execPoll (h : Hdr) (f : FmtA) (s : State) : Host.Outcome State Fault Refusal :=
  issue h (shapePoll f) s fun u s =>
    let all := participants s u
    let n := (all.filter (guardHolds s h)).length
    let t := all.length
    let fl := mkFlags (decide (t < 2 * n)) (n == 0) (n == t) (0 < n && n < t)
    let e := crossEff u s f.dst 32 true all fun _ => { x := n }
    let st := if f.cw.getLsbD 2 then all.foldl (fun st p => wrC st (f.cw.toNat % 4) p fl) e.st else e.st
    withCells s (dstFull s u f.dst all) { e with st := st }

/-- VMASK: lane and group scope (R425). -/
def shapeVmask (f : FmtA) : Shape := shapeX f [.lane, .group] none none none false 0 true

/-- VMASK: the mask of true votes, in every participant (R427). -/
def execVmask (h : Hdr) (f : FmtA) (s : State) : Host.Outcome State Fault Refusal :=
  issue h (shapeVmask f) s fun u s =>
    let all := participants s u
    withCells s (dstFull s u f.dst all) <|
      crossEff u s f.dst 32 true all fun _ => { x := maskOf ((all.filter (guardHolds s h)).map fun p => p.w) }

/-! ### Reductions (R428) -/

/-- The identity of a reduction. -/
def redIdentity (op : Nat) : Nat :=
  match op with
  | 1 => 0x7FFFFFFF
  | 2 => 0x80000000
  | 3 => 0xFFFFFFFF
  | 5 => 0xFFFFFFFF
  | 9 => 0x7F800000
  | 10 => 0xFF800000
  | _ => 0

/-- Two terms combined; the FP32 sum is not formed so. -/
def redStep (op a b : Nat) : Nat :=
  match op with
  | 0 => (a + b) % 2 ^ 32
  | 1 => if sext 32 a ≤ sext 32 b then a else b
  | 2 => if sext 32 a ≤ sext 32 b then b else a
  | 3 => Nat.min a b
  | 4 => Nat.max a b
  | 5 => a &&& b
  | 6 => a ||| b
  | 7 => a ^^^ b
  | 9 => minMax fmtF32 false a b
  | _ => minMax fmtF32 true a b

/-- The reduction of a list of patterns, with its FST bits (R428). -/
def reduce (op : Nat) (l : List Nat) : Nat × Nat :=
  match l with
  | [] => (redIdentity op, 0)
  | x :: rest =>
    if op == 8 then
      let vs := l.map f32
      arith fmtF32 0 0 vs (xSum 0 vs)
    else ((rest.foldl (redStep op) (if op == 9 || op == 10 then minMax fmtF32 false x x else x)), 0)

/-- LRED: all scopes; SA may vary (R424, R425). -/
def shapeLred (f : FmtA) : Shape :=
  shapeX f [.lane, .group, .set, .block] (some (live f.sa, false)) none none false 0xF (f.fn.toNat % 16 < 11)

/-- The pattern that a reduction reads: a constant stands for its value in an FP32 operation (R344). -/
def redTerm (s : State) (u : Ux) (op : Nat) (o : Opnd) (p : Pos) : Nat :=
  if op ≥ 8 then rdF s u o p else (rd s u o p).toNat

/-- LRED (R428). -/
def execLred (h : Hdr) (f : FmtA) (s : State) : Host.Outcome State Fault Refusal :=
  issue h (shapeLred f) s fun u s =>
    let op := f.fn.toNat % 16
    let r := reduce op (u.active.map (redTerm s u op f.sa.reg))
    withCells s (dstFull s u f.dst u.active) <|
      crossEff u s f.dst 32 true u.active fun _ => { x := r.1, fst := r.2 }

/-- LSCAN: lane, group and set scope (R425). -/
def shapeLscan (f : FmtA) : Shape :=
  shapeX f [.lane, .group, .set] (some (live f.sa, isScalar f.dst)) none none false 0x1F (f.fn.toNat % 16 < 11)

/-- LSCAN: the reduction up to each position, inclusive or not (R428). -/
def execLscan (h : Hdr) (f : FmtA) (s : State) : Host.Outcome State Fault Refusal :=
  issue h (shapeLscan f) s fun u s =>
    let op := f.fn.toNat % 16
    let excl := f.fn.getLsbD 4
    withCells s (dstFull s u f.dst u.active) <|
      crossEff u s f.dst 32 true u.active fun p =>
        let r := reduce op ((u.active.filter fun q => q.w < p.w || (!excl && q.w == p.w)).map (redTerm s u op f.sa.reg))
        { x := r.1, fst := r.2 }

/-- PEERS: lane and group scope; a pair with W64 (R425). -/
def shapePeers (f : FmtA) : Shape :=
  let once := isScalar f.dst
  let sh := shapeX f [.lane, .group] (some (live f.sa, once)) none none false 3 true
  if f.fn.getLsbD 0 then
    { sh with enc := sh.enc.take 2 ++ [srcChk 10 (pairAcc once) once f.sa] ++ sh.enc.drop 3, srcs := [useOf f.sa 2] }
  else sh

/-- PEERS: the active positions with the lane's value, or their count (R425). -/
def execPeers (h : Hdr) (f : FmtA) (s : State) : Host.Outcome State Fault Refusal :=
  issue h (shapePeers f) s fun u s =>
    let w := if f.fn.getLsbD 0 then 64 else 32
    crossEffOk u s f <| fun p =>
      let same := u.active.filter fun q => rdPat s u w f.sa.reg q == rdPat s u w f.sa.reg p
      { x := if f.fn.getLsbD 1 then same.length else maskOf (same.map fun q => q.w) }
where
  /-- Results of the active lanes. -/
  crossEffOk (u : Ux) (s : State) (f : FmtA) (g : Pos → FRes) : Res :=
    withCells s (dstFull s u f.dst u.active) (crossEff u s f.dst 32 true u.active g)

/-! ### REORD (R188, R189, R429) -/

/-- First register and count of REORD's live mask. -/
def reordF (f : FmtA) : Nat := f.fn.toNat % 256
def reordN (f : FmtA) : Nat := bits f.fn.toNat 16 8

/-- REORD: set and block scope; DST is the zero code, SA a v register (R429). -/
def shapeReord (f : FmtA) : Shape :=
  { scopes := [.set, .block]
    enc := [dstChk { z := true } f.dst, cwChk false f.cw, srcChk 10 { v := true } false f.sa, unusedSrc 11 f.sb,
      unusedSrc 12 f.sc, need 8 (reordF f + reordN f ≤ 256), fnChk f.fn.toNat 0x1FFFF]
    srcs := [live f.sa] ++ (if reordN f == 0 then [] else [{ o := .v (reordF f), n := reordN f, align := false }])
    perCore := true }

/-- The thread at position `p` moves to position `q`: identity and masked registers, read from `old` (R189). -/
def moveThread (old : State) (f : FmtA) (st : State) (p q : Pos) : State :=
  let a := old.g p.gid
  st.modGroup q.gid fun g =>
    { g with
      tlin := FMap.set 0 g.tlin q.lane (FMap.get 0 a.tlin p.lane)
      v := (List.range (reordN f)).foldl (fun m k =>
        let n := reordF f + k
        FMap.set 0 m (32 * n + q.lane) (FMap.get 0 a.v (32 * n + p.lane))) g.v }

/-- REORD: the non-exited threads of the unit sorted by key, the false guards last, ties in their old order. Every position holds
the PC after it then, one that stood at a greater PC too (R188, R189, R429, log 149). -/
def execReord (h : Hdr) (f : FmtA) (s : State) : Host.Outcome State Fault Refusal :=
  issue h (shapeReord f) s fun u s =>
    let mask : RegUse := { o := .v (reordF f), n := reordN f }
    let key (p : Pos) : Nat := if guardHolds s h p then (rd s u f.sa.reg p).toNat else 2 ^ 32
    let all := participants s u
    let sorted := sortBy (fun a b => decide (key a < key b) || (key a == key b && decide (a.w ≤ b.w))) all
    withCells s [(mask, all), (live f.sa, all.filter (guardHolds s h))]
      { st := (sorted.zip all).foldl (fun st x => moveThread s f st x.1 x.2) s
        moves := (all.filter fun p => !u.issuing.contains p).map fun p => (p, nextPc u.pc), fuses := true }

/-! ### PERM, moves and condition codes (R430, R431) -/

/-- PERM: lane, group and set scope (R425). -/
def shapePerm (f : FmtA) : Shape :=
  let once := isScalar f.dst
  shapeX f [.lane, .group, .set] (some (live f.sa, once)) (some (live f.sb, once)) none false 0 true

/-- PERM: each position's value pushed, the last writer standing (R430). -/
def execPerm (h : Hdr) (f : FmtA) (s : State) : Host.Outcome State Fault Refusal :=
  issue h (shapePerm f) s fun u s =>
    withCells s (dstFull s u f.dst u.active) <|
      crossEff u s f.dst 32 true u.active fun p =>
        match (u.active.filter fun q => (rd s u f.sb.reg q).toNat == p.w).getLast? with
        | some q => { x := rdPat s u 32 f.sa.reg q }
        | none => { x := rdPat s u 32 f.dst p }

/-- Registers that MOV copies. -/
def movN (f : FmtA) : Nat := 2 ^ (f.fn.toNat % 4)

/-- MOV: one, two or four registers (R425). -/
def shapeMov (f : FmtA) : Shape :=
  let once := isScalar f.dst
  let sh := shapeF f (movN f) (some 1) none none .no 3 false
  { sh with
    enc := [dstChk (dstAcc (movN f)) f.dst, cwChk false f.cw,
      srcChk 10 (if movN f == 1 then dataAcc 1 once else pairAcc once) once f.sa,
      unusedSrc 11 f.sb, unusedSrc 12 f.sc, need 8 (f.fn.toNat % 4 != 3), fnChk f.fn.toNat 3]
    srcs := [useOf f.sa (movN f)] }

/-- MOV: a copy of bits (R425). -/
def execMov (h : Hdr) (f : FmtA) (s : State) : Host.Outcome State Fault Refusal :=
  issue h (shapeMov f) s fun u s =>
    .ok { st := writeRun s u f.dst fun p =>
      (List.range (movN f)).map fun k => (rd s u (regPlus f.sa.reg k) p).toNat }

/-- MOVS: lane and set scope (R425). -/
def shapeMovs (f : FmtA) : Shape :=
  let once := isScalar f.dst
  shapeX f [.lane, .set] (some (live f.sa, once)) (some (live f.sb, once)) none false 0 true

/-- MOVS: a + w x b (R425). -/
def execMovs (h : Hdr) (f : FmtA) (s : State) : Host.Outcome State Fault Refusal :=
  issue h (shapeMovs f) s fun u s =>
    withCells s (dstFull s u f.dst u.active) <|
      crossEff u s f.dst 32 false u.active fun p =>
        { x := ((rd s u f.sa.reg p).toNat + p.w * (rd s u f.sb.reg p).toNat) % 2 ^ 32 }

/-- The condition register that a c code names. -/
def cNum : Opnd → Nat
  | .c n => n
  | _ => 0

/-- CCSET: DST is a c register; SA is unused at KIND 3, and FLAGS is 0 at the others (R431). -/
def shapeCcset (f : FmtA) : Shape :=
  let raw := f.fn.toNat % 4 == 3
  { enc := [dstChk { c := true } f.dst, cwChk false f.cw, optSrc 10 (if raw then none else some 1) false f.sa,
      unusedSrc 11 f.sb, unusedSrc 12 f.sc, need 8 (raw || bits f.fn.toNat 5 2 == 0), fnChk f.fn.toNat 0x3F]
    srcs := if raw then [] else [live f.sa] }

/-- CCSET (R431). -/
def execCcset (h : Hdr) (f : FmtA) (s : State) : Host.Outcome State Fault Refusal :=
  issue h (shapeCcset f) s fun u s =>
    let fl (p : Pos) : BitVec 4 :=
      let a := (rd s u f.sa.reg p).toNat
      match f.fn.toNat % 4 with
      | 0 => flagsLogic 32 a
      | 1 => fpFlags (rdF s u f.sa.reg p)
      | 2 => BitVec.ofNat 4 a
      | _ => BitVec.ofNat 4 (bits f.fn.toNat 5 2)
    .ok { st := u.active.foldl (fun st p => wrC st (cNum f.dst) p (fl p)) s }

/-- CCMOV: SA names a c register; DST a c register or a data register (R431). -/
def shapeCcmov (f : FmtA) : Shape :=
  let once := isScalar f.dst
  { enc := [dstChk { v := true, s := true, sp := true, t := true, c := true, z := true } f.dst, cwChk false f.cw,
      srcChk 10 { c := !once } false f.sa, unusedSrc 11 f.sb, unusedSrc 12 f.sc, fnChk f.fn.toNat 0]
    srcs := [live f.sa]
    dsts := [{ o := f.dst }]
    once := once }

/-- CCMOV (R431). -/
def execCcmov (h : Hdr) (f : FmtA) (s : State) : Host.Outcome State Fault Refusal :=
  issue h (shapeCcmov f) s fun u s =>
    match f.dst with
    | .c n => .ok { st := u.active.foldl (fun st p => wrC st n p ((s.g p.gid).creg (cNum f.sa.reg) p.lane)) s }
    | _ => .ok { st := writeLanes s u f.dst 32 0 fun p => ((rd s u f.sa.reg p).toNat, 0) }

/-- CCLOG: three c registers (R431). -/
def shapeCclog (f : FmtA) : Shape :=
  { enc := [dstChk { c := true } f.dst, cwChk false f.cw, srcChk 10 { c := true } false f.sa,
      srcChk 11 { c := true } false f.sb, unusedSrc 12 f.sc, fnChk f.fn.toNat 0xFFF]
    srcs := [live f.sa, live f.sb] }

/-- CCLOG: Z := LUT[2 p + q] (R431). -/
def execCclog (h : Hdr) (f : FmtA) (s : State) : Host.Outcome State Fault Refusal :=
  issue h (shapeCclog f) s fun u s =>
    let r (p : Pos) : Bool :=
      let g := s.g p.gid
      let a := condHolds (condOf (bits f.fn.toNat 7 4)) (g.creg (cNum f.sa.reg) p.lane)
      let b := condHolds (condOf (bits f.fn.toNat 11 8)) (g.creg (cNum f.sb.reg) p.lane)
      tb f.fn.toNat (2 * b2n a + b2n b)
    .ok { st := u.active.foldl (fun st p => wrC st (cNum f.dst) p (mkFlags false (r p) false false)) s }

/-- FIRST: all scopes; SA may vary, and is read at one position unless IDX is set (R425). -/
def shapeFirst (f : FmtA) : Shape :=
  shapeX f [.lane, .group, .set, .block] (some (away f.sa, false)) none none false 3 true

/-- FIRST: a of the lowest or highest active position, or that position (R425). -/
def execFirst (h : Hdr) (f : FmtA) (s : State) : Host.Outcome State Fault Refusal :=
  issue h (shapeFirst f) s fun u s =>
    match (if f.fn.getLsbD 0 then u.active.getLast? else u.active.head?) with
    | none => .ok { st := s }
    | some q =>
      let idx := f.fn.getLsbD 1
      withCells s ((if idx then [] else [(live f.sa, [q])]) ++ dstFull s u f.dst u.active) <|
        crossEff u s f.dst 32 false u.active fun _ => { x := if idx then q.w else rdPat s u 32 f.sa.reg q }

end Sys2Proof.Machine
end

