-- ==== Sys2Proof/Machine/Planes.lean ====
section
/-!
DEFINITION. Plane regions: panels as they lie in tile memory, their construction from elements, and the plane
converter (R239, R255, R258 to R260).
-/

namespace Sys2Proof.Machine

/-! ### The region table (R255) -/

/-- An entry of the region table. -/
structure Region where
  kind : Nat
  slot : Nat
  base : Nat
  rows : Nat
deriving DecidableEq, Repr

/-- The regions of a launch that are in use. -/
def Launch.regs (l : Launch) : List Region :=
  (l.regions.map fun w => ({ kind := bits w.toNat 63 62, slot := bits w.toNat 57 55, base := bits w.toNat 27 16,
                             rows := bits w.toNat 11 0 } : Region)).filter fun r => r.kind != 0

/-- The plane region that begins at a tile offset. -/
def Launch.planeAt (l : Launch) (off : Nat) : Option Region :=
  l.regs.find? fun r => r.kind == 2 && 512 * r.base == off

/-- Tile bytes [a, a + n) meet a plane region. -/
def Launch.meetsPlane (l : Launch) (a n : Nat) : Bool :=
  l.regs.any fun r => r.kind == 2 && a < 512 * (r.base + r.rows) && 512 * r.base < a + n

/-- Rows of a panel of a slot (R258). -/
def Slot.panelRows (sl : Slot) : Nat := sl.F.full + 4

/-! ### Elements as planes hold them (R239, R258) -/

/-- floor(m x 2^e). -/
def shiftFloor (m : Nat) (e : Int) : Nat := if 0 ≤ e then m * 2 ^ e.toNat else m / 2 ^ (-e).toNat

/-- floor(|x| x 2^e) of a finite value. -/
def magFloor (x : XV) (e : Int) : Nat :=
  match x with
  | .num _ n d => if 0 ≤ e then n * 2 ^ e.toNat / d else n / (d * 2 ^ (-e).toNat)
  | _ => 0

/-- The exponent of a finite non-zero element (R239). -/
def elemExp (F : Fmt) (x : XV) : Option Int :=
  match x with
  | .num _ n d =>
    if n == 0 then none
    else if F.kind == .int then some ((F.full : Int) - 1)
    else some (max (floorLog2 n d) F.emin)
  | _ => none

/-- The largest exponent of a K block: F - 1 for an integer format, and in the others none when all its finite elements are
zero (R239, R258). -/
def blockExp (F : Fmt) (l : List XV) : Option Int :=
  if F.kind == .int then some ((F.full : Int) - 1)
  else match l.filterMap (elemExp F) with
  | [] => none
  | e :: rest => some (rest.foldl max e)

/-- An element of a panel: X, Z and sign flags and the magnitude of F planes. -/
structure PEl where
  x : Bool
  z : Bool
  sg : Bool
  mag : Nat
deriving DecidableEq, Repr

/-- An element as planes hold it under a block exponent. -/
def pelOf (F : Fmt) (e : Int) (x : XV) : PEl :=
  match x with
  | .nan => { x := true, z := false, sg := false, mag := 2 ^ (F.full - 1) }
  | .inf s => { x := true, z := false, sg := s, mag := 0 }
  | .num s n _ =>
    if n == 0 then { x := false, z := true, sg := false, mag := 0 }
    else { x := false, z := false, sg := s, mag := magFloor x ((F.full : Int) - 1 - e) }

/-- A K half of a vector: the header word of E and its 32 elements, with an MX scale exponent folded into E. -/
def halfOf (F : Fmt) (shift : Int) (l : List XV) : Nat × List PEl :=
  match blockExp F l with
  | none => (0x8000, l.map (pelOf F 0))
  | some e => (wrap 16 (e + shift), l.map (pelOf F e))

/-- The word of 64 bits of a flag over the elements of a vector. -/
def planeWord (l : List PEl) (f : PEl → Bool) : Nat := l.foldr (fun e a => b2n (f e) + 2 * a) 0

/-- The bytes of a panel from its 128 halves, two of each vector in order (R258). -/
def panelBytes (F : Fmt) (halves : List (Nat × List PEl)) : List Byte :=
  let vecs := (List.range 64).map fun v =>
    (halves.getD (2 * v) (0x8000, [])).2 ++ (halves.getD (2 * v + 1) (0x8000, [])).2
  let row (f : PEl → Bool) : List Byte := vecs.flatMap fun l => leBytes 8 (planeWord l f)
  (halves.flatMap fun x => leBytes 2 x.1) ++ List.replicate 256 0 ++ row (fun e => e.x) ++ row (fun e => e.z) ++
    row (fun e => e.sg) ++ ((List.range F.full).flatMap fun k => row fun e => tb e.mag (F.full - 1 - k))

/-! ### Reading a panel in tile memory -/

/-- The bit of element (v, k) in a row of the panel at tile offset `po`. -/
def planeBit (c : BCore) (po row v k : Nat) : Bool :=
  tb (FMap.get 0 c.tile (po + 512 * row + 8 * v + k / 8)).toNat (k % 8)

/-- The bit of element (v, k) in a row set or cleared. -/
def setPlaneBit (c : BCore) (po row v k : Nat) (b : Bool) : BCore :=
  let a := po + 512 * row + 8 * v + k / 8
  let old := (FMap.get 0 c.tile a).toNat
  let new := if tb old (k % 8) == b then old else if b then old + 2 ^ (k % 8) else old - 2 ^ (k % 8)
  rawTile c a [BitVec.ofNat 8 new]

/-- The header word of a half. -/
def planeE (c : BCore) (po v h : Nat) : Nat :=
  let a := po + 4 * v + 2 * h
  (FMap.get 0 c.tile a).toNat + 256 * (FMap.get 0 c.tile (a + 1)).toNat

/-- The magnitude of an element from its top `p` of `full` planes. -/
def planeMag (c : BCore) (po p v k : Nat) : Nat :=
  (List.range p).foldl (fun a r => 2 * a + b2n (planeBit c po (4 + r) v k)) 0

/-- The magnitude of an element written to its planes. -/
def setPlaneMag (c : BCore) (po full v k m : Nat) : BCore :=
  (List.range full).foldl (fun c r => setPlaneBit c po (4 + r) v k (tb m (full - 1 - r))) c

/-- An element of a panel with the top `p` planes of its magnitude. -/
def readPel (c : BCore) (po p v k : Nat) : PEl :=
  { x := planeBit c po 1 v k, z := planeBit c po 2 v k, sg := planeBit c po 3 v k, mag := planeMag c po p v k }

/-- The flags of an element. -/
def setFlags (c : BCore) (po v k : Nat) (x z sg : Bool) : BCore :=
  setPlaneBit (setPlaneBit (setPlaneBit c po 1 v k x) po 2 v k z) po 3 v k sg

/-! ### The plane converter (R260) -/

/-- Realignment of the other elements of a block: floor(mag x 2^k) of each that is neither X nor Z. -/
def realign (c : BCore) (po full v k : Nat) (sh : Int) : BCore :=
  (List.range 32).foldl (fun c n =>
    let j := k / 32 * 32 + n
    if j == k || planeBit c po 1 v j || planeBit c po 2 v j then c
    else setPlaneMag c po full v j (shiftFloor (planeMag c po full v j) sh)) c

/-- STPL of an FP32 code to element (v, k): the panel's tile memory and the FST bits. -/
def stplElem (c : BCore) (po : Nat) (sl : Slot) (v k code : Nat) : BCore × Nat :=
  let F := sl.F
  let r := conv F (if sl.rnd == 5 then 0 else sl.rnd) 0 sl.sat (f32 code)
  let x := (F.decode r.1).1
  let done (c : BCore) (e : PEl) : BCore :=
    setPlaneMag (setFlags c po v k e.x e.z e.sg) po F.full v k e.mag
  match elemExp F x with
  | none => (done c (pelOf F 0 x), r.2)
  | some e =>
    let raw := planeE c po v (k / 32)
    let old := sext 16 raw
    if raw == 0x8000 || old < e then
      let c1 := realign c po F.full v k (old - e)
      (done (rawTile c1 (po + 4 * v + 2 * (k / 32)) (leBytes 2 (wrap 16 e))) (pelOf F e x), r.2)
    else (done c (pelOf F old x), r.2)

/-- LDPL of element (v, k): an FP32 code. -/
def ldplElem (c : BCore) (po : Nat) (sl : Slot) (v k : Nat) : Nat :=
  let F := sl.F
  let e := readPel c po F.full v k
  if e.x then (if tb e.mag (F.full - 1) then fmtF32.nanCode else fmtF32.infCode e.sg)
  else if e.z || e.mag == 0 then 0
  else (rne32 (xDyadic e.sg e.mag (sext 16 (planeE c po v (k / 32)) - F.full + 1))).1

end Sys2Proof.Machine
end

