-- ==== Sys2Proof/Machine/Memory.lean ====
section
/-!
DEFINITION. Row 0x9 of the opcode map: loads, stores, plane access, cache control and the stash (R436 to R445).
-/

namespace Sys2Proof.Machine

/-! ### Fields of format M (R349, R436 to R441) -/

/-- Data registers of a SIZE (R437). -/
def sizeRegs (size : Nat) : Nat :=
  match size with
  | 3 => 2
  | 4 => 4
  | 5 => 8
  | _ => 1

/-- Classes of a load's DATA; a special is refused by the register check (R193, R438). -/
def loadAcc : Acc := { v := true, s := true, sp := true, z := true }

/-- Classes of a store's DATA (R438). -/
def storeAcc (size : Nat) : Acc := { v := true, s := true, t := size ≤ 2, k := size ≤ 2, z := true }

/-- The CACHE field: no reserved hint, and PF only where `pf` allows it (R349, R441). -/
def cacheChk (pf : Bool) (c : BitVec 3) : Option Nat := need 17 (c.toNat % 4 != 3 && (!c.getLsbD 2 || pf))

/-- The register uses of BASE and INDEX. -/
def addrUses (f : FmtM) : List RegUse := [baseUse f, useOf f.index 1]

/-- The shape of a format M instruction: the check of DATA, the ORD codes, SPACE values, the sizes, whether PF may be
set, whether SCL must be 0, the FN rule, and the DATA operand as source or destination. -/
def shapeM (f : FmtM) (data : Option Nat) (ords spaces sizes : List Nat) (pf scl fnOk : Bool)
    (srcs dsts : List RegUse) : Shape :=
  let once := isScalar f.data
  { enc := [data, need 14 (ords.contains f.ord.toNat), baseChk once (wideBase f.space.toNat) f.base, indexChk once f.index,
      need 15 (spaces.contains f.space.toNat), need 16 (sizes.contains f.size.toNat), cacheChk pf f.cache,
      need 8 (f.scl.toNat < 6 && (scl || f.scl == 0)), need 8 fnOk]
    srcs := addrUses f ++ srcs
    dsts := dsts
    once := once }

/-- The sizes of loads and stores. -/
def allSizes : List Nat := [0, 1, 2, 3, 4, 5]

/-- The shape of a load (R437, R438, R285). -/
def shapeLoad (f : FmtM) (ords spaces : List Nat) (pf : Bool) : Shape :=
  shapeM f (dstChk loadAcc f.data) ords spaces allSizes (pf && decide (f.data = .zr)) true
    (f.fn == 0 || (f.fn == 1 && f.size.toNat < 2)) [] [{ o := f.data, n := sizeRegs f.size.toNat }]

/-- The shape of a store (R437, R438, R285). -/
def shapeStore (f : FmtM) (spaces : List Nat) : Shape :=
  shapeM f (dstChk (storeAcc f.size.toNat) f.data) [0, 2, 4] spaces allSizes false true (f.fn == 0)
    [{ o := f.data, n := sizeRegs f.size.toNat }] []

/-! ### Accesses of the lanes (R439 to R441) -/

/-- The trap of an access: INFO holds the lane in classes 3 and 4 (R314). -/
def siteTrap (cause faddr : Nat) (p : Pos) : Trap :=
  if cause / 32 == 3 || cause / 32 == 4 then laneTrap cause faddr p else { cause := cause, faddr := faddr }

/-- The place that a lane's access reaches, or its trap: the checks of R244 to R251, the breakpoint (R404), and
poisoned data that the access or its stash fill reads (R33, R311). -/
def siteOf (s : State) (u : Ux) (f : FmtM) (kind : Kind) (p : Pos) : Except Trap Site :=
  let ea := effAddr s u f true p
  let n := sizeBytes f.size.toNat
  match access s p.gid p.lane f.space.toNat ea n kind with
  | .error (c, fa) => .error (siteTrap c fa p)
  | .ok x =>
    if brkHit (s.g p.gid) kind x n then .error { cause := 0x142, faddr := ea }
    else
      let reads := kind == .load || (match x.loc with
        | .phys _ => false
        | .tile b c off => (stashAt (s.bc b c) off).isSome)
      if reads && sitePoisoned s x then .error { cause := poisonCause s x, faddr := ea } else .ok x

/-- The places of all lanes, or the trap of the lowest failing lane; with `skip` a failing lane makes no access. -/
def sitesOf (s : State) (u : Ux) (f : FmtM) (kind : Kind) (skip : Bool) : List Pos → Except Trap (List (Pos × Site))
  | [] => .ok []
  | p :: rest =>
    match siteOf s u f kind p with
    | .error t => if skip then sitesOf s u f kind skip rest else .error t
    | .ok x =>
      match sitesOf s u f kind skip rest with
      | .error t => .error t
      | .ok l => .ok ((p, x) :: l)

/-- What a read of a place does to the caches: a stash line fills, and the directory lists the reader of a cacheable line
(R262, R263, R291, R307). -/
def fillSite (s : State) (gid : Nat) (x : Site) : State :=
  match x.loc with
  | .phys pa => if x.mt == 0 && !isWindow pa then readLine s (s.g gid).core pa ((s.launchOf (s.g gid).bid).cls == 0) else s
  | .tile b c off => if memHeld s && locFar s (s.bc b c).core false x.loc then askFill s b c off else fillLine s b c off

/-- A place is behind a queue that a slot holds (R54, R291). -/
def siteFar (s : State) (gid : Nat) (write : Bool) (x : Site) : Bool := x.mt != 0 || locFar s (s.g gid).core write x.loc

/-- One of the places is. -/
def sitesFar (s : State) (write : Bool) (l : List (Pos × Site)) : Bool := l.any fun x => siteFar s x.1.gid write x.2

/-- The memory line of a write that is made at once is busy for the writer (R291, R292, R307). -/
def siteBusy (s : State) (gid : Nat) (x : Site) : Bool :=
  match canonLoc s x.loc with
  | .phys pa => writeWaits s (if x.mt == 0 then some (locCore s gid x.loc) else none) pa
  | .tile _ _ _ => false

/-- A write that is made at once waits: a slot holds what one of its places reaches, or another transaction its line (R54, R307). -/
def writesHeld (s : State) (l : List (Pos × Site)) : Bool :=
  (memHeld s && sitesFar s true l) || l.any fun x => siteBusy s x.1.gid x.2

/-- The lines that a load asks the home agents for: those that no copy of its die serves (R263, R307). -/
def linesAsked (s : State) (l : List (Pos × Site)) : List (Nat × Nat) :=
  (l.filterMap fun x => match x.2.loc with
    | .phys pa =>
      let k := s.line (lineOf pa)
      let die := dieOf (s.g x.1.gid).core
      if x.2.mt != 0 || isWindow pa || k.lists die || k.asked die then none else some (die, lineOf pa)
    | .tile _ _ _ => none).eraseDups

/-- A load stalls: the link queue of its die has no free slots for the requests that a slot holds (R56, R121). -/
def loadStalls (s : State) (l : List (Pos × Site)) : Bool :=
  let asks := linesAsked s l
  asks.any fun x => linkFull s x.1 x.2 (asks.length - 1)

/-- The words that a load of `n` bytes delivers: one register extended to 32 bits, or consecutive words (R439). -/
def loadWords (bs : List Byte) (size : Nat) (sx : Bool) : List Nat :=
  if size < 2 then
    let x := leVal bs
    [if sx then wrap 32 (sext (8 * bs.length) x) else x]
  else (List.range (sizeRegs size)).map fun k => leVal ((bs.drop (4 * k)).take 4)

/-- Words delivered to consecutive registers of a position by a long-latency producer. -/
def wordCells (dst : Opnd) (p : Pos) (ws : List Nat) : List (Nat × Cell × Word96) :=
  ws.zipIdx.flatMap fun x => longCells (regPlus dst x.2) 32 p x.1

/-- Bytes that a store takes from its source: the low bytes of the registers, or a constant. -/
def storeBytes (s : State) (u : Ux) (o : Opnd) (size : Nat) (p : Pos) : List Byte :=
  ((List.range (sizeRegs size)).flatMap fun k => leBytes 4 (rd s u (regPlus o k) p).toNat).take (sizeBytes size)

/-- The accesses of an uncached or window page, or with a sequentially consistent order, follow the unit's older
stores (R288, R291). -/
def mustFollow (f : FmtM) (l : List (Pos × Site)) : Bool := f.ord == 4 || l.any fun x => x.2.mt != 0

/-- What goes on after the unit's older stores where the access follows them (R54, R288, R291). -/
def orderedFirst (s : State) (u : Ux) (f : FmtM) (l : List (Pos × Site)) (k : State → Res) : Res :=
  if mustFollow f l then ordered s u k else k s

/-- A load: every lane's access, or the fault of the lowest failing lane; results land later (R439 to R441). With PF and
no destination a lane that would fault makes no access (R320). A result behind a queue that a slot holds does not land while
a slot is open (R54); without room for the requests the load stalls (R56). -/
def loadEff (f : FmtM) (u : Ux) (s : State) : Res :=
  let once := isScalar f.data
  let work := workLanes u once
  let size := f.size.toNat
  match sitesOf s u f .load (f.cache.getLsbD 2) work with
  | .error t => .error (.trap t)
  | .ok l =>
    orderedFirst s u f l fun s1 =>
      if loadStalls s1 l then .error (.wait .slot) else
      let res := l.map fun x => (x.1, loadWords (loadBytes s1 x.1.gid x.2.loc (sizeBytes size)) size (f.fn == 1))
      .ok { st := l.foldl (fun st x => fillSite st x.1.gid x.2) s1
            long := res.flatMap fun x => wordCells f.data x.1 x.2
            far := sitesFar s1 false l }

/-- The stores of a group take their place at the end of its queue (R281). -/
def pushStore (s : State) (gid : Nat) (e : StoreEntry) : State :=
  s.modGroup gid fun g => { g with sq := g.sq ++ [e] }

/-- A store of a group made at once at a place (R288, R291). -/
def storeNow (s : State) (gid : Nat) (x : Site) (e : StoreEntry) : State :=
  if x.mt == 0 then performStore s gid e else performBypass s gid e

/-- A store: every lane's access in ascending lane order, or the fault of the lowest failing lane (R439 to R441). A store to an
uncached or window page, which bypasses the L2, or a sequentially consistent one, which no later load may pass, is performed at once;
it waits while a slot or another transaction holds what it reaches (R54, R288, R291, R307). -/
def storeEff (f : FmtM) (u : Ux) (s : State) : Res :=
  let work := workLanes u (isScalar f.data)
  match sitesOf s u f .store false work with
  | .error t => .error (.trap t)
  | .ok l =>
    let entry (x : Pos × Site) : StoreEntry := { loc := x.2.loc, bytes := storeBytes s u f.data f.size.toNat x.1 }
    orderedFirst s u f l fun s1 =>
      if !mustFollow f l then .ok { st := l.foldl (fun st x => pushStore st x.1.gid (entry x)) s1 }
      else if writesHeld s l then .error (.wait .slot)
      else .ok { st := l.foldl (fun st x => storeNow st x.1.gid x.2 (entry x)) s1 }

/-- LD: the fields it takes. -/
def shapeLd (f : FmtM) : Shape := shapeLoad f [0, 1, 4] [1] true

/-- LD (R437). -/
def execLd (h : Hdr) (f : FmtM) (s : State) : Host.Outcome State Fault Refusal :=
  issue h (shapeLd f) s fun u s => loadEff f u s

/-- ST: the fields it takes. -/
def shapeSt (f : FmtM) : Shape := shapeStore f [1]

/-- ST (R437). -/
def execSt (h : Hdr) (f : FmtM) (s : State) : Host.Outcome State Fault Refusal :=
  issue h (shapeSt f) s fun u s => storeEff f u s

/-- LDT: the fields it takes. -/
def shapeLdt (f : FmtM) : Shape := shapeLoad f [0, 1, 4] [2] false

/-- LDT (R437). -/
def execLdt (h : Hdr) (f : FmtM) (s : State) : Host.Outcome State Fault Refusal :=
  issue h (shapeLdt f) s fun u s => loadEff f u s

/-- STT: the fields it takes. -/
def shapeStt (f : FmtM) : Shape := shapeStore f [2]

/-- STT (R437). -/
def execStt (h : Hdr) (f : FmtM) (s : State) : Host.Outcome State Fault Refusal :=
  issue h (shapeStt f) s fun u s => storeEff f u s

/-- LDP: the fields it takes. -/
def shapeLdp (f : FmtM) : Shape := shapeLoad f [0, 1, 4] [3] true

/-- LDP (R437); a scalar access is that of the lowest active lane's private space (log 28). -/
def execLdp (h : Hdr) (f : FmtM) (s : State) : Host.Outcome State Fault Refusal :=
  issue h (shapeLdp f) s fun u s => loadEff f u s

/-- STP: the fields it takes. -/
def shapeStp (f : FmtM) : Shape := shapeStore f [3]

/-- STP (R437). -/
def execStp (h : Hdr) (f : FmtM) (s : State) : Host.Outcome State Fault Refusal :=
  issue h (shapeStp f) s fun u s => storeEff f u s

/-- LDS: the fields it takes. -/
def shapeLds (f : FmtM) : Shape := shapeLoad f [0, 1, 4] [4, 5] false

/-- LDS (R437). -/
def execLds (h : Hdr) (f : FmtM) (s : State) : Host.Outcome State Fault Refusal :=
  issue h (shapeLds f) s fun u s => loadEff f u s

/-- STS: the fields it takes. -/
def shapeSts (f : FmtM) : Shape := shapeStore f [4, 5]

/-- STS (R437). -/
def execSts (h : Hdr) (f : FmtM) (s : State) : Host.Outcome State Fault Refusal :=
  issue h (shapeSts f) s fun u s => storeEff f u s

/-- LDC: the fields it takes; ORD 0 alone (R441). -/
def shapeLdc (f : FmtM) : Shape := shapeLoad f [0] [6] true

/-- LDC: the load reads the value in force (R250, log 10). -/
def execLdc (h : Hdr) (f : FmtM) (s : State) : Host.Outcome State Fault Refusal :=
  issue h (shapeLdc f) s fun u s => loadEff f u s

/-- LDGN: the fields it takes. -/
def shapeLdgn (f : FmtM) : Shape := shapeLoad f [0, 1, 4] [0] true

/-- LDGN (R437). -/
def execLdgn (h : Hdr) (f : FmtM) (s : State) : Host.Outcome State Fault Refusal :=
  issue h (shapeLdgn f) s fun u s => loadEff f u s

/-- STGN: the fields it takes. -/
def shapeStgn (f : FmtM) : Shape := shapeStore f [0]

/-- STGN (R437). -/
def execStgn (h : Hdr) (f : FmtM) (s : State) : Host.Outcome State Fault Refusal :=
  issue h (shapeStgn f) s fun u s => storeEff f u s

/-- PREF: the fields it takes (R442). -/
def shapePref (f : FmtM) : Shape :=
  shapeM f (unusedReg 9 f.data) [0] [1, 3, 6] [2] false true (f.fn == 0) [] []

/-- The line of a lane is brought into the L2; a lane whose access would fault, or for whose request there is no room, brings none (R56,
R442). -/
def prefLane (s : State) (x : Pos × Site) : State :=
  if loadStalls s [x] then s else fillSite s x.1.gid x.2

/-- PREF: the lanes' lines are brought into the L2, without a fault, and no value that any party reads changes (R442). -/
def execPref (h : Hdr) (f : FmtM) (s : State) : Host.Outcome State Fault Refusal :=
  issue h (shapePref f) s fun u s => .ok { st := match sitesOf s u f .load true (workLanes u (isScalar f.data)) with
    | .ok l => l.foldl prefLane s
    | .error _ => s }

/-! ### Plane access (R443) -/

/-- LDPL and STPL: the fields they take. -/
def shapePlane (f : FmtM) (ords : List Nat) (st : Bool) : Shape :=
  shapeM f (dstChk { v := true, z := true } f.data) ords [2] [2] false false (f.fn == 0)
    (if st then [{ o := f.data }] else []) (if st then [] else [{ o := f.data }])

/-- A plane element that a lane names: the slot, the panel's offset, vector and K index; or its trap (R443). -/
def planeSite (s : State) (u : Ux) (f : FmtM) (p : Pos) : Except Trap (Slot × Nat × Nat × Nat) :=
  let l := s.launchOf (s.g p.gid).bid
  let off := wrap 64 ((baseOf s u f p : Int) + f.off.toInt)
  let e := if f.index.reg = .zr then 0 else (rd s u f.index.reg p).toNat
  match l.planeAt off with
  | none => .error { cause := 7 * 32 + 6 }
  | some r =>
    let sl := slotAt s p.gid r.slot
    if r.rows < (e / 4096 + 1) * sl.panelRows then .error (laneTrap (memCause 2 3) off p)
    else .ok (sl, off + 512 * sl.panelRows * (e / 4096), e / 64 % 64, e % 64)

/-- The elements of all lanes, or the trap of the lowest failing one. -/
def planeSites (s : State) (u : Ux) (f : FmtM) : List Pos → Except Trap (List (Pos × Slot × Nat × Nat × Nat))
  | [] => .ok []
  | p :: rest =>
    match planeSite s u f p with
    | .error t => .error t
    | .ok x =>
      match planeSites s u f rest with
      | .error t => .error t
      | .ok l => .ok ((p, x) :: l)

/-- A converter access follows the unit's older stores, which may reach the region's bytes; without an element a sequentially
consistent one still orders (R281, R290, R443). -/
def planeOrdered (f : FmtM) (u : Ux) (s : State) (l : List (Pos × Slot × Nat × Nat × Nat)) (k : State → Res) : Res :=
  if l.isEmpty && f.ord != 4 then k s else ordered s u k

/-- LDPL. -/
def shapeLdpl (f : FmtM) : Shape := shapePlane f [0, 1, 4] false

/-- LDPL: an element of a plane region as FP32 (R260, R443). -/
def execLdpl (h : Hdr) (f : FmtM) (s : State) : Host.Outcome State Fault Refusal :=
  issue h (shapeLdpl f) s fun u s =>
    match planeSites s u f u.active with
    | .error t => .error (.trap t)
    | .ok l => planeOrdered f u s l fun s1 =>
      let c := s1.bc (s1.g u.gid).bid (s1.g u.gid).bcore
      .ok { st := s1, long := l.flatMap fun x =>
              longCells f.data 32 x.1 (ldplElem c x.2.2.1 x.2.1 x.2.2.2.1 x.2.2.2.2) }

/-- STPL. -/
def shapeStpl (f : FmtM) : Shape := shapePlane f [0, 2, 4] true

/-- STPL: each lane's update in ascending order, with the FST bits of its conversion (R260, R443). -/
def execStpl (h : Hdr) (f : FmtM) (s : State) : Host.Outcome State Fault Refusal :=
  issue h (shapeStpl f) s fun u s =>
    match planeSites s u f u.active with
    | .error t => .error (.trap t)
    | .ok l => planeOrdered f u s l fun s1 =>
      let g := s1.g u.gid
      let r := l.foldl (fun (a : BCore × Nat) x =>
        let y := stplElem a.1 x.2.2.1 x.2.1 x.2.2.2.1 x.2.2.2.2 (rd s u f.data x.1).toNat
        (y.1, a.2 ||| y.2)) (s1.bc g.bid g.bcore, 0)
      .ok { st := s1.modBc g.bid g.bcore fun _ => r.1, fst := [(u.gid, r.2)] }

/-! ### Cache control and the stash (R261 to R265, R444, R445) -/

/-- CCTL: the fields it takes. -/
def shapeCctl (f : FmtM) : Shape :=
  shapeM f (unusedReg 9 f.data) [0] [1, 2] [2] false true (f.fn.toNat < 3) [] []

/-- The mapped line of a block core that an address of space 1 or 2 lies in: place of the mapping, and line. -/
def stashLineAt (c : BCore) (space ea : Nat) : Option (Nat × Nat) :=
  if space == 2 then stashAt c ea
  else firstSome (c.stashes.zipIdx.map fun m =>
    if m.1.va ≤ ea && ea < m.1.va + 128 * m.1.lines then some (m.2, (ea - m.1.va) / 128) else none)

/-- CCTL on one line: a DIRTY line becomes CLEAN; with `inv` the line becomes INVALID. Its bytes stand in global memory
already, since a store through the stash writes them there (R305, log 5). -/
def cctlLine (c : BCore) (inv : Bool) (at_ : Nat × Nat) : BCore :=
  { c with stashes := modAt c.stashes at_.1 fun m =>
      if inv then { m with st := FMap.set 0 m.st at_.2 0 }
      else if m.line at_.2 == 2 then { m with st := FMap.set 0 m.st at_.2 1 } else m }

/-- The mapping has a DIRTY line. -/
def Stash.dirty (m : Stash) : Bool := m.st.any fun e => e.2 == 2

/-- Every DIRTY line of a mapping becomes CLEAN. -/
def Stash.cleaned (m : Stash) : Stash := { m with st := m.st.map fun e => (e.1, if e.2 == 2 then 1 else e.2) }

/-- CCTL finds a DIRTY line to write back: under `.all` any, else one of those that the lanes' addresses lie in. -/
def cctlDirty (s : State) (f : FmtM) (u : Ux) : Bool :=
  let c := s.bc (s.g u.gid).bid (s.g u.gid).bcore
  if f.fn == 2 then c.stashes.any Stash.dirty
  else u.active.any fun p => match stashLineAt c f.space.toNat (effAddr s u f true p) with
    | none => false
    | some x => (c.stash x.1).line x.2 == 2

/-- CCTL (R444): the lines' write-backs are memory requests, held during slots. -/
def execCctl (h : Hdr) (f : FmtM) (s : State) : Host.Outcome State Fault Refusal :=
  issue h (shapeCctl f) s fun u s =>
    if u.active.isEmpty then .ok { st := s }
    else ordered s u fun s1 => writesBack s1 (cctlDirty s1 f u) <|
      let g := s1.g u.gid
      .ok { st := s1.modBc g.bid g.bcore fun c =>
        if f.fn == 2 then { c with stashes := c.stashes.map Stash.cleaned }
        else u.active.foldl (fun c p =>
          match stashLineAt c f.space.toNat (effAddr s u f true p) with
          | none => c
          | some x => cctlLine c (f.fn == 1) x) c }

/-- Mapping number of STASH. -/
def stashNum (f : FmtE) : Nat := bits f.imm.toNat 17 16

/-- The fields that STASH does not use, and the ones of its own (R445): a breach is 0.21. -/
def stashFieldsOk (f : FmtE) (unmap : Bool) : Bool :=
  (if unmap then decide (f.desc = .zr) else ({ s := true } : Acc).takes f.desc) && f.bar == 0 && !f.ben && !f.evq &&
    (unusedSrc 21 f.sa).isNone && (unusedSrc 21 f.sb).isNone && bits f.imm.toNat 15 0 == 0 && bits f.imm.toNat 23 18 == 0 &&
    f.fn.toNat < 2

/-- STASH.map: a descriptor of four registers. -/
def shapeStashMap (f : FmtE) : Shape :=
  { enc := [need 21 (stashFieldsOk f false)], srcs := [{ o := f.desc, n := 4, align := false }], once := true }

/-- STASH.unmap: no register. -/
def shapeStashUnmap (f : FmtE) : Shape := { enc := [need 21 (stashFieldsOk f true)], once := true }

/-- Two ranges meet. -/
def rangesMeet (a n b m : Nat) : Bool := a < b + m && b < a + n

/-- Physical addresses of the lines of a global range, or none where one does not reach HBM4E or LPDDR6. A page without U, for a group
in user mode, counts as one that does not translate: R261 does not say what the map does there (R261; DESIGN CHOICE, log 163). -/
def stashPas (s : State) (gid va lines : Nat) : Option (List Nat) :=
  let l := (List.range lines).map fun i =>
    match translate s (s.launchOf (s.g gid).bid).ctx { write := false, fetch := false, user := !(s.g gid).sys } (va + 128 * i) with
    | .ok pa _ => if isHbm pa || isLp pa then some pa else none
    | _ => none
  if l.any Option.isNone then none else some (l.map fun x => x.getD 0)

/-- A map that breaks a limit of R261, or names a number in use. -/
def stashConflict (s : State) (g : Group) (n tile va len : Nat) : Bool :=
  let b := s.b g.bid
  let c := s.bc g.bid g.bcore
  let l := s.launchOf g.bid
  c.stashes.any (fun m => m.n == n) || tile % 128 != 0 || va % 128 != 0 || len % 128 != 0 || len == 0 ||
    524288 < len + (c.stashes.map fun m => 128 * m.lines).foldl (· + ·) 0 || l.tileb < tile + len || 2 ^ 57 < va + len ||
    c.stashes.any (fun m => rangesMeet tile len m.tile (128 * m.lines)) ||
    b.cores.any (fun k => k.stashes.any fun m => rangesMeet va len m.va (128 * m.lines)) || l.meetsPlane tile len

/-- STASH.map: a tile range onto a global range (R261, R262, R445). -/
def execStashMap (h : Hdr) (f : FmtE) (s : State) : Host.Outcome State Fault Refusal :=
  issue h (shapeStashMap f) s fun u s =>
    if u.active.isEmpty then .ok { st := s }
    else ordered s u fun s1 =>
      let g := s1.g u.gid
      let n := stashNum f
      let w (k : Nat) : Nat := (rdU s u (regPlus f.desc k)).toNat
      let va := w 1 + w 2 * 2 ^ 32
      let bad : Trap := { cause := 0xC5 }
      if stashConflict s1 g n (w 0) va (w 3) then .error (.trap bad)
      else match stashPas s1 u.gid va (w 3 / 128) with
      | none => .error (.trap bad)
      | some _ =>
        .ok { st := s1.modBc g.bid g.bcore fun c => { c with stashes := c.stashes ++
                [{ n := n, tile := w 0, va := va, lines := w 3 / 128, st := [], pas := [] }] } }

/-- STASH.unmap: drops a mapping; its lines' stores stand in memory already, and its write-backs are held during slots (R264,
R305, R445). -/
def execStashUnmap (h : Hdr) (f : FmtE) (s : State) : Host.Outcome State Fault Refusal :=
  issue h (shapeStashUnmap f) s fun u s =>
    if u.active.isEmpty then .ok { st := s }
    else ordered s u fun s1 =>
      let g := s1.g u.gid
      writesBack s1 ((s1.bc g.bid g.bcore).stashes.any fun m => m.n == stashNum f && m.dirty) <|
      .ok { st := s1.modBc g.bid g.bcore fun c => { c with stashes := c.stashes.filter fun m => m.n != stashNum f } }

end Sys2Proof.Machine
end

