-- ==== Sys2Proof/Machine/Atomics.lean ====
section
/-!
DEFINITION. Row 0xA of the opcode map: atomics and reductions (R292, R293, R317, R446 to R448).
-/

namespace Sys2Proof.Machine

/-- What an operation makes of the old value and the source values, with FST bits: width, FN[0], old, first and second
source value. -/
abbrev Rmw := Nat → Bool → Nat → Nat → Nat → Nat × Nat

/-- Classes of the source operand of `n` registers: a group of more than one register is of v or s, or the zero code,
and a constant stands for one value (R194, R344, R438). -/
def atomSrcAcc (once single : Bool) (n : Nat) : Acc :=
  { v := !once, s := true, t := n == 1 && !once, k := single, z := true }

/-- The shape of an atomic: `res` says that it has a result, `signs` that FN[0] is used, `groups` how many values the
source operand holds. -/
def shapeAtom (f : FmtM) (res signs : Bool) (groups : Nat) : Shape :=
  let once := isScalar f.data
  let dn := sizeRegs f.size.toNat
  { enc := [if res then dstChk loadAcc f.data else unusedReg 9 f.data,
      need 14 ((if res then [0, 1, 2, 3, 4] else [0, 2, 4]).contains f.ord.toNat),
      baseChk once (wideBase f.space.toNat) f.base,
      laneIndex once f.index (srcChk 11 (atomSrcAcc once (groups == 1) (groups * dn)) once f.index),
      need 15 ([0, 1, 2, 4, 5].contains f.space.toNat), need 16 (f.size.toNat < 6), cacheChk false f.cache,
      need 8 (f.scl == 0), need 8 (f.fn.toNat ≤ b2n signs)]
    srcs := [baseUse f, { useOf f.index (groups * dn) with grain := min 8 (groups * dn) }]
    dsts := [{ o := f.data, n := dn }]
    once := once }

/-- sp of the class-4 details (R312). -/
def spOf (space : Nat) : Nat :=
  match space with
  | 2 => 1
  | 4 => 2
  | 5 => 3
  | _ => 0

/-- The place is in a mapped stash range. -/
def inStash (s : State) (x : Site) : Bool :=
  match x.loc with
  | .phys _ => false
  | .tile b c off => (stashAt (s.bc b c) off).isSome

/-- A pooled place lies on another die than the issuing core. -/
def acrossDie (s : State) (g : Group) (x : Site) : Bool :=
  match x.loc with
  | .phys _ => false
  | .tile b c _ => x.space == 5 && dieOf (s.bc b c).core != dieOf g.core

/-- The place of a lane's atomic, or its trap; a generic address of private space is 3.2 (R447). -/
def atomSite (s : State) (u : Ux) (f : FmtM) (sizes : List Nat) (p : Pos) : Except Trap Site :=
  let g := s.g p.gid
  let ea := effAddr s u f false p
  let n := sizeBytes f.size.toNat
  match decodeAddr f.space.toNat ea with
  | .error sp => .error (laneTrap (memCause sp 2) ea p)
  | .ok d =>
    let at4 (k : Nat) : Trap := laneTrap (4 * 32 + 8 * spOf d.space + k) ea p
    if d.space == 3 then .error (laneTrap (memCause 0 2) ea p)
    else if !sizes.contains f.size.toNat then .error (at4 1)
    else match access s p.gid p.lane f.space.toNat ea n .atomic with
    | .error (c, fa) => .error (siteTrap c fa p)
    | .ok x =>
      if inStash s x then .error (at4 2)
      else if x.mt != 0 then .error (laneTrap (4 * 32) ea p)
      else if acrossDie s g x then .error (laneTrap (4 * 32 + 28) ea p)
      else if sitePoisoned s x then .error (at4 3)
      else if brkHit g .atomic x n then .error { cause := 0x142, faddr := ea }
      else .ok x

/-- The places of the lanes before the first failing one, in ascending order, and its trap. -/
def atomSites (s : State) (u : Ux) (f : FmtM) (sizes : List Nat) : List Pos → List (Pos × Site) × Option Trap
  | [] => ([], none)
  | p :: rest =>
    match atomSite s u f sizes p with
    | .error t => ([], some t)
    | .ok x =>
      let r := atomSites s u f sizes rest
      ((p, x) :: r.1, r.2)

/-- `n` registers of a source operand as one number, low word first; a constant extends to the width, and for an operation on
floats it is the FP32 code of its value (R344). -/
def srcGroup (s : State) (u : Ux) (o : Opnd) (n : Nat) (fp : Bool) (p : Pos) : Nat :=
  match o with
  | .imm k => if fp then rdF s u o p else wrap (32 * n) k
  | .zr => 0
  | _ => (List.range n).foldr (fun k a => (rd s u (regPlus o k) p).toNat + 2 ^ 32 * a) 0

/-- One lane performs its atomic: the state after it, the old value and the FST bits. -/
def atomOne (s0 : State) (u : Ux) (f : FmtM) (groups : Nat) (fp : Bool) (op : Rmw) (st : State) (p : Pos) (x : Site) :
    State × Nat × Nat :=
  let n := sizeBytes f.size.toNat
  let dn := sizeRegs f.size.toNat
  let old := leVal ((List.range n).map fun k => locByte st (x.loc.plus k))
  let a := srcGroup s0 u f.index.reg (groups * dn) fp p
  let r := op (8 * n) (f.fn.getLsbD 0) old (a % 2 ^ (8 * n)) (a / 2 ^ (8 * n))
  (performStore st p.gid { loc := x.loc, bytes := leBytes n r.1 }, old, r.2)

/-- Lanes perform in ascending order (R293): the state, each lane's old value, and the FST bits. -/
def atomAll (s0 : State) (u : Ux) (f : FmtM) (groups : Nat) (fp : Bool) (op : Rmw) :
    State → List (Pos × Site) → State × List (Pos × Nat) × Nat
  | st, [] => (st, [], 0)
  | st, (p, x) :: rest =>
    let r := atomOne s0 u f groups fp op st p x
    let t := atomAll s0 u f groups fp op r.1 rest
    (t.1, (p, r.2.1) :: t.2.1, r.2.2 ||| t.2.2)

/-- A value of a SIZE as its data words. -/
def valueWords (size x : Nat) : List Nat := (List.range (sizeRegs size)).map fun k => x / 2 ^ (32 * k) % 2 ^ 32

/-- Results written and full at once, as a partial fault leaves them (R317). -/
def wrWords (s : State) (o : Opnd) (p : Pos) (x size : Nat) : State :=
  (valueWords size x).zipIdx.foldl (fun st w => wr st (regPlus o w.2) p (BitVec.ofNat 32 w.1)) s

/-- What goes on after the unit's older stores where a lane performs, or the order alone asks for it (R281, R290). -/
def atomOrdered (f : FmtM) (u : Ux) (s : State) (l : List (Pos × Site)) (k : State → Res) : Res :=
  if l.isEmpty && f.ord != 4 then k s else ordered s u k

/-- An atomic or reduction: lanes in ascending order; at a failing lane those before it have performed, with DONE and their
results (R293, R317, R446 to R448). Lanes of DONE do not perform again (R316). A
breakpoint is raised before any lane performs (R404). Without an active lane a sequentially consistent one still orders
(R290); the unit waits while a slot or another transaction holds what it reaches (R54, R307). `fp` says that the source is read as a float. -/
def atomEff (f : FmtM) (sizes : List Nat) (groups : Nat) (fp : Bool) (op : Rmw) (u : Ux) (s : State) : Res :=
  let r := atomSites s u f sizes (workLanes u (isScalar f.data))
  if writesHeld s r.1 then .error (.wait .slot)
  else atomOrdered f u s r.1 fun s1 =>
    let d := atomAll s u f groups fp op s1 r.1
    match r.2 with
    | some t => if t.cause == 0x142 then .error (.trap { t with done := u.done }) else
      let s2 := d.2.1.foldl (fun st x => wrWords st f.data x.1 x.2 f.size.toNat) d.1
      let s3 := s2.modGroup u.gid fun g => { g with fst := g.fst ||| BitVec.ofNat 6 d.2.2 }
      .error (.partly { t with done := u.done ||| maskOf (d.2.1.map fun x => x.1.lane) } s3)
    | none =>
      .ok { st := d.1, fst := [(u.gid, d.2.2)],
            long := d.2.1.flatMap fun x => wordCells f.data x.1 (valueWords f.size.toNat x.2) }

/-! ### The operations (R446) -/

/-- (m + a) mod 2^width. -/
def rmwAdd : Rmw := fun w _ m a _ => ((m + a) % 2 ^ w, 0)

/-- min of m and a, signed with FN[0]. -/
def rmwMin : Rmw := fun w sg m a _ => (if (if sg then sext w m < sext w a else m < a) then m else a, 0)

/-- max of m and a, signed with FN[0]. -/
def rmwMax : Rmw := fun w sg m a _ => (if (if sg then sext w m < sext w a else m < a) then a else m, 0)

/-- Bitwise and. -/
def rmwAnd : Rmw := fun _ _ m a _ => (m &&& a, 0)

/-- Bitwise or. -/
def rmwOr : Rmw := fun _ _ m a _ => (m ||| a, 0)

/-- Bitwise exclusive or. -/
def rmwXor : Rmw := fun _ _ m a _ => (m ^^^ a, 0)

/-- Exchange. -/
def rmwXchg : Rmw := fun _ _ _ a _ => (a, 0)

/-- Compare and swap: the second source value where the old one equals the first. -/
def rmwCas : Rmw := fun _ _ m a b => (if m == a then b else m, 0)

/-- rne(m + a, fp32); of the FST bits INV and OVF alone are set (R447). -/
def rmwFadd : Rmw := fun _ _ m a _ =>
  let r := arith fmtF32 0 0 [f32 m, f32 a] (xSum 0 [f32 m, f32 a])
  (r.1, r.2 &&& (fstInv ||| fstOvf))

/-- 0 where m is at least a, else m + 1. -/
def rmwInc : Rmw := fun _ _ m a _ => (if a ≤ m then 0 else m + 1, 0)

/-- a where m is 0 or above a, else m - 1. -/
def rmwDec : Rmw := fun _ _ m a _ => (if m == 0 || a < m then a else m - 1, 0)

/-- AADD: the fields it takes (R446). -/
def shapeAadd (f : FmtM) : Shape := shapeAtom f true false 1

/-- AADD (R446). -/
def execAadd (h : Hdr) (f : FmtM) (s : State) : Host.Outcome State Fault Refusal :=
  issue h (shapeAadd f) s fun u s => atomEff f [2, 3] 1 false rmwAdd u s

/-- AMIN: the fields it takes (R446). -/
def shapeAmin (f : FmtM) : Shape := shapeAtom f true true 1

/-- AMIN (R446). -/
def execAmin (h : Hdr) (f : FmtM) (s : State) : Host.Outcome State Fault Refusal :=
  issue h (shapeAmin f) s fun u s => atomEff f [2, 3] 1 false rmwMin u s

/-- AMAX: the fields it takes (R446). -/
def shapeAmax (f : FmtM) : Shape := shapeAtom f true true 1

/-- AMAX (R446). -/
def execAmax (h : Hdr) (f : FmtM) (s : State) : Host.Outcome State Fault Refusal :=
  issue h (shapeAmax f) s fun u s => atomEff f [2, 3] 1 false rmwMax u s

/-- AAND: the fields it takes (R446). -/
def shapeAand (f : FmtM) : Shape := shapeAtom f true false 1

/-- AAND (R446). -/
def execAand (h : Hdr) (f : FmtM) (s : State) : Host.Outcome State Fault Refusal :=
  issue h (shapeAand f) s fun u s => atomEff f [2, 3] 1 false rmwAnd u s

/-- AOR: the fields it takes (R446). -/
def shapeAor (f : FmtM) : Shape := shapeAtom f true false 1

/-- AOR (R446). -/
def execAor (h : Hdr) (f : FmtM) (s : State) : Host.Outcome State Fault Refusal :=
  issue h (shapeAor f) s fun u s => atomEff f [2, 3] 1 false rmwOr u s

/-- AXOR: the fields it takes (R446). -/
def shapeAxor (f : FmtM) : Shape := shapeAtom f true false 1

/-- AXOR (R446). -/
def execAxor (h : Hdr) (f : FmtM) (s : State) : Host.Outcome State Fault Refusal :=
  issue h (shapeAxor f) s fun u s => atomEff f [2, 3] 1 false rmwXor u s

/-- AXCHG: the fields it takes (R446). -/
def shapeAxchg (f : FmtM) : Shape := shapeAtom f true false 1

/-- AXCHG (R446). -/
def execAxchg (h : Hdr) (f : FmtM) (s : State) : Host.Outcome State Fault Refusal :=
  issue h (shapeAxchg f) s fun u s => atomEff f [2, 3] 1 false rmwXchg u s

/-- ACAS: the fields it takes (R446). -/
def shapeAcas (f : FmtM) : Shape := shapeAtom f true false 2

/-- ACAS (R446). -/
def execAcas (h : Hdr) (f : FmtM) (s : State) : Host.Outcome State Fault Refusal :=
  issue h (shapeAcas f) s fun u s => atomEff f [2, 3] 2 false rmwCas u s

/-- AFADD: the fields it takes (R446). -/
def shapeAfadd (f : FmtM) : Shape := shapeAtom f true false 1

/-- AFADD (R446). -/
def execAfadd (h : Hdr) (f : FmtM) (s : State) : Host.Outcome State Fault Refusal :=
  issue h (shapeAfadd f) s fun u s => atomEff f [2] 1 true rmwFadd u s

/-- AINC: the fields it takes (R446). -/
def shapeAinc (f : FmtM) : Shape := shapeAtom f true false 1

/-- AINC (R446). -/
def execAinc (h : Hdr) (f : FmtM) (s : State) : Host.Outcome State Fault Refusal :=
  issue h (shapeAinc f) s fun u s => atomEff f [2] 1 false rmwInc u s

/-- ADEC: the fields it takes (R446). -/
def shapeAdec (f : FmtM) : Shape := shapeAtom f true false 1

/-- ADEC (R446). -/
def execAdec (h : Hdr) (f : FmtM) (s : State) : Host.Outcome State Fault Refusal :=
  issue h (shapeAdec f) s fun u s => atomEff f [2] 1 false rmwDec u s

/-- RADD: the fields it takes (R446). -/
def shapeRadd (f : FmtM) : Shape := shapeAtom f false false 1

/-- RADD (R446). -/
def execRadd (h : Hdr) (f : FmtM) (s : State) : Host.Outcome State Fault Refusal :=
  issue h (shapeRadd f) s fun u s => atomEff f [2, 3] 1 false rmwAdd u s

/-- RMIN: the fields it takes (R446). -/
def shapeRmin (f : FmtM) : Shape := shapeAtom f false true 1

/-- RMIN (R446). -/
def execRmin (h : Hdr) (f : FmtM) (s : State) : Host.Outcome State Fault Refusal :=
  issue h (shapeRmin f) s fun u s => atomEff f [2, 3] 1 false rmwMin u s

/-- RMAX: the fields it takes (R446). -/
def shapeRmax (f : FmtM) : Shape := shapeAtom f false true 1

/-- RMAX (R446). -/
def execRmax (h : Hdr) (f : FmtM) (s : State) : Host.Outcome State Fault Refusal :=
  issue h (shapeRmax f) s fun u s => atomEff f [2, 3] 1 false rmwMax u s

/-- RFADD: the fields it takes (R446). -/
def shapeRfadd (f : FmtM) : Shape := shapeAtom f false false 1

/-- RFADD (R446). -/
def execRfadd (h : Hdr) (f : FmtM) (s : State) : Host.Outcome State Fault Refusal :=
  issue h (shapeRfadd f) s fun u s => atomEff f [2] 1 true rmwFadd u s

/-- ACAS2: the fields it takes (R446). -/
def shapeAcas2 (f : FmtM) : Shape := shapeAtom f true false 2

/-- ACAS2 (R446). -/
def execAcas2 (h : Hdr) (f : FmtM) (s : State) : Host.Outcome State Fault Refusal :=
  issue h (shapeAcas2 f) s fun u s => atomEff f [4] 2 false rmwCas u s

end Sys2Proof.Machine
end

