-- ==== Sys2Proof/Machine/Sync.lean ====
section
/-!
DEFINITION. Row 0xB of the opcode map: fences, barrier objects, rings, rendezvous, slot claims, speed requests, event
records and signals (R57 to R59, R118, R170 to R173, R287, R294 to R304, R449 to R455).
-/

namespace Sys2Proof.Machine

/-! ### Fences (R287, R449) -/

/-- FENCE: the fields it takes (R349, R449). -/
def shapeFence (f : FmtM) : Shape :=
  { scopes := [.lane, .group, .set, .block]
    enc := [unusedReg 9 f.data, need 14 (1 ≤ f.ord.toNat && f.ord.toNat ≤ 4), unusedSrc 10 f.base, unusedSrc 11 f.index,
      need 13 (f.off == 0), need 15 (f.space == 1), need 16 (f.size == 0), need 17 (f.cache == 0),
      need 8 (f.scl == 0 && f.fn == 0)]
    once := true }

/-- FENCE: a sequentially consistent fence, and a release over several groups, has every older store of the unit
performed before it; a group's stores are performed in program order in any case (R281, R287, R288, log 5). A fence waits
while a slot holds an access that it orders (R54). -/
def execFence (h : Hdr) (f : FmtM) (s : State) : Host.Outcome State Fault Refusal :=
  issue h (shapeFence f) s fun u s =>
    if f.ord == 4 || (f.ord != 1 && u.members.length > 1) then ordered s u fun s1 => .ok { st := s1 }
    else if unitHeld s u then .error (.wait .slot)
    else .ok { st := s }

/-! ### Barrier objects (R299 to R304, R450, R451) -/

/-- A barrier object as a new block finds it (R299). -/
def Bar.blank : Bar := { phase := 0, aexp := 0, acnt := 0, bexp := 0, bcnt := 0, blk := false, act := false }

/-- Object `k` of a core. -/
def State.bar (s : State) (core k : Nat) : Bar := FMap.get Bar.blank (s.core core).bars k

/-- `s` with object `k` of a core set. -/
def State.setBar (s : State) (core k : Nat) (b : Bar) : State :=
  let c := s.core core
  s.setCore core { c with bars := FMap.set Bar.blank c.bars k b }

/-- The phase completes when both counts are met (R300). -/
def Bar.settle (b : Bar) : Bar :=
  if b.act && b.acnt == b.aexp && b.bcnt == b.bexp then { b with phase := b.phase + 1, acnt := 0, bcnt := 0 } else b

/-- One arrival: the phase before it and the object after it, or none for an over-arrival (R300, R304). -/
def Bar.arriveOne (b : Bar) : Option (Nat × Bar) :=
  if b.acnt == b.aexp then none else some (b.phase.toNat, Bar.settle { b with acnt := b.acnt + 1 })

/-- `n` arrivals in order: the phases and the object, or none for an over-arrival. -/
def Bar.arriveMany : Nat → Bar → Option (List Nat × Bar)
  | 0, b => some ([], b)
  | n + 1, b =>
    match b.arriveOne with
    | none => none
    | some (ph, b1) =>
      match Bar.arriveMany n b1 with
      | none => none
      | some (l, b2) => some (ph :: l, b2)

/-- The core of an object: that of the group, or the block's leader core (R100, R300). -/
def objCore (s : State) (gid : Nat) (leader : Bool) : Nat :=
  let g := s.g gid
  if leader then ((s.b g.bid).cores.headD BCore.blank).core else g.core

/-- The leader core of a group's block lies across a die edge while a slot is open: what passes between them is held (R50,
R303). -/
def leaderHeld (s : State) (gid : Nat) (leader : Bool) : Bool := leader && memHeld s && acrossEdge s gid

/-- ARV and ARVX: the fields they take (R450). -/
def shapeArrive (f : FmtI) : Shape :=
  { scopes := [.lane, .group, .set]
    enc := [dstChk loadAcc f.dst, cwChk false f.cw, unusedSrc 10 f.sa, need 13 (f.imm.toNat < 64), need 8 (f.fn == 0)]
    dsts := [{ o := f.dst }] }

/-- An arrival: the object counts one per active lane at lane scope and one for the unit at a wider one, and DST takes
PHASE as it stood before. An s destination at lane scope takes the common value of the lanes, and a free value
where they differ (log 29). An arrival that crosses a die edge waits while a slot is open, so that a straddling block's
phase completes with its near part and then its far part (R180, R303). -/
def arriveEff (f : FmtI) (leader : Bool) (u : Ux) (s : State) : Res :=
  if u.active.isEmpty then .ok { st := s }
  else if leaderHeld s u.gid leader then .error (.wait .slot)
  else
    let core := objCore s u.gid leader
    let k := f.imm.toNat
    let b := s.bar core k
    if !b.act || (leader && !b.blk) then trapOf (5 * 32 + 8)
    else
      match b.arriveMany (if u.scope == .lane then u.active.length else 1) with
      | none => trapOf (5 * 32 + 9)
      | some (phases, b1) =>
        let first := phases.headD 0
        let mixed := isScalar f.dst && phases.any fun x => x != first
        let val (p : Pos) : Nat :=
          if mixed then (Config.freeWord s.free).toNat % 65536
          else if u.scope == .lane then phases.getD (u.active.findIdx fun q => q == p) 0 else first
        ordered s u fun s0 =>
          let s1 := s0.setBar core k b1
          let s2 := if mixed then { s1 with free := s1.free + 1 } else s1
          .ok (crossEff u s2 f.dst 32 false u.active fun p => { x := val p })

/-- ARV. -/
def shapeArv (f : FmtI) : Shape := shapeArrive f

/-- ARV: arrivals on an object of the issuing core (R300, R302). -/
def execArv (h : Hdr) (f : FmtI) (s : State) : Host.Outcome State Fault Refusal :=
  issue h (shapeArv f) s fun u s => arriveEff f false u s

/-- ARVX. -/
def shapeArvx (f : FmtI) : Shape := shapeArrive f

/-- ARVX: arrivals on an object of the leader core (R300, R302). -/
def execArvx (h : Hdr) (f : FmtI) (s : State) : Host.Outcome State Fault Refusal :=
  issue h (shapeArvx f) s fun u s => arriveEff f true u s

/-- WAITP: the fields it takes; CW[2] is 1 (R450). -/
def shapeWaitp (f : FmtI) : Shape :=
  { scopes := [.lane, .group, .set]
    enc := [unusedReg 9 f.dst, need 9 (f.cw.getLsbD 2), srcChk 10 { s := true, sp := true, k := true, z := true } true f.sa,
      need 13 (f.imm.toNat < 128), need 8 (f.fn == 0)]
    srcs := [useOf f.sa 1]
    once := true }

/-- WAITP: waits while PHASE is p, then writes Z, and V where the phase is two or more behind (R301). Between dies it waits for
the end of a slot as an arrival does (R50). -/
def execWaitp (h : Hdr) (f : FmtI) (s : State) : Host.Outcome State Fault Refusal :=
  issue h (shapeWaitp f) s fun u s =>
    let leader := tb f.imm.toNat 6
    let core := objCore s u.gid leader
    let k := f.imm.toNat % 64
    let b := s.bar core k
    if leaderHeld s u.gid leader then .error (.wait .slot)
    else if !b.act || (leader && !b.blk) then trapOf (5 * 32 + 8)
    else
      let p := (rdU s u f.sa.reg).toNat % 65536
      let d := (b.phase.toNat + 65536 - p) % 65536
      let w := Wait.phase core k p
      if d == 0 then .error (.wait w)
      else
        let waited := decide (((s.g u.gid).nar u.slices).why = w)
        let fl := mkFlags false true false (!waited && decide (2 ≤ d))
        .ok { st := u.active.foldl (fun st q => wrC st (f.cw.toNat % 4) q fl) s }

/-- Operations of a class of a group that are outstanding: the counter of R294. -/
def Group.counter (g : Group) (cls : Nat) : Nat := (g.ops.filter fun o => o.cls == cls && !o.complete).length

/-- WAITC: the fields it takes (R450). -/
def shapeWaitc (f : FmtI) : Shape :=
  { scopes := [.lane, .group]
    enc := [unusedReg 9 f.dst, cwChk false f.cw, unusedSrc 10 f.sa, need 13 (f.imm.toNat < 256), need 8 (f.fn == 0)]
    once := true }

/-- The operations of a class that a WAITC with count n covers: all but the n youngest (R296). -/
def Group.covered (g : Group) (cls n : Nat) : List AsyncOp :=
  let l := g.ops.filter fun o => o.cls == cls
  l.take (l.length - n)

/-- WAITC: waits for the counter; the first faulted operation covered raises its class-6 fault, once (R296, R298, R317). -/
def execWaitc (h : Hdr) (f : FmtI) (s : State) : Host.Outcome State Fault Refusal :=
  issue h (shapeWaitc f) s fun u s =>
    let cls := f.imm.toNat % 4
    let n := f.imm.toNat / 4
    let g := s.g u.gid
    if n < g.counter cls then .error (.wait (.counter u.gid cls n))
    else
      let cov := g.covered cls n
      match cov.find? fun o => o.fault.isSome with
      | some o =>
        .error (.partly { (o.fault.getD { cause := 0 }) with done := u.done }
          (s.modGroup u.gid fun g => { g with ops := g.ops.filter fun x => x.n != o.n }))
      | none => .ok { st := s.modGroup u.gid fun g => { g with ops := g.ops.filter fun x => !cov.contains x } }

/-- BINIT: the fields it takes (R450). -/
def shapeBinit (f : FmtI) : Shape :=
  { enc := [unusedReg 9 f.dst, cwChk false f.cw, srcChk 10 { s := true } true f.sa, need 13 (f.imm.toNat < 128),
      need 8 (f.fn == 0)]
    srcs := [useOf f.sa 2]
    once := true }

/-- BINIT: sets the expectations of an object and clears its counts; PHASE stays (R300, R451). -/
def execBinit (h : Hdr) (f : FmtI) (s : State) : Host.Outcome State Fault Refusal :=
  issue h (shapeBinit f) s fun u s =>
    if u.active.isEmpty then .ok { st := s }
    else
      let core := objCore s u.gid false
      let x := (rdU64 s u f.sa.reg).toNat
      let aexp := x % 2 ^ 32
      let bexp := x / 2 ^ 32
      let blk := tb f.imm.toNat 6
      if aexp == 0 || 32768 < aexp || 2 ^ 28 ≤ bexp || (blk && core != objCore s u.gid true) then trapOf (5 * 32 + 8)
      else
        let k := f.imm.toNat % 64
        ordered s u fun s1 =>
          .ok { st := s1.setBar core k
                  { s.bar core k with aexp := BitVec.ofNat 16 aexp, acnt := 0, bexp := BitVec.ofNat 28 bexp, bcnt := 0,
                                      blk := blk, act := true } }

/-- BQRY: the fields it takes (R450). -/
def shapeBqry (f : FmtI) : Shape :=
  { enc := [dstChk { v := true, s := true, sp := true } f.dst, cwChk false f.cw, unusedSrc 10 f.sa, need 13 (f.imm.toNat < 512),
      need 8 (f.fn == 0)]
    dsts := [{ o := f.dst }]
    once := true }

/-- A word of a barrier object by selector (R451). -/
def Bar.word (b : Bar) (sel : Nat) : Nat :=
  match sel with
  | 0 => b.phase.toNat + b2n b.act * 2 ^ 16 + b2n b.blk * 2 ^ 17
  | 1 => b.acnt.toNat + b.aexp.toNat * 2 ^ 16
  | 2 => b.bcnt.toNat
  | _ => b.bexp.toNat

/-- BQRY: reads the object, and never waits (R451). -/
def execBqry (h : Hdr) (f : FmtI) (s : State) : Host.Outcome State Fault Refusal :=
  issue h (shapeBqry f) s fun u s =>
    let b := s.bar (objCore s u.gid (tb f.imm.toNat 6)) (f.imm.toNat % 64)
    .ok (crossEff u s f.dst 32 false u.active fun _ => { x := b.word (bits f.imm.toNat 8 7) })

/-! ### Stage rings (R170 to R173, R452) -/

/-- A format A instruction of row 0xB: scopes, and the checks of DST and SA; the other fields are unused. -/
def shapeSyncA (f : FmtA) (scopes : List Scope) (dst sa : Option Nat) (srcs dsts : List RegUse) : Shape :=
  { scopes := scopes
    enc := [dst, cwChk false f.cw, sa, unusedSrc 11 f.sb, unusedSrc 12 f.sc, need 8 (f.fn == 0)]
    srcs := srcs
    dsts := dsts
    once := true }

/-- A uniform source of an s register, a special, a constant or the zero code. -/
def uniAcc : Acc := { s := true, sp := true, k := true, z := true }

/-- Ring of a stage on a block core, if there is one. -/
def State.ring (s : State) (bid bcore stage : Nat) : Option Ring := FMap.get none (s.bc bid bcore).rings stage

/-- `s` with the ring of a stage set. -/
def State.setRing (s : State) (bid bcore stage : Nat) (r : Ring) : State :=
  s.modBc bid bcore fun c => { c with rings := FMap.set none c.rings stage (some r) }

/-- Slot `k` of a ring. -/
def Ring.slot (r : Ring) (k : Nat) : RSlot := r.slots.getD k { pay := 0, st := 0, ph := 0 }

/-- An index and its lap moved on by one slot (R171). -/
def Ring.next (r : Ring) (ix lap : Nat) : Nat × Nat := if ix + 1 == r.slots.length then (0, 1 - lap) else (ix + 1, lap)

/-- The slot at PIX filled (R171). -/
def Ring.put (r : Ring) (x : Word) : Ring :=
  let n := r.next r.pix r.plap
  { r with slots := modAt r.slots r.pix fun _ => { pay := x, st := 1, ph := r.plap }, pix := n.1, plap := n.2 }

/-- The slot at GIX taken (R171). -/
def Ring.take (r : Ring) : Ring :=
  let n := r.next r.gix r.glap
  { r with slots := modAt r.slots r.gix fun x => { x with st := 2 }, gix := n.1, glap := n.2 }

/-- The slot at XIX released (R171). -/
def Ring.release (r : Ring) : Ring :=
  { r with slots := modAt r.slots r.xix fun x => { x with st := 0 }, xix := (r.next r.xix 0).1 }

/-- The ring that a group takes from: that of the stage before its own (R171). -/
def takeRing (s : State) (g : Group) : Option (Nat × Ring) :=
  if g.stage == 0 then none else (s.ring g.bid g.bcore (g.stage - 1)).map fun r => (g.stage - 1, r)

/-- RPUT: SA is a uniform payload. -/
def shapeRput (f : FmtA) : Shape :=
  shapeSyncA f [.group, .set] (unusedReg 9 f.dst) (srcChk 10 uniAcc true f.sa) [useOf f.sa 1] []

/-- RPUT: waits for an EMPTY slot, and fills it; a release at core scope (R171 to R173). -/
def execRput (h : Hdr) (f : FmtA) (s : State) : Host.Outcome State Fault Refusal :=
  issue h (shapeRput f) s fun u s =>
    let g := s.g u.gid
    if u.active.isEmpty then .ok { st := s }
    else match s.ring g.bid g.bcore g.stage with
    | none => trapOf (5 * 32 + 4)
    | some r =>
      if (r.slot r.pix).st != 0 then .error (.wait (.ringRoom g.bid g.bcore g.stage))
      else ordered s u fun s1 => .ok { st := s1.setRing g.bid g.bcore g.stage (r.put (rdU s u f.sa.reg)) }

/-- RGET: DST v or s. -/
def shapeRget (f : FmtA) : Shape :=
  shapeSyncA f [.group, .set] (dstChk { v := true, s := true, sp := true } f.dst) (unusedSrc 10 f.sa) [] [{ o := f.dst }]

/-- RGET: waits for a FULL slot, and takes it; every member lane that issues receives the payload (R171 to R173, R452). -/
def execRget (h : Hdr) (f : FmtA) (s : State) : Host.Outcome State Fault Refusal :=
  issue h (shapeRget f) s fun u s =>
    let g := s.g u.gid
    if u.active.isEmpty then .ok { st := s }
    else match takeRing s g with
    | none => trapOf (5 * 32 + 5)
    | some (st, r) =>
      if (r.slot r.gix).st != 1 then .error (.wait (.ringData g.bid g.bcore st))
      else withCells s (dstFull s u f.dst u.issuing)
        (crossEff u (s.setRing g.bid g.bcore st r.take) f.dst 32 false u.issuing fun _ => { x := (r.slot r.gix).pay.toNat })

/-- RREL: no operand. -/
def shapeRrel (f : FmtA) : Shape := shapeSyncA f [.group, .set] (unusedReg 9 f.dst) (unusedSrc 10 f.sa) [] []

/-- RREL: the oldest HELD slot is EMPTY again (R171, R172). -/
def execRrel (h : Hdr) (f : FmtA) (s : State) : Host.Outcome State Fault Refusal :=
  issue h (shapeRrel f) s fun u s =>
    let g := s.g u.gid
    if u.active.isEmpty then .ok { st := s }
    else match takeRing s g with
    | none => trapOf (5 * 32 + 5)
    | some (st, r) =>
      if (r.slot r.xix).st != 2 then trapOf (5 * 32 + 6)
      else .ok { st := s.setRing g.bid g.bcore st r.release }

/-- RDV: no operand. -/
def shapeRdv (f : FmtA) : Shape := shapeSyncA f [.group, .set, .block] (unusedReg 9 f.dst) (unusedSrc 10 f.sa) [] []

/-- RDV: the rendezvous of its scope and nothing else (R176, R452). -/
def execRdv (h : Hdr) (f : FmtA) (s : State) : Host.Outcome State Fault Refusal :=
  issue h (shapeRdv f) s fun _ s => .ok { st := s }

/-! ### Slots, speed, events and signals (R57 to R59, R118, R452 to R455) -/

/-- The slot word of a cluster (R57). -/
def mslotWord (v : SlotView) : Nat :=
  v.seq % 65536 * 2 ^ 48 + v.kind % 8 * 2 ^ 45 + v.follow % 2 * 2 ^ 44 + min v.len 4095 * 2 ^ 32 + b2n v.opened * 2 ^ 31 +
    min v.wait (2 ^ 31 - 1)

/-- A format I instruction of row 0xB with an immediate below `lim` and an optional uniform SA. -/
def shapeSyncI (f : FmtI) (lim : Nat) (sa : Option Nat) (srcs : List RegUse) : Shape :=
  { enc := [unusedReg 9 f.dst, cwChk false f.cw, sa, need 13 (f.imm.toNat < lim), need 8 (f.fn == 0)]
    srcs := srcs
    once := true }

/-- MSWIN: the count in IMM[15:0]. -/
def shapeMswin (f : FmtI) : Shape := shapeSyncI f 65536 (unusedSrc 10 f.sa) []

/-- MSWIN: a claim that no slot opens within n fc, or 9.3 or 9.4 with the slot word (R58). -/
def execMswin (h : Hdr) (f : FmtI) (s : State) : Host.Outcome State Fault Refusal :=
  issue h (shapeMswin f) s fun u s =>
    if u.active.isEmpty then .ok { st := s }
    else
      let cl := clusterOf (s.g u.gid).core
      let c := s.cluster cl
      let w := mslotWord c.slot
      if c.slot.opened then .error (.trap { cause := 9 * 32 + 3, info := w })
      else if c.slot.wait ≤ f.imm.toNat then .error (.trap { cause := 9 * 32 + 4, info := w })
      else .ok { st := s.setCluster cl { c with claims := c.claims ++ [f.imm.toNat] } }

/-- MSLOT: DST a v or s pair. -/
def shapeMslot (f : FmtA) : Shape :=
  shapeSyncA f [.lane] (dstChk { v := true, s := true, sp := true } f.dst) (unusedSrc 10 f.sa) [] [{ o := f.dst, n := 2 }]

/-- MSLOT: the slot word, in every active lane (R57, R452). -/
def execMslot (h : Hdr) (f : FmtA) (s : State) : Host.Outcome State Fault Refusal :=
  issue h (shapeMslot f) s fun u s =>
    .ok (crossEff u s f.dst 64 true u.active fun _ => { x := mslotWord (s.cluster (clusterOf (s.g u.gid).core)).slot })

/-- SPEED: the class in IMM[1:0]. -/
def shapeSpeed (f : FmtI) : Shape := shapeSyncI f 4 (unusedSrc 10 f.sa) []

/-- SPEED: the block's speed request (R453). -/
def execSpeed (h : Hdr) (f : FmtI) (s : State) : Host.Outcome State Fault Refusal :=
  issue h (shapeSpeed f) s fun u s =>
    if u.active.isEmpty then .ok { st := s }
    else
      let bid := (s.g u.gid).bid
      .ok { st := s.setBlock bid { s.b bid with speed := f.imm.toNat } }

/-- An entry of the event queue (R118). -/
def eqEntry (tag core kind stat : Nat) : DWord :=
  BitVec.ofNat 64 (tag % 65536 * 2 ^ 48 + core * 2 ^ 39 + kind * 2 ^ 36 + stat * 2 ^ 34)

/-- EVREC: an optional uniform addend. -/
def shapeEvrec (f : FmtI) : Shape :=
  shapeSyncI f 65536 (if f.sa.reg = .zr then unusedSrc 10 f.sa else srcChk 10 uniAcc true f.sa) [useOf f.sa 1]

/-- EVREC: an entry of kind 4, once the queue has room; a release at cluster scope (R454). -/
def execEvrec (h : Hdr) (f : FmtI) (s : State) : Host.Outcome State Fault Refusal :=
  issue h (shapeEvrec f) s fun u s =>
    if u.active.isEmpty then .ok { st := s }
    else
      let core := (s.g u.gid).core
      let cl := clusterOf core
      if 256 ≤ (s.cluster cl).eq.length then .error (.wait (.events cl))
      else ordered s u fun s1 =>
        let c := s1.cluster cl
        .ok { st := s1.setCluster cl { c with eq := c.eq ++
                [eqEntry (f.imm.toNat + (rdU s u f.sa.reg).toNat) core 4 0] } }

/-- SIGNAL: SA an s pair with the address, DST read as an s pair with the value (R452). -/
def shapeSignal (f : FmtI) : Shape :=
  { enc := [dstChk { s := true } f.dst, cwChk false f.cw, srcChk 10 { s := true } true f.sa, need 13 (f.imm.toNat < 2),
      need 8 (f.fn == 0)]
    srcs := [useOf f.sa 2, { o := f.dst, n := 2 }]
    once := true }

/-- SIGNAL: one 64-bit write or add with release order at system scope; the add is an atomic of the service group, with
the faults of one (R455, R447, log 31). -/
def execSignal (h : Hdr) (f : FmtI) (s : State) : Host.Outcome State Fault Refusal :=
  issue h (shapeSignal f) s fun u s =>
    match u.active with
    | [] => .ok { st := s }
    | p :: _ =>
      let add := f.imm.getLsbD 0
      let ea := (rdU64 s u f.sa.reg).toNat
      let v := (rdU64 s u f.dst).toNat
      match access s u.gid p.lane 1 ea 8 (if add then .atomic else .store) with
      | .error (c, fa) => .error (.trap (siteTrap c fa p))
      | .ok x =>
        if add && x.mt != 0 then .error (.trap (laneTrap (4 * 32) ea p))
        else if add && sitePoisoned s x then .error (.trap (laneTrap (4 * 32 + 3) ea p))
        else if brkHit (s.g u.gid) .store x 8 then .error (.trap { cause := 0x142, faddr := ea })
        else ordered s u fun s1 =>
          if writesHeld s1 [(p, x)] then .error (.wait .slot)
          else
            let old := leVal ((List.range 8).map fun k => locByte s1 (x.loc.plus k))
            .ok { st := storeNow s1 u.gid x { loc := x.loc, bytes := leBytes 8 ((if add then old + v else v) % 2 ^ 64) } }

end Sys2Proof.Machine
end

