-- ==== Sys2Proof/Machine/Engines.lean ====
section
/-!
DEFINITION. Row 0xC of the opcode map: the async engines (R23 to R26, R108, R109, R294 to R298, R456 to R468). An
instruction checks its descriptor and leaves an operation in the group's list; the operation makes its accesses when
it completes (R297).
-/

namespace Sys2Proof.Machine

/-! ### Places that an operation reaches (R457, R458) -/

/-- A place of an operation: a virtual address, or an offset in the tile allocation of a block core. -/
inductive ELoc where
  | glob (va : Int)
  | tile (bid bcore : Nat) (off : Int)
deriving DecidableEq, Repr

/-- A place `k` bytes on. -/
def ELoc.plus (l : ELoc) (k : Int) : ELoc :=
  match l with
  | .glob va => .glob (va + k)
  | .tile b c off => .tile b c (off + k)

/-- The place of a generic address for a group, or none for a window fault or a private address (R457). -/
def engLoc (s : State) (gid ea : Nat) : Option ELoc :=
  match decodeGeneric ea with
  | .error _ => none
  | .ok d =>
    if d.space == 1 then some (.glob d.rest)
    else if d.space == 3 then none
    else match tileCoreOf s (s.g gid) d with
    | none => none
    | some c => some (.tile (s.g gid).bid c (bits d.rest 20 0))

/-- The address lies in the tile window. -/
def inTileWindow (ea : Nat) : Bool :=
  match decodeGeneric ea with
  | .ok d => d.space == 2
  | .error _ => false

/-- The address lies in the global window. -/
def inGlobalWindow (ea : Nat) : Bool :=
  match decodeGeneric ea with
  | .ok d => d.space == 1
  | .error _ => false

/-- A range of bytes lies within its window and the allocation (R247, R458). -/
def rangeOk (s : State) (x : ELoc × Nat) : Bool :=
  match x.1 with
  | .glob va => decide (0 ≤ va && va + (x.2 : Int) ≤ (2 ^ 57 : Int))
  | .tile b _ off => decide (0 ≤ off && off + (x.2 : Int) ≤ ((s.launchOf b).tileb : Int))

/-- A tile range meets a mapped stash range (R265). -/
def rangeStashed (s : State) (x : ELoc × Nat) : Bool :=
  match x.1 with
  | .glob _ => false
  | .tile b c off => (s.bc b c).stashes.any fun m => rangesMeet off.toNat x.2 m.tile (128 * m.lines)

/-- What an operation will do, as its descriptor says: copies of bytes, the ranges that it reads and writes beside them, the
bytes that it moves beside the copies, from one place to another, with none for a place that is neither memory nor tile
memory, and the ranges that it touches where they are not all that its descriptor names. -/
structure Plan where
  moves : List (ELoc × ELoc × Nat) := []
  reads : List (ELoc × Nat) := []
  writes : List (ELoc × Nat) := []
  parts : List (Option ELoc × Option ELoc × Nat) := []
  touch : Option (List (ELoc × Nat) × List (ELoc × Nat)) := none
deriving DecidableEq, Repr

/-- Every range that the operation reads. -/
def Plan.sources (p : Plan) : List (ELoc × Nat) := p.moves.map (fun m => (m.1, m.2.2)) ++ p.reads

/-- Every range that the operation writes. -/
def Plan.targets (p : Plan) : List (ELoc × Nat) := p.moves.map (fun m => (m.2.1, m.2.2)) ++ p.writes

/-- The cause within the engine of a plan that a group may not start: 2 for bounds, 5 for a stash conflict (R458). -/
def Plan.bad (s : State) (p : Plan) : Option Nat :=
  let l := p.sources ++ p.targets
  if l.any fun x => !rangeOk s x then some 2 else if l.any (rangeStashed s) then some 5 else none

/-- The pages of a global range: address and bytes in each. -/
def pagesOf (va n : Nat) : List (Nat × Nat) :=
  (List.range (cdiv (va % 4096 + n) 4096)).map fun k =>
    let a := if k == 0 then va else va / 4096 * 4096 + 4096 * k
    (a, min (va + n) (va / 4096 * 4096 + 4096 * (k + 1)) - a)

/-- The weight of a byte at an end: 8 in LPDDR6, 1 elsewhere in memory, 0 in tile memory, registers, the matrix array or a
remote party (R109). -/
def endWeight (s : State) (ctx : Nat) (x : Option ELoc) : Nat :=
  match x with
  | some (.glob va) =>
    match translate s ctx { write := false, fetch := false, user := false } va.toNat with
    | .ok pa _ => if isLp pa then 8 else 1
    | _ => 1
  | _ => 0

/-- Bytes from an end to the next page of memory. -/
def endRoom (n : Nat) (x : Option ELoc) : Nat :=
  match x with
  | some (.glob va) => 4096 - va.toNat % 4096
  | _ => n

/-- The count of `n` bytes that move between two ends: each byte the sum of its two weights, and at least 1 (R109). The
first number bounds the pages. -/
def chargeMove (s : State) (ctx : Nat) : Nat → Option ELoc → Option ELoc → Nat → Nat
  | 0, _, _, _ => 0
  | fuel + 1, a, b, n =>
    if n == 0 then 0
    else
      let k := min n (min (endRoom n a) (endRoom n b))
      k * max 1 (endWeight s ctx a + endWeight s ctx b) +
        chargeMove s ctx fuel (a.map fun x => x.plus k) (b.map fun x => x.plus k) (n - k)

/-- The count of bytes that move, page by page. -/
def chargeOf (s : State) (ctx : Nat) (x : Option ELoc × Option ELoc × Nat) : Nat :=
  chargeMove s ctx (2 * (x.2.2 / 4096) + 3) x.1 x.2.1 x.2.2

/-- The async bytes of a plan (R109, log 33). -/
def Plan.charge (s : State) (ctx : Nat) (p : Plan) : Nat :=
  ((p.moves.map fun m => chargeOf s ctx (some m.1, some m.2.1, m.2.2)) ++ p.parts.map (chargeOf s ctx)).foldl (· + ·) 0

/-- The first page of a plan that does not translate or refuses the access: the cause within the engine, and the
address (R458). -/
def Plan.untranslated (s : State) (ctx : Nat) (user : Bool) (p : Plan) : Option (Nat × Nat) :=
  let one (write : Bool) (x : ELoc × Nat) : List (Option (Nat × Nat)) :=
    match x.1 with
    | .tile _ _ _ => []
    | .glob va => (pagesOf va.toNat x.2).map fun q =>
      match translate s ctx { write := write, fetch := false, user := user } q.1 with
      | .trans => some (0, q.1)
      | .perm => some (1, q.1)
      | .dark d => some (16 + d, q.1)
      | .ok pa _ => if isHole pa then some (0, q.1) else none
  let t := p.touch.getD (p.sources, p.targets)
  firstSome (t.1.flatMap (one false) ++ t.2.flatMap (one true))

/-! ### Issue (R294, R297, R354, R456 to R459) -/

/-- The roles that may issue the engine instructions of row 0xC (R168). -/
def copyRole : List Role := [.copy]

/-- The shape of an engine command: the DESC rule, the IMM bits and the FN rule of the opcode, whether SA is used, and the
descriptor registers. EVQ gives IMM[15:0] to the tag (R456). -/
def shapeEng (f : FmtE) (roles : List Role) (named : Bool) (imm : Nat) (fnOk saUsed : Bool) (nw : Nat) : Shape :=
  let hi := bits f.imm.toNat 23 16
  { roles := roles
    enc := [need 21 (if named then ({ s := true } : Acc).takes f.desc else decide (f.desc = .zr)), need 21 (f.ben || f.bar == 0),
      if saUsed then srcChk 21 uniAcc true f.sa else unusedSrc 21 f.sa, unusedSrc 21 f.sb,
      need 21 ((f.evq || bits f.imm.toNat 15 0 == 0) && hi &&& imm == hi), need 8 fnOk]
    srcs := (if nw == 0 then [] else [{ o := f.desc, n := nw, align := false }]) ++ (if saUsed then [useOf f.sa 1] else [])
    once := true }

/-- The class-6 cause of an engine (R312). -/
def engCause (e k : Nat) : Nat := 6 * 32 + 8 * e + k

/-- The launch has used its async budget, or would with `n` more bytes (R108). -/
def overBudget (s : State) (bid n : Nat) : Bool :=
  let l := s.launchOf bid
  l.cls == 0 && l.abytes < (s.b bid).abytes + n

/-- A group's new operation. -/
def addOp (s : State) (u : Ux) (cls charge : Nat) (job : Job) (bar evq : Option Nat) (flt : Option Trap) : State :=
  let bid := (s.g u.gid).bid
  (s.setBlock bid { s.b bid with abytes := (s.b bid).abytes + charge }).modGroup u.gid fun g =>
    { g with seq := g.seq + 1
             ops := g.ops ++ [{ n := g.seq, cls := cls, job := job, bar := bar, evq := evq, aborted := false,
                                complete := false, fault := flt }] }

/-- The first stop of an operation with its plan: the budget, which R313 puts first, then bounds and stash conflicts (R458; DEDUCED, log
147). -/
def planStop (s : State) (gid cls : Nat) (p : Plan) : Option Nat :=
  let g := s.g gid
  if overBudget s g.bid (p.charge s (s.launchOf g.bid).ctx) then some (9 * 32 + 1) else (p.bad s).map (engCause cls)

/-- The issue of an operation with its plan: the budget, which R313 puts first, bounds and stash conflicts, the counter, for a
class-0 launch the translation of every page, and the order after every older access of the unit (R297, R458; DEDUCED, log 147). -/
def startOp (f : FmtE) (cls : Nat) (u : Ux) (s : State) (job : Job) (p : Plan) : Res :=
  let g := s.g u.gid
  let l := s.launchOf g.bid
  let charge := p.charge s l.ctx
  match planStop s u.gid cls p with
  | some c => trapOf c
  | none =>
    if 63 ≤ g.counter cls then .error (.wait (.opRoom u.gid cls))
    else ordered s u fun s1 =>
      let bad := if l.cls == 0 then p.untranslated s1 l.ctx job.user else none
      let flt := bad.map fun x => ({ cause := engCause cls (if 16 ≤ x.1 then 7 else x.1), faddr := x.2 } : Trap)
      let s2 := match bad with
        | some x => if 16 ≤ x.1 then sendCheck s1 0x163 (x.1 - 16) [] else s1
        | none => s1
      .ok { st := addOp s2 u cls charge job (if f.ben then some f.bar.toNat else none)
              (if f.evq then some (bits f.imm.toNat 15 0) else none) flt }

/-- The job of a command as captured at issue: opcode, FN, IMM[23:16] and the descriptor words. -/
def jobOf (s : State) (u : Ux) (op nw : Nat) (f : FmtE) : Job :=
  { op := op, user := !(s.g u.gid).sys, fn := f.fn.toNat, imm := bits f.imm.toNat 23 16
    args := (List.range nw).map fun k => (rdU s u (regPlus f.desc k)).toNat
    lanes := u.active.map fun p => (p.gid, p.lane) }

/-- Word `k` of a job. -/
def Job.w (j : Job) (k : Nat) : Nat := j.args.getD k 0

/-- The address in words k and k + 1. -/
def Job.addr (j : Job) (k : Nat) : Nat := j.w k + 2 ^ 32 * j.w (k + 1)

/-- An engine instruction: nothing with no active lane, else the plan of its job or its cause, and the issue. -/
def engEff (f : FmtE) (cls op nw : Nat) (plan : State → Nat → Job → Except Nat Plan) (u : Ux) (s : State) : Res :=
  if u.active.isEmpty then .ok { st := s }
  else
    let job := jobOf s u op nw f
    match plan (drainUnit s u) u.gid job with
    | .error c => trapOf c
    | .ok p => startOp f cls u s job p

/-! ### Bytes moved (R459) -/

/-- An operation at work: bytes performed, bytes landed in the issuing core's tile memory, and the fault that stopped it. -/
structure Eng where
  st : State
  gid : Nat
  cls : Nat
  user : Bool
  done : Nat := 0
  landed : Nat := 0
  flt : Option Trap := none
  /-- FST bits that it has set (R223, R239). -/
  fst : Nat := 0
deriving DecidableEq, Repr

/-- The operation stopped by a fault of its engine at an address. From 16 on the cause is a dark die: the data are poisoned, and
the machine check is reported (R33). -/
def Eng.stop (e : Eng) (k va : Nat) : Eng :=
  { e with
    st := if 16 ≤ k then sendCheck e.st 0x163 (k - 16) [] else e.st
    flt := some { cause := engCause e.cls (if 16 ≤ k then 7 else k), faddr := va, info := e.done % 2 ^ 48 } }

/-- The physical address that an operation reaches, or the cause within the engine: no translation, rights, or poisoned
data, 16 and the die where the die is dark (R33, R312). -/
def Eng.reach (e : Eng) (write : Bool) (va : Nat) : Except Nat Nat :=
  match translate e.st (e.st.launchOf (e.st.g e.gid).bid).ctx { write := write, fetch := false, user := e.user } va with
  | .trans => .error 0
  | .perm => .error 1
  | .dark d => .error (16 + d)
  | .ok pa _ =>
    if isHole pa then .error 0
    else if isDark e.st pa then .error (16 + pa / 0x1000000000)
    else if !write && isPoisoned e.st pa then .error 7
    else .ok pa

/-- Bytes read within one 128-byte line; a line of tile memory with an uncorrectable error is poisoned data (R312). -/
def Eng.read (e : Eng) (l : ELoc) (n : Nat) : Except (Nat × Nat) (List Byte) :=
  match l with
  | .tile b c off =>
    if NSet.has (e.st.bc b c).bad (off.toNat / 128) then .error (7, 0)
    else .ok ((List.range n).map fun k => tileByte e.st b c (off.toNat + k))
  | .glob va =>
    match e.reach false va.toNat with
    | .error k => .error (k, va.toNat)
    | .ok pa => .ok (physBytes e.st pa n)

/-- Bytes written within one 128-byte line: in the L2 slice of the die where it owns the line, else in memory, with no copy left
(R267, R307). -/
def Eng.write (e : Eng) (l : ELoc) (bs : List Byte) : Eng :=
  match l with
  | .tile b c off =>
    let g := e.st.g e.gid
    { e with st := putTile e.st b c off.toNat bs, done := e.done + bs.length
             landed := if b == g.bid && c == g.bcore then e.landed + bs.length else e.landed }
  | .glob va =>
    match e.reach true va.toNat with
    | .error k => e.stop k va.toNat
    | .ok pa =>
      let near := !lineFar e.st (e.st.g e.gid).core true pa
      { e with st := writePhys e.st pa bs (if near then (e.st.g e.gid).bid else noBlock) (e.st.g e.gid).bcore, done := e.done + bs.length }

/-- Bytes from a place to the end of its 128-byte line. -/
def ELoc.room (l : ELoc) : Nat :=
  match l with
  | .glob va => 128 - va.toNat % 128
  | .tile _ _ off => 128 - off.toNat % 128

/-- A part of an operation that goes on part by part: bytes copied within a line, bytes of a fill within a line, or a panel. -/
inductive Piece where
  | move (src dst : ELoc) (n : Nat)
  | fill (dst : ELoc) (n : Nat)
  | panel (k : Nat)
deriving DecidableEq, Repr

/-- The parts of a copy of `n` bytes, in rising order. The first number bounds them. -/
def copyParts : Nat → ELoc → ELoc → Nat → List Piece
  | 0, _, _, _ => []
  | fuel + 1, src, dst, n =>
    if n == 0 then []
    else
      let k := min n (min src.room dst.room)
      .move src dst k :: copyParts fuel (src.plus k) (dst.plus k) (n - k)

/-- The parts of a fill of `n` bytes, in rising order. The first number bounds them. -/
def fillParts : Nat → ELoc → Nat → List Piece
  | 0, _, _ => []
  | fuel + 1, dst, n =>
    if n == 0 then []
    else
      let k := min n dst.room
      .fill dst k :: fillParts fuel (dst.plus k) (n - k)

/-- `n` bytes read in rising order. -/
def Eng.readAll : Nat → Eng → ELoc → Nat → Except (Nat × Nat) (List Byte)
  | 0, _, _, _ => .ok []
  | fuel + 1, e, src, n =>
    if n == 0 then .ok []
    else
      let k := min n src.room
      match e.read src k with
      | .error x => .error x
      | .ok bs =>
        match Eng.readAll fuel e (src.plus k) (n - k) with
        | .error x => .error x
        | .ok rest => .ok (bs ++ rest)

/-- Bytes written in rising order. -/
def Eng.writeAll : Nat → Eng → ELoc → List Byte → Eng
  | 0, e, _, _ => e
  | fuel + 1, e, dst, bs =>
    if bs.isEmpty || e.flt.isSome then e
    else
      let k := min bs.length dst.room
      Eng.writeAll fuel (e.write dst (bs.take k)) (dst.plus k) (bs.drop k)

/-! ### Copies, gathers and fills (R460, R461, R468) -/

/-- A signed descriptor word. -/
def Job.sw (j : Job) (k : Nat) : Int := sext 32 (j.w k)

/-- Two places that a job names, or the WINDOW cause of its engine. -/
def places (s : State) (gid e : Nat) (a b : Nat) : Except Nat (ELoc × ELoc) :=
  match engLoc s gid a, engLoc s gid b with
  | some x, some y => .ok (x, y)
  | _, _ => .error (engCause e 2)

/-- CPY: a length of 1 to 2^31. -/
def planCpy (s : State) (gid : Nat) (j : Job) : Except Nat Plan :=
  let n := j.w 4
  if n == 0 || 2 ^ 31 < n then .error (engCause 0 6)
  else match places s gid 0 (j.addr 0) (j.addr 2) with
  | .error c => .error c
  | .ok (a, b) => .ok { moves := [(a, b, n)] }

/-- CPY2D: rows in ascending order. -/
def planCpy2d (s : State) (gid : Nat) (j : Job) : Except Nat Plan :=
  let n := j.w 4
  let rows := j.w 5
  if n == 0 || 65536 < n || rows == 0 || 65535 < rows then .error (engCause 0 6)
  else match places s gid 0 (j.addr 0) (j.addr 2) with
  | .error c => .error c
  | .ok (a, b) =>
    .ok { moves := (List.range rows).map fun (r : Nat) => (a.plus (r * j.sw 6), b.plus (r * j.sw 7), n) }

/-- CPYT: an extent of elements, with rows and columns exchanged under XP 1 and 2 (R257, R460). -/
def planCpyt (s : State) (gid : Nat) (j : Job) : Except Nat Plan :=
  let xp := j.fn % 4
  let esz := j.fn / 4 % 4
  let sz := 2 ^ esz
  let cols := j.w 4
  let rows := j.w 5
  if xp == 3 || (xp == 1 && esz != 0) || (xp == 2 && esz != 1) || cols == 0 || 4096 < cols || rows == 0 || 4096 < rows ||
      !inTileWindow (j.addr 2) then .error (engCause 0 6)
  else match places s gid 0 (j.addr 0) (j.addr 2) with
  | .error c => .error c
  | .ok (a, b) =>
    let mv := if xp == 0 then (List.range rows).map fun (i : Nat) => (a.plus (i * j.sw 6), b.plus (i * j.sw 7), cols * sz)
      else (List.range rows).flatMap fun (i : Nat) => (List.range cols).map fun (k : Nat) =>
        (a.plus (i * j.sw 6 + (k * sz : Nat)), b.plus (k * j.sw 7 + (i * sz : Nat)), sz)
    .ok { moves := mv }

/-- An operation of a group is to complete faulted, without an access (R298, R458, R491). -/
def failOp (s : State) (gid n : Nat) (t : Trap) : State :=
  s.modGroup gid fun g => { g with ops := g.ops.map fun o => if o.n == n then { o with fault := some (o.fault.getD t) } else o }

/-- A line of tile memory that a range meets holds an uncorrectable error (R312). -/
def rangePoisoned (s : State) (x : ELoc × Nat) : Bool :=
  match x.1 with
  | .glob _ => false
  | .tile b c off => (s.bc b c).bad.any fun l => decide (off.toNat / 128 ≤ l && l ≤ (off.toNat + x.2 - 1) / 128 && x.2 != 0)

/-- The indices of GATH and SCAT, read as the instruction issues from the index array in the issuing core's tile window. -/
def gathIdx (s : State) (gid : Nat) (j : Job) : Except Nat (List Nat) :=
  let n := j.w 4
  if n == 0 || 65536 < n || !inTileWindow (j.addr 5) then .error (engCause 1 6)
  else match engLoc s gid (j.addr 5) with
  | some (.tile b c off) =>
    if !rangeOk s (.tile b c off, 4 * n) then .error (engCause 1 2)
    else .ok ((List.range n).map fun k =>
      leVal ((List.range 4).map fun i => loadByte s gid (.tile b c (off.toNat + 4 * k + i))))
  | _ => .error (engCause 1 2)

/-- The plan of GATH or SCAT over its indices, which stand after the descriptor words in the job. -/
def planGather (scat : Bool) (s : State) (gid : Nat) (j : Job) : Except Nat Plan :=
  let sz := 2 ^ (j.fn % 4)
  match places s gid 1 (j.addr 0) (j.addr 2) with
  | .error c => .error c
  | .ok (base, dense) =>
    let ix := j.args.drop 7
    let mv := ix.zipIdx.map fun x =>
      let far := base.plus ((x.1 * sz : Nat) : Int)
      let near := dense.plus ((x.2 * sz : Nat) : Int)
      if scat then (near, far, sz) else (far, near, sz)
    .ok { moves := mv }

/-- The job of GATH and SCAT: the descriptor words and the indices. Where the index array holds an uncorrectable error the
operation completes faulted, without an access (R312, R459). -/
def gathEff (f : FmtE) (op : Nat) (scat : Bool) (u : Ux) (s : State) : Res :=
  if u.active.isEmpty then .ok { st := s }
  else
    let job := jobOf s u op 7 f
    match gathIdx s u.gid job with
    | .error c => trapOf c
    | .ok ix =>
      let job2 := { job with args := job.args ++ ix }
      match planGather scat s u.gid job2 with
      | .error c => trapOf c
      | .ok p =>
        match engLoc s u.gid (job.addr 5) with
        | none => trapOf (engCause 1 2)
        | some l =>
          if rangeStashed s (l, 4 * ix.length) then trapOf (engCause 1 5)
          else (startOp f 1 u s job2 p).map fun e =>
            if rangePoisoned s (l, 4 * ix.length) then
              { e with st := failOp e.st u.gid (s.g u.gid).seq { cause := engCause 1 7 } }
            else e

/-- CFILL: an aligned destination, and a length that is a multiple of 4 from 4 to 2^31. The pattern stands after the
descriptor words. -/
def planCfill (s : State) (gid : Nat) (j : Job) : Except Nat Plan :=
  let n := j.w 2
  if n == 0 || n % 4 != 0 || 2 ^ 31 < n || j.w 0 % 4 != 0 then .error (engCause 0 6)
  else match engLoc s gid (j.addr 0) with
  | none => .error (engCause 0 2)
  | some d => .ok { writes := [(d, n)], parts := [(none, some d, n)] }

/-- CINV: a global range; no byte moves. -/
def planCinv (s : State) (gid : Nat) (j : Job) : Except Nat Plan :=
  if !inGlobalWindow (j.addr 0) then .error (engCause 0 6)
  else match engLoc s gid (j.addr 0) with
  | none => .error (engCause 0 2)
  | some d => .ok { reads := [(d, j.w 2)] }

/-! ### Sparse records (R462, R463, R501) -/

/-- Consecutive elements of `sz` bytes. -/
def elemsOf (sz n : Nat) (bs : List Byte) : List (List Byte) := (List.range n).map fun k => (bs.drop (k * sz)).take sz

/-- The sparse record of dense elements: its bytes up to CAP, and whether it is longer than CAP (R462). -/
def sparseRecord (sesz cap : Nat) (els : List (List Byte)) : List Byte × Bool :=
  let sz := 2 ^ sesz
  let full := els.map fun e => e.any fun b => b != 0
  let nz := els.filter fun e => e.any fun b => b != 0
  let len := 72 + nz.length * sz
  let tooLong := decide (cap < len)
  let mask := full.zipIdx.foldl (fun m x => if x.1 then m + 2 ^ x.2 else m) 0
  let head := len + nz.length * 2 ^ 32 + sesz * 2 ^ 48 + b2n tooLong * 2 ^ 50
  let fit := min nz.length ((cap - 72) / sz)
  (leBytes 8 head ++ leBytes 64 mask ++ (nz.take fit).flatten, tooLong)

/-- The bytes that STSP moves where its dense elements are known: every element from the source, those that are not zero on
into the record while they fit, and the header and mask; and the bytes of the record (R109, R462). -/
def storeParts (a b : ELoc) (sesz cap : Nat) (els : List (List Byte)) : List (Option ELoc × Option ELoc × Nat) × Nat :=
  let sz := 2 ^ sesz
  let full := els.map fun e => e.any fun x => x != 0
  let at_ (i : Nat) : Option ELoc :=
    let q := ((full.take i).filter id).length
    if full.getD i false && 72 + (q + 1) * sz ≤ cap then some (b.plus ((72 + q * sz : Nat) : Int)) else none
  ((none, some b, 72) :: (List.range els.length).map fun i => (some (a.plus ((i * sz : Nat) : Int)), at_ i, sz),
    (sparseRecord sesz cap els).1.length)

/-- The header and mask of a record that LDSP accepts: the number of its values and the mask (R463). -/
def goodRecord (n cap sesz : Nat) (hd : List Byte) : Option (Nat × Nat) :=
  let h := leVal (hd.take 8)
  let mask := leVal (hd.drop 8)
  let nnz := bits h 47 32
  if tb h 50 || cap < bits h 31 0 || nnz != popc 512 mask || 2 ^ n ≤ mask || bits h 49 48 != sesz then none
  else some (nnz, mask)

/-- The bytes that LDSP moves: the header and mask, and every element of the destination, from the record or zero (R109,
R463). -/
def loadParts (a b : ELoc) (n sz mask : Nat) : List (Option ELoc × Option ELoc × Nat) :=
  (some a, none, 72) :: (List.range n).map fun i =>
    let d := some (b.plus ((i * sz : Nat) : Int))
    if tb mask i then (some (a.plus ((72 + popc 512 (mask % 2 ^ i) * sz : Nat) : Int)), d, sz) else (none, d, sz)

/-- STSP and LDSP: n of 1 to 512, CAP of 72 to 2^20, SESZ below 3. The pages that it touches and the bytes that it moves are
those of the record as it stands at issue (R109, R458). -/
def planSparse (st : Bool) (s : State) (gid : Nat) (j : Job) : Except Nat Plan :=
  let n := j.w 4
  let cap := j.w 5
  let sesz := j.fn % 4
  let e : Eng := { st := s, gid := gid, cls := 1, user := j.user }
  if sesz == 3 || n == 0 || 512 < n || cap < 72 || 2 ^ 20 < cap then .error (engCause 1 6)
  else match places s gid 1 (j.addr 0) (j.addr 2) with
  | .error c => .error c
  | .ok (a, b) =>
    let d := n * 2 ^ sesz
    if st then
      let x := match Eng.readAll d e a d with
        | .error _ => ([(some a, none, d)], 72)
        | .ok bs => storeParts a b sesz cap (elemsOf (2 ^ sesz) n bs)
      .ok { reads := [(a, d)], writes := [(b, cap)], parts := x.1, touch := some ([(a, d)], [(b, x.2)]) }
    else
      match (match Eng.readAll 72 e a 72 with
        | .error _ => none
        | .ok hd => goodRecord n cap sesz hd) with
      | none => .ok { reads := [(a, cap)], writes := [(b, d)], parts := [(some a, none, 72)], touch := some ([(a, 72)], []) }
      | some (nnz, mask) =>
        .ok { reads := [(a, cap)], writes := [(b, d)], parts := loadParts a b n (2 ^ sesz) mask
              touch := some ([(a, 72 + nnz * 2 ^ sesz)], [(b, d)]) }

/-- STSP at work. -/
def runStsp (e : Eng) (a b : ELoc) (j : Job) : Eng :=
  let n := j.w 4
  let sesz := j.fn % 4
  let d := n * 2 ^ sesz
  match Eng.readAll d e a d with
  | .error (c, va) => e.stop c va
  | .ok bs =>
    let r := sparseRecord sesz (j.w 5) (elemsOf (2 ^ sesz) n bs)
    let e1 := Eng.writeAll r.1.length e b r.1
    if e1.flt.isNone && r.2 then e1.stop 4 0 else e1

/-- The dense elements that a mask and packed values give (R463). -/
def unpackSparse (sz mask : Nat) : Nat → Nat → List Byte → List Byte
  | 0, _, _ => []
  | n + 1, i, vals =>
    if tb mask i then vals.take sz ++ unpackSparse sz mask n (i + 1) (vals.drop sz)
    else List.replicate sz 0 ++ unpackSparse sz mask n (i + 1) vals

/-- LDSP at work: the record is checked before any byte is written (R463). -/
def runLdsp (e : Eng) (a b : ELoc) (j : Job) : Eng :=
  let n := j.w 4
  let cap := j.w 5
  let sesz := j.fn % 4
  match Eng.readAll 72 e a 72 with
  | .error (c, va) => e.stop c va
  | .ok hd =>
    match goodRecord n cap sesz hd with
    | none => e.stop 6 0
    | some (nnz, mask) => match Eng.readAll (nnz * 2 ^ sesz) e (a.plus 72) (nnz * 2 ^ sesz) with
    | .error (c, va) => e.stop c va
    | .ok vals => Eng.writeAll (n * 2 ^ sesz) e b (unpackSparse (2 ^ sesz) mask n 0 vals)

/-! ### Panels (R464) -/

/-- Bits of an element of a format as it lies in memory: the 6-bit codes take a byte each. -/
def Fmt.storeBits (F : Fmt) : Nat := if F.width == 6 then 8 else F.width

/-- CPYPL: the plan, with the plane region at its destination. -/
def planCpypl (s : State) (gid : Nat) (j : Job) : Except Nat Plan :=
  let g := s.g gid
  let l := s.launchOf g.bid
  let k := j.imm % 8
  let sl := slotAt s gid k
  match l.planeAt (j.addr 2) with
  | none => .error (7 * 32 + 6)
  | some r =>
    if r.slot != k then .error (7 * 32 + 6)
    else if j.w 4 == 0 || r.rows < j.w 4 * sl.panelRows then .error (engCause 0 6)
    else if !inGlobalWindow (j.addr 0) || (sl.smode == 1 && !inGlobalWindow (j.addr 5)) then .error (engCause 0 6)
    else match engLoc s gid (j.addr 0), engLoc s gid (if sl.smode == 1 then j.addr 5 else j.addr 0) with
    | some a, some c =>
      let n := j.w 4 * 4096 * sl.F.storeBits / 8
      let scales := if sl.smode == 1 then [(c, j.w 4 * 128)] else []
      .ok { reads := (a, n) :: scales
            writes := [(.tile g.bid g.bcore (j.addr 2), j.w 4 * sl.panelRows * 512)]
            parts := ((a, n) :: scales).map fun x => (some x.1, none, x.2) }
    | _, _ => .error (engCause 0 2)

/-- Element `i` of the source of a panel, as a plane operand reads it, with its FST bits: i8 code 0x80 stands for -127 and
sets SAT, and i4s code 0b1000 sets I4S (R223, R239). -/
def panelElem (F : Fmt) (bs : Array Byte) (i : Nat) : XV × Nat :=
  let w := F.storeBits
  let code := match w with
    | 16 => (bs.getD (2 * i) 0).toNat + 256 * (bs.getD (2 * i + 1) 0).toNat
    | 4 => (bs.getD (i / 2) 0).toNat / 16 ^ (i % 2) % 16
    | _ => (bs.getD i 0).toNat
  if F.kind == .int && F.width == 8 && code == 0x80 then (xInt (-127), fstSat) else F.decode code

/-- The halves of a panel from its element codes and scale bytes (R226, R464). -/
def panelHalves (sl : Slot) (bs : Array Byte) (scales : List Byte) : List (Nat × List PEl) :=
  (List.range 128).map fun vh =>
    let xs := (List.range 32).map fun n => (panelElem sl.F bs (vh / 2 * 64 + vh % 2 * 32 + n)).1
    if sl.smode == 1 then
      let sc := (scales.getD vh 0).toNat
      if sc == 255 then halfOf sl.F 0 (xs.map fun _ => .nan) else halfOf sl.F ((sc : Int) - 127) xs
    else halfOf sl.F 0 xs

/-- The source of panel `p` of a CPYPL: its elements, and its scales where the slot has them, with their lengths (R464). -/
def panelSources (s : State) (gid : Nat) (j : Job) (p : Nat) : List (ELoc × Nat) :=
  let sl := slotAt s gid (j.imm % 8)
  let n := 4096 * sl.F.storeBits / 8
  ((ELoc.glob (j.addr 0)).plus ((p * n : Nat) : Int), n) ::
    if sl.smode == 1 then [((ELoc.glob (j.addr 5)).plus ((p * 128 : Nat) : Int), 128)] else []

/-- CPYPL at work on panel `p`, which is written whole. -/
def Eng.panel (e : Eng) (j : Job) (p : Nat) : Eng :=
  let g := e.st.g e.gid
  let sl := slotAt e.st e.gid (j.imm % 8)
  let read (x : ELoc × Nat) : Except (Nat × Nat) (List Byte) := Eng.readAll x.2 e x.1 x.2
  match panelSources e.st e.gid j p with
  | [] => e
  | src :: rest =>
    match read src, rest.mapM read with
    | .error (c, va), _ => e.stop c va
    | _, .error (c, va) => e.stop c va
    | .ok bs, .ok sc =>
      let out := panelBytes sl.F (panelHalves sl bs.toArray sc.flatten)
      let fst := (List.range 4096).foldl (fun x i => x ||| (panelElem sl.F bs.toArray i).2) 0
      Eng.writeAll out.length { e with fst := e.fst ||| fst } (.tile g.bid g.bcore (j.addr 2 + p * sl.panelRows * 512)) out

/-! ### Collectives (R465) -/

/-- COLL: both ranges in the issuing core's tile window; a length that is a multiple of 4 up to 65,536. -/
def planColl (s : State) (gid : Nat) (j : Job) : Except Nat Plan :=
  let n := j.w 4
  if n % 4 != 0 || 65536 < n || !inTileWindow (j.addr 0) || !inTileWindow (j.addr 2) then .error (engCause 3 6)
  else match places s gid 3 (j.addr 0) (j.addr 2) with
  | .error c => .error c
  | .ok (a, b) =>
    let out := if j.fn % 8 == 4 then n * (s.b (s.g gid).bid).cores.length else n
    .ok { reads := [(a, n)], writes := [(b, out)], parts := [(none, some b, out)] }

/-- The code of a COLL whose bytes have been exchanged: its landed bytes stand in its words. -/
def collDone : Nat := 0x1C8

/-- The COLL of an id on a block core that waits: the group and the operation. -/
def collOn (s : State) (bid id c : Nat) : Option (Nat × AsyncOp) :=
  firstSome ((groupsOf s bid).map fun gid =>
    let g := s.g gid
    if g.bcore != c then none
    else (g.ops.find? fun o => !o.complete && o.job.op == 0xC8 && o.job.imm == id).map fun o => (gid, o))

/-- The COLLs of an id on every core of a block, once each core has issued one. -/
def collParty (s : State) (bid id : Nat) : Option (List (Nat × AsyncOp)) :=
  let l := (List.range (s.b bid).cores.length).map (collOn s bid id)
  if l.any Option.isNone then none else some (l.filterMap fun x => x)

/-- Word `k` of some bytes. -/
def wordAt (bs : List Byte) (k : Nat) : Nat := leVal ((bs.drop (4 * k)).take 4)

/-- The result of a collective over the sources of the cores in ascending index (R465); a NaN is the canonical one, in a block of one
core too (R217). -/
def collResult (op : Nat) (srcs : List (List Byte)) : List Byte :=
  let n := (srcs.headD []).length / 4
  let fold (f : Nat → Nat → Nat) : List Byte :=
    (List.range n).flatMap fun k =>
      match srcs.map fun b => wordAt b k with
      | [] => []
      | x :: rest => leBytes 4 (rest.foldl f x)
  match op with
  | 0 => fold fun a b => (a + b) % 2 ^ 32
  | 1 =>
    let quiet (b : List Byte) : List Byte := (List.range n).flatMap fun k =>
      leBytes 4 (minMax fmtF32 false (wordAt b k) (wordAt b k))
    if srcs.length == 1 then quiet (srcs.headD [])
    else fold fun a b => (arith fmtF32 0 0 [f32 a, f32 b] (xSum 0 [f32 a, f32 b])).1
  | 2 => (List.range n).flatMap fun k => leBytes 4 (reduce 10 (srcs.map fun b => wordAt b k)).1
  | 3 => srcs.headD []
  | _ => srcs.flatten

/-- An operation of a group with its job changed. -/
def setJob (s : State) (gid n : Nat) (j : Job) : State :=
  s.modGroup gid fun g => { g with ops := g.ops.map fun o => if o.n == n then { o with job := j } else o }

/-- Every operation of a collective is to complete faulted with a cause. -/
def failParty (s : State) (party : List (Nat × AsyncOp)) (cause : Nat) : State :=
  party.foldl (fun st x => failOp (setJob st x.1 x.2.n { x.2.job with op := collDone, args := [0] }) x.1 x.2.n { cause := cause }) s

/-- A core's source of a collective holds an uncorrectable error. -/
def sourcePoisoned (s : State) (x : Nat × AsyncOp) : Bool :=
  match engLoc s x.1 (x.2.job.addr 0) with
  | some l => rangePoisoned s (l, x.2.job.w 4)
  | none => false

/-- The exchange of a collective: every core's destination is written, or each operation has 6.30 when the cores differ in
OP or length, or 6.31 when one of the sources that OP reads is poisoned: each core's result rests on it (R459, R465; DEDUCED, log
153). -/
def exchange (s : State) (party : List (Nat × AsyncOp)) : State :=
  let job (x : Nat × AsyncOp) : Job := x.2.job
  let none_ : Job := { op := 0, user := true, fn := 0, imm := 0, args := [], lanes := [] }
  let first := ((party.head?).map job).getD none_
  if party.any fun x => (job x).fn != first.fn || (job x).w 4 != first.w 4 then failParty s party (engCause 3 6)
  else if (if first.fn % 8 == 3 then party.take 1 else party).any (sourcePoisoned s) then failParty s party (engCause 3 7)
  else
    let read (x : Nat × AsyncOp) : List Byte :=
      match engLoc s x.1 ((job x).addr 0) with
      | some (.tile b c off) => (List.range ((job x).w 4)).map fun k => tileByte s b c (off.toNat + k)
      | _ => []
    let out := collResult (first.fn % 8) (party.map read)
    party.foldl (fun st x =>
      match engLoc s x.1 ((job x).addr 2) with
      | some d =>
        let e := Eng.writeAll out.length { st := st, gid := x.1, cls := 3, user := true } d out
        setJob e.st x.1 x.2.n { job x with op := collDone, args := [out.length] }
      | none => st) s

/-! ### Operand links (R23 to R26, R467) -/

/-- The cluster that faces a cluster in a direction: 0 north, 1 south, 2 east, 3 west (R23, R25). -/
def neighbour (cl dir : Nat) : Option Nat :=
  let die := cl / 12
  let row := cl % 12 / 4
  let col := cl % 4
  match dir with
  | 0 => if 0 < row then some (cl - 4) else if 4 ≤ die then some ((die - 4) * 12 + 8 + col) else none
  | 1 => if row < 2 then some (cl + 4) else if die < 4 then some ((die + 4) * 12 + col) else none
  | 2 => if col < 3 then some (cl + 1) else if die % 4 != 3 then some ((die + 1) * 12 + row * 4) else none
  | _ => if 0 < col then some (cl - 1) else if die % 4 != 0 then some ((die - 1) * 12 + row * 4 + 3) else none

/-- The opposite direction. -/
def opposite (dir : Nat) : Nat :=
  match dir with
  | 0 => 1
  | 1 => 0
  | 2 => 3
  | _ => 2

/-- Beats that a cluster holds from a side, in flight and received. -/
def Cluster.beats (c : Cluster) (dir : Nat) : Nat := (FMap.get [] c.flight dir).length + (FMap.get [] c.recv dir).length

/-- NSEND and NRECV: a link in the direction, a place in the issuing core's tile window, a length in whole beats. -/
def planLink (recv : Bool) (s : State) (gid : Nat) (j : Job) : Except Nat Plan :=
  let n := j.w 2
  if (neighbour (clusterOf (s.g gid).core) (j.imm % 4)).isNone then .error (7 * 32 + 11)
  else if n == 0 || n % 32 != 0 || 2 ^ 21 < n || !inTileWindow (j.addr 0) then .error (engCause 0 6)
  else match engLoc s gid (j.addr 0) with
  | none => .error (engCause 0 2)
  | some a =>
    .ok (if recv then { writes := [(a, n)], parts := [(none, some a, n)] } else { reads := [(a, n)], parts := [(some a, none, n)] })

/-! ### RDMA (R466) -/

/-- RDMA: a bound connection, a length of 1 to 2^31. -/
def planRdma (s : State) (gid : Nat) (j : Job) : Except Nat Plan :=
  let n := j.w 6
  let conn := bits (j.w 0) 26 0
  if n == 0 || 2 ^ 31 < n || !s.host.bound.contains (conn, (s.launchOf (s.g gid).bid).ctx) then .error (engCause 3 6)
  else match engLoc s gid (j.addr 4) with
  | none => .error (engCause 3 2)
  | some a =>
    .ok (if j.fn % 2 == 1 then { writes := [(a, n)], parts := [(none, some a, n)] }
      else { reads := [(a, n)], parts := [(some a, none, n)] })

/-! ### The instructions (R456) -/

/-- CPY. -/
def shapeCpy (f : FmtE) : Shape := shapeEng f copyRole true 0 (f.fn == 0) false 5

/-- CPY (R460). -/
def execCpy (h : Hdr) (f : FmtE) (s : State) : Host.Outcome State Fault Refusal :=
  issue h (shapeCpy f) s fun u s => engEff f 0 0xC0 5 planCpy u s

/-- CPY2D. -/
def shapeCpy2d (f : FmtE) : Shape := shapeEng f copyRole true 0 (f.fn == 0) false 8

/-- CPY2D (R460). -/
def execCpy2d (h : Hdr) (f : FmtE) (s : State) : Host.Outcome State Fault Refusal :=
  issue h (shapeCpy2d f) s fun u s => engEff f 0 0xC1 8 planCpy2d u s

/-- CPYT. -/
def shapeCpyt (f : FmtE) : Shape := shapeEng f copyRole true 0 (f.fn.toNat < 16) false 8

/-- CPYT (R257, R460). -/
def execCpyt (h : Hdr) (f : FmtE) (s : State) : Host.Outcome State Fault Refusal :=
  issue h (shapeCpyt f) s fun u s => engEff f 0 0xC2 8 planCpyt u s

/-- GATH. -/
def shapeGath (f : FmtE) : Shape := shapeEng f copyRole true 0 (f.fn.toNat < 4) false 7

/-- GATH (R461). -/
def execGath (h : Hdr) (f : FmtE) (s : State) : Host.Outcome State Fault Refusal :=
  issue h (shapeGath f) s fun u s => gathEff f 0xC3 false u s

/-- SCAT. -/
def shapeScat (f : FmtE) : Shape := shapeEng f copyRole true 0 (f.fn.toNat < 4) false 7

/-- SCAT (R461). -/
def execScat (h : Hdr) (f : FmtE) (s : State) : Host.Outcome State Fault Refusal :=
  issue h (shapeScat f) s fun u s => gathEff f 0xC4 true u s

/-- STSP. -/
def shapeStsp (f : FmtE) : Shape := shapeEng f copyRole true 0 (f.fn.toNat < 4) false 6

/-- STSP (R462). -/
def execStsp (h : Hdr) (f : FmtE) (s : State) : Host.Outcome State Fault Refusal :=
  issue h (shapeStsp f) s fun u s => engEff f 1 0xC5 6 (planSparse true) u s

/-- LDSP. -/
def shapeLdsp (f : FmtE) : Shape := shapeEng f copyRole true 0 (f.fn.toNat < 4) false 6

/-- LDSP (R463). -/
def execLdsp (h : Hdr) (f : FmtE) (s : State) : Host.Outcome State Fault Refusal :=
  issue h (shapeLdsp f) s fun u s => engEff f 1 0xC6 6 (planSparse false) u s

/-- CPYPL. -/
def shapeCpypl (f : FmtE) : Shape := shapeEng f copyRole true 7 (f.fn == 0) false 7

/-- CPYPL: the slot's fault comes before those of its descriptor (R232, R313, R464). -/
def execCpypl (h : Hdr) (f : FmtE) (s : State) : Host.Outcome State Fault Refusal :=
  issue h (shapeCpypl f) s fun u s =>
    let sl := slotAt s u.gid (bits f.imm.toNat 18 16)
    match (if u.active.isEmpty then none else slotFault sl sl.elem) with
    | some c => trapOf c
    | none => engEff f 0 0xC7 7 planCpypl u s

/-- COLL: OP 0 to 4. -/
def shapeColl (f : FmtE) : Shape := shapeEng f copyRole true 255 (f.fn.toNat < 5) false 5

/-- COLL (R465). -/
def execColl (h : Hdr) (f : FmtE) (s : State) : Host.Outcome State Fault Refusal :=
  issue h (shapeColl f) s fun u s => engEff f 3 0xC8 5 planColl u s

/-- RDMA. -/
def shapeRdma (f : FmtE) : Shape := shapeEng f copyRole true 0 (f.fn.toNat < 2) false 7

/-- RDMA (R466). -/
def execRdma (h : Hdr) (f : FmtE) (s : State) : Host.Outcome State Fault Refusal :=
  issue h (shapeRdma f) s fun u s => engEff f 3 0xC9 7 planRdma u s

/-- NSEND: legal for COPY and MATRIX groups. -/
def shapeNsend (f : FmtE) : Shape := shapeEng f [.copy, .matrix] true 3 (f.fn == 0) false 3

/-- NSEND (R467). -/
def execNsend (h : Hdr) (f : FmtE) (s : State) : Host.Outcome State Fault Refusal :=
  issue h (shapeNsend f) s fun u s => engEff f 0 0xCA 3 (planLink false) u s

/-- NRECV: legal for COPY and MATRIX groups. -/
def shapeNrecv (f : FmtE) : Shape := shapeEng f [.copy, .matrix] true 3 (f.fn == 0) false 3

/-- An NRECV of a group is still to be performed. -/
def recvLive (s : State) (x : Nat × Nat × Nat) : Bool :=
  (s.g x.2.1).ops.any fun o => o.n == x.2.2 && !o.complete && o.job.op == 0xCB

/-- An NRECV takes its place in the order of its core's direction (R467). -/
def queueRecv (s : State) (gid n dir : Nat) : State :=
  let core := (s.g gid).core
  let c := s.core core
  s.setCore core { c with recvs := c.recvs.filter (recvLive s) ++ [(dir, gid, n)] }

/-- An NRECV is the oldest of its core on its direction (R467). -/
def recvTurn (s : State) (gid n dir : Nat) : Bool :=
  ((s.core (s.g gid).core).recvs.find? fun x => x.1 == dir && recvLive s x) == some (dir, gid, n)

/-- NRECV (R467). -/
def execNrecv (h : Hdr) (f : FmtE) (s : State) : Host.Outcome State Fault Refusal :=
  issue h (shapeNrecv f) s fun u s =>
    match engEff f 0 0xCB 3 (planLink true) u s with
    | .error e => .error e
    | .ok e =>
      if u.active.isEmpty then .ok e
      else .ok { e with st := queueRecv e.st u.gid (s.g u.gid).seq (bits f.imm.toNat 17 16) }

/-- CFILL: SA is the pattern. -/
def shapeCfill (f : FmtE) : Shape := shapeEng f copyRole true 0 (f.fn == 0) true 3

/-- CFILL (R468). -/
def execCfill (h : Hdr) (f : FmtE) (s : State) : Host.Outcome State Fault Refusal :=
  issue h (shapeCfill f) s fun u s =>
    if u.active.isEmpty then .ok { st := s }
    else
      let j := jobOf s u 0xCC 3 f
      let job := { j with args := j.args ++ [(rdU s u f.sa.reg).toNat] }
      match planCfill s u.gid job with
      | .error c => trapOf c
      | .ok p => startOp f 0 u s job p

/-- CINV. -/
def shapeCinv (f : FmtE) : Shape := shapeEng f copyRole true 0 (f.fn == 0) false 3

/-- CINV (R468). -/
def execCinv (h : Hdr) (f : FmtE) (s : State) : Host.Outcome State Fault Refusal :=
  issue h (shapeCinv f) s fun u s => engEff f 0 0xCD 3 planCinv u s

/-- CSTAT: DESC is its destination. -/
def shapeCstat (f : FmtE) : Shape :=
  let sh := shapeEng f [.copy, .matrix, .vector] true 0 (f.fn == 0) false 0
  { sh with dsts := [{ o := f.desc }] }

/-- CSTAT: the four counters of the group (R468). -/
def execCstat (h : Hdr) (f : FmtE) (s : State) : Host.Outcome State Fault Refusal :=
  issue h (shapeCstat f) s fun u s =>
    let g := s.g u.gid
    .ok { st := writeLanes s u f.desc 32 0 fun _ =>
      (g.counter 0 + g.counter 1 * 2 ^ 8 + g.counter 2 * 2 ^ 16 + g.counter 3 * 2 ^ 24, 0) }

/-- CABORT: no register. -/
def shapeCabort (f : FmtE) : Shape := shapeEng f [.copy, .matrix, .vector] false 3 (f.fn == 0) false 0

/-- An entry written to a cluster's event queue by an engine; with the queue full it waits (R118, R120). -/
def pushEvent (s : State) (cl : Nat) (e : DWord) : State :=
  let c := s.cluster cl
  if 256 ≤ c.eq.length || !c.eqWait.isEmpty then s.setCluster cl { c with eqWait := c.eqWait ++ [e] }
  else s.setCluster cl { c with eq := c.eq ++ [e] }

/-- The event entry of an operation that ends, if EVQ was set. -/
def opEvent (s : State) (gid : Nat) (o : AsyncOp) (stat : Nat) : State :=
  match o.evq with
  | none => s
  | some tag =>
    let core := (s.g gid).core
    pushEvent s (clusterOf core) (eqEntry tag core o.cls stat)

/-- CABORT: every outstanding operation of the class ends, in issue order, with STAT 2 and no fault (R295, R468). Its
accesses are partly performed: none of those that it had still to make. -/
def execCabort (h : Hdr) (f : FmtE) (s : State) : Host.Outcome State Fault Refusal :=
  issue h (shapeCabort f) s fun u s =>
    if u.active.isEmpty then .ok { st := s }
    else
      let cls := bits f.imm.toNat 17 16
      let hit (o : AsyncOp) : Bool := o.cls == cls && !o.complete
      let gone := (s.g u.gid).ops.filter hit
      let cut (o : AsyncOp) : AsyncOp :=
        if hit o then { o with aborted := true, complete := true, fault := none } else o
      let s1 := s.modGroup u.gid fun g => { g with ops := g.ops.map cut }
      .ok { st := gone.foldl (fun st o => opEvent st u.gid o 2) s1 }

/-! ### Work of an operation (R295, R459) -/

/-- What an operation answers when it is asked to complete: the state, the bytes performed and landed, the fault, and
whether it has ended. -/
structure Ran where
  st : State
  done : Nat := 0
  landed : Nat := 0
  flt : Option Trap := none
  ended : Bool := true
  /-- FST bits that the operation sets in its group (R469). -/
  fst : Nat := 0
deriving DecidableEq, Repr

/-- An engine that has done its work. -/
def Eng.ran (e : Eng) : Ran := { st := e.st, done := e.done, landed := e.landed, flt := e.flt, fst := e.fst }

/-- NSEND at work: beats leave while the receiver has room; the count sent stands after the descriptor words. A beat whose line
holds an uncorrectable error ends it (R312, R459). -/
def runNsend (s : State) (gid : Nat) (o : AsyncOp) : Ran :=
  let j := o.job
  let cl := clusterOf (s.g gid).core
  match neighbour cl (j.imm % 4), engLoc s gid (j.addr 0) with
  | some nb, some (.tile b c off) =>
    let side := opposite (j.imm % 4)
    let sent := j.w 3
    let total := j.w 2 / 32
    let room := 16 - (s.cluster nb).beats side
    let k := min room (total - sent)
    let at_ (i : Nat) : ELoc := .tile b c (off + ((32 * (sent + i) : Nat) : Int))
    let good := ((List.range k).takeWhile fun i => !rangePoisoned s (at_ i, 32)).length
    let beats := (List.range good).map fun i =>
      (List.range 32).map fun x => tileByte s b c (off.toNat + 32 * (sent + i) + x)
    let cn := s.cluster nb
    let s1 := s.setCluster nb { cn with flight := FMap.set [] cn.flight side (FMap.get [] cn.flight side ++ beats) }
    if good < k then
      { st := s1, done := 32 * (sent + good), flt := some { cause := engCause 0 7, info := 32 * (sent + good) } }
    else if sent + k == total then { st := s1, done := j.w 2 }
    else { st := setJob s1 gid o.n { j with args := j.args.take 3 ++ [sent + k] }, ended := false }
  | _, _ => { st := s }

/-- NRECV at work: received beats land in ascending order, for the oldest NRECV of the core on its direction. -/
def runNrecv (s : State) (gid : Nat) (o : AsyncOp) : Ran :=
  let j := o.job
  let cl := clusterOf (s.g gid).core
  match engLoc s gid (j.addr 0) with
  | some (.tile b c off) =>
    let dir := j.imm % 4
    let cn := s.cluster cl
    let q := FMap.get [] cn.recv dir
    let got := j.w 3
    let total := j.w 2 / 32
    let k := if recvTurn s gid o.n dir then min q.length (total - got) else 0
    let s1 := s.setCluster cl { cn with recv := FMap.set [] cn.recv dir (q.drop k) }
    let s2 := (q.take k).zipIdx.foldl (fun st x => putTile st b c (off.toNat + 32 * (got + x.2)) x.1) s1
    if got + k == total then { st := s2, done := j.w 2, landed := j.w 2 }
    else { st := setJob s2 gid o.n { j with args := j.args.take 3 ++ [got + k] }, ended := false }
  | _ => { st := s }

/-- RDMA at work: the request is sent, once its port carries traffic and at most 15 READs are outstanding on its connection; then
its answer ends it (R64, R466). -/
def runRdma (s : State) (gid : Nat) (o : AsyncOp) (e : Eng) : Ran :=
  let j := o.job
  let n := j.w 6
  let read := j.fn % 2 == 1
  match engLoc s gid (j.addr 4) with
  | none => { st := s }
  | some a =>
    let conn := bits (j.w 0) 26 0
    match s.host.requests.find? fun r => r.gid == gid && r.n == o.n with
    | none =>
      if !portUp s conn || (read && 16 ≤ (s.host.requests.filter fun r => r.read && r.conn == conn).length) then
        { st := s, ended := false }
      else match (if read then .ok [] else Eng.readAll n e a n) with
      | .error (c, va) => (e.stop c va).ran
      | .ok bs =>
        let r : RdmaReq := { gid := gid, n := o.n, conn := conn, key := j.w 1, addr := j.addr 2, read := read,
                             len := n, data := bs, reply := none }
        { st := { s with host := { s.host with requests := s.host.requests ++ [r] } }, ended := false }
    | some r =>
      let s1 := { s with host := { s.host with requests := s.host.requests.filter fun x => !(x.gid == gid && x.n == o.n) } }
      match r.reply with
      | none => { st := s, ended := false }
      | some none => (({ e with st := s1 } : Eng).stop 7 0).ran
      | some (some bs) =>
        if read then (Eng.writeAll n { e with st := s1 } a ((bs ++ List.replicate n 0).take n)).ran
        else { st := s1, done := n }

/-- CINV at work: the lines that meet the range are held by no L2 slice and no near copy (R468). -/
def runCinv (e : Eng) (j : Job) : Eng :=
  let va := j.addr 0
  (pagesOf va (j.w 2)).foldl (fun (e : Eng) p =>
    if e.flt.isSome then e
    else match e.reach false p.1 with
    | .error k => e.stop k p.1
    | .ok pa =>
      { e with st := { e.st with dir := FMap.keep (fun l => !(pa / 128 ≤ l && l ≤ (pa + p.2 - 1) / 128)) e.st.dir } }) e

/-! ### What a drain window or a slot holds of an operation (R50, R52, R53) -/

/-- A drain window of a cluster: from the time that its countdown reads 512 until the slot closes (R52). -/
def Cluster.drains (c : Cluster) : Bool := c.drain || (!c.slot.opened && decide (c.slot.wait ≤ 512))

/-- A drain window of its cluster, or a slot at the device, keeps a group's operations from their parts beyond the die. -/
def holdsOps (s : State) (gid : Nat) : Bool := (s.cluster (clusterOf (s.g gid).core)).drains || memHeld s

/-- The places of a range, one in each 128-byte line. -/
def rangeLines (x : ELoc × Nat) : List ELoc :=
  let off := 128 - x.1.room
  (List.range (cdiv (off + x.2) 128)).map fun k => if k == 0 then x.1 else x.1.plus ((128 * k : Nat) - (off : Int))

/-- A place lies beyond the die of a group: in memory, or in an L2 slice or tile memory of another die; so does a page whose
translation is still to be found (R50, log 125). -/
def placeFar (s : State) (gid : Nat) (write : Bool) (l : ELoc) : Bool :=
  let core := (s.g gid).core
  match l with
  | .tile b c off => locFar s core write (.tile b c off.toNat)
  | .glob va => match vAddr s (s.launchOf (s.g gid).bid).ctx { write := false, fetch := false, user := false } va.toNat with
    | none => true
    | some pa => isWindow pa || lineFar s core write pa

/-- A place that an operation writes lies in a line of memory with a transaction at hand (R307). -/
def placeBusy (s : State) (gid : Nat) (l : ELoc) : Bool :=
  match l with
  | .tile _ _ _ => false
  | .glob va => match vAddr s (s.launchOf (s.g gid).bid).ctx { write := false, fetch := false, user := false } va.toNat with
    | none => false
    | some pa => writeWaits s (if lineFar s (s.g gid).core true pa then none else some (s.g gid).core) pa

/-- A range that an operation reads, or writes, lies in part beyond the die. -/
def rangeFar (s : State) (gid : Nat) (x : Bool × ELoc × Nat) : Bool := (rangeLines x.2).any (placeFar s gid x.1)

/-- A range that an operation writes meets a line with a transaction at hand. -/
def rangeBusy (s : State) (gid : Nat) (x : Bool × ELoc × Nat) : Bool := x.1 && (rangeLines x.2).any (placeBusy s gid)

/-- A range that a window or a slot holds, or another transaction. -/
def rangeHeld (s : State) (gid : Nat) (x : Bool × ELoc × Nat) : Bool := (holdsOps s gid && rangeFar s gid x) || rangeBusy s gid x

/-! ### Operations that go on part by part (R53) -/

/-- The operations whose parts go on one by one. -/
def piecewise (op : Nat) : Bool := [0xC0, 0xC1, 0xC2, 0xC3, 0xC4, 0xC7, 0xCC].contains op

/-- The copies of a plan. -/
def planMoves (p : Except Nat Plan) : List Piece :=
  match p with
  | .ok p => p.moves.flatMap fun m => copyParts m.2.2 m.1 m.2.1 m.2.2
  | .error _ => []

/-- The parts of an operation, in order. -/
def piecesOf (s : State) (gid : Nat) (j : Job) : List Piece :=
  match j.op with
  | 0xC0 => planMoves (planCpy s gid j)
  | 0xC1 => planMoves (planCpy2d s gid j)
  | 0xC2 => planMoves (planCpyt s gid j)
  | 0xC3 => planMoves (planGather false s gid j)
  | 0xC4 => planMoves (planGather true s gid j)
  | 0xC7 => (List.range (j.w 4)).map .panel
  | 0xCC => match engLoc s gid (j.addr 0) with
    | some d => fillParts (j.w 2) d (j.w 2)
    | none => []
  | _ => []

/-- The ranges of a part: whether it writes them, where they begin, and their bytes. -/
def pieceRanges (s : State) (gid : Nat) (j : Job) : Piece → List (Bool × ELoc × Nat)
  | .move src dst n => [(false, src, n), (true, dst, n)]
  | .fill dst n => [(true, dst, n)]
  | .panel p => (panelSources s gid j p).map fun x => (false, x)

/-- A part at work. -/
def Eng.piece (e : Eng) (j : Job) (p : Piece) : Eng :=
  match p with
  | .move src dst n => match e.read src n with
    | .error (c, va) => e.stop c va
    | .ok bs => e.write dst bs
  | .fill dst n => e.write dst (((List.replicate (n / 4) (leBytes 4 (j.w 3))).flatten).take n)
  | .panel p => e.panel j p

/-- The rows of CPY2D, and the elements of SCAT, go in order (R460, R461). -/
def inOrder (op : Nat) : Bool := op == 0xC1 || op == 0xC4

/-- An operation at work on its parts: the parts performed, and whether one of them is held. -/
structure Moving where
  e : Eng
  behind : List Nat
  cut : Bool
deriving DecidableEq, Repr

/-- One part of an operation: performed, or held with those that follow it where they go in order. -/
def Moving.next (x : Moving) (o : AsyncOp) (p : Piece × Nat) : Moving :=
  if x.e.flt.isSome || o.behind.contains p.2 then x
  else if (inOrder o.job.op && x.cut) || (pieceRanges x.e.st x.e.gid o.job p.1).any (rangeHeld x.e.st x.e.gid) then { x with cut := true }
  else { x with e := x.e.piece o.job p.1, behind := p.2 :: x.behind }

/-- A paused operation keeps account of what it has performed (R53). -/
def Moving.pause (x : Moving) (o : AsyncOp) : State :=
  x.e.st.modGroup x.e.gid fun g =>
    { g with fst := g.fst ||| BitVec.ofNat 6 x.e.fst
             ops := g.ops.map fun y => if y.n == o.n then { y with did := x.e.done, came := x.e.landed, behind := x.behind } else y }

/-- An operation that goes on part by part: the parts that nothing holds are performed, and while one is held it pauses (R53). -/
def runPieces (s : State) (gid : Nat) (o : AsyncOp) : Ran :=
  let e : Eng := { st := s, gid := gid, cls := o.cls, user := o.job.user, done := o.did, landed := o.came }
  let x := (piecesOf s gid o.job).zipIdx.foldl (fun (x : Moving) p => x.next o p) { e := e, behind := o.behind, cut := false }
  if x.e.flt.isSome || !x.cut then x.e.ran else { st := x.pause o, ended := false }

/-- An operation of row 0xC at work. -/
def runEngine (s : State) (gid : Nat) (o : AsyncOp) : Ran :=
  let j := o.job
  let e : Eng := { st := s, gid := gid, cls := o.cls, user := j.user }
  if piecewise j.op then runPieces s gid o
  else match j.op with
  | 0xC5 => match places s gid 1 (j.addr 0) (j.addr 2) with
    | .ok (a, b) => (runStsp e a b j).ran
    | .error _ => e.ran
  | 0xC6 => match places s gid 1 (j.addr 0) (j.addr 2) with
    | .ok (a, b) => (runLdsp e a b j).ran
    | .error _ => e.ran
  | 0xC9 => runRdma s gid o e
  | 0xCA => runNsend s gid o
  | 0xCB => runNrecv s gid o
  | 0xCD => (runCinv e j).ran
  | _ =>
    if j.op == collDone then { st := s, done := j.w 0, landed := j.w 0, flt := o.fault }
    else match collParty s (s.g gid).bid j.imm with
    | none => { st := s, ended := false }
    | some l => { st := exchange s l, ended := false }

end Sys2Proof.Machine
end

