-- ==== Sys2Proof/Machine/MatrixMath.lean ====
section
/-!
DEFINITION. The arithmetic of the matrix array: K blocks (R239 to R242, R259), scales, activations and softmax
(R478 to R480), and the work of the operations on accumulators and tile memory (R473 to R484).
-/

namespace Sys2Proof.Machine

/-! ### FP32 steps with their FST bits -/

/-- An FP32 code with the FST bits gathered so far. -/
abbrev FV := Nat × Nat

/-- A product rounded with RNE. -/
def FV.mul (a b : FV) : FV :=
  let r := arith fmtF32 0 0 [f32 a.1, f32 b.1] ((f32 a.1).mul (f32 b.1))
  (r.1, r.2 ||| a.2 ||| b.2)

/-- A sum rounded with RNE. -/
def FV.add (a b : FV) : FV :=
  let r := arith fmtF32 0 0 [f32 a.1, f32 b.1] (xSum 0 [f32 a.1, f32 b.1])
  (r.1, r.2 ||| a.2 ||| b.2)

/-- A difference rounded with RNE. -/
def FV.sub (a b : FV) : FV :=
  let r := arith fmtF32 0 0 [f32 a.1, f32 b.1] (xSum 0 [f32 a.1, (f32 b.1).opp])
  (r.1, r.2 ||| a.2 ||| b.2)

/-- A quotient rounded with RNE. -/
def FV.div (a b : FV) : FV :=
  let r := arith fmtF32 0 0 [f32 a.1, f32 b.1] ((f32 a.1).div (f32 b.1))
  (r.1, r.2 ||| a.2 ||| b.2)

/-- A special function of a value. -/
def FV.fn (g : XV → Nat × Nat) (a : FV) : FV :=
  let r := g (f32 a.1)
  (r.1, r.2 ||| a.2)

/-- A code without FST bits. -/
def fv (c : Nat) : FV := (c, 0)

/-- The activation of a code (R479). -/
def activate (code : Nat) (x : FV) : FV :=
  let v := f32 x.1
  let pos := !v.isNan && !v.isZero && !v.isNeg
  if v.isNan then (fmtF32.nanCode, x.2)
  else match code with
  | 0 => x
  | 1 => if pos then x else (0, x.2)
  | 2 => if pos then x else x.mul (fv 0x3C800000)
  | 3 =>
    let q := (x.add (((x.mul x).mul x).mul (fv 0x3D372713))).mul (fv 0x3F4C422A)
    (x.mul (fv 0x3F000000)).mul ((fv 0x3F800000).add (q.fn sfuTanh))
  | 4 => x.fn sfuSigm
  | 5 => x.fn sfuSint
  | _ => (x.mul (fv 0x3FB8AA3B)).fn sfuEx2

/-- The softmax of a row (R480). -/
def softmaxRow (row : List Nat) : List FV :=
  let m := row.tail.foldl (minMax fmtF32 true) (row.headD 0)
  let nan := row.any fun x => (f32 x).isNan
  if nan || m == 0x7F800000 then
    let st := if nan then 0 else fstInv
    row.map fun _ => (fmtF32.nanCode, st)
  else if m == 0xFF800000 then row.map fun _ => (0, 0)
  else
    let e := row.map fun x => (((fv x).sub (fv m)).mul (fv 0x3FB8AA3B)).fn sfuEx2
    let s := e.foldl FV.add (0, 0)
    e.map fun x => x.div s

/-! ### K blocks (R240 to R242, R259) -/

/-- A K half of an operand: its exponent and 32 elements with the planes in use. -/
abbrev Half := Int × List PEl

/-- Bytes [a, a + n) of a tile allocation. -/
def tileArr (c : BCore) (a n : Nat) : Array Byte :=
  c.tile.foldl (fun (m : Array Byte) e => if a ≤ e.1 && e.1 < a + n then m.setIfInBounds (e.1 - a) e.2 else m)
    (Array.replicate n 0)

/-- The bit of element (v, k) in a row of a panel. -/
def arrBit (p : Array Byte) (row v k : Nat) : Bool := tb (p.getD (512 * row + 8 * v + k / 8) 0).toNat (k % 8)

/-- The header word of a half of a panel. -/
def arrE (p : Array Byte) (v h : Nat) : Nat := (p.getD (4 * v + 2 * h) 0).toNat + 256 * (p.getD (4 * v + 2 * h + 1) 0).toNat

/-- A half of vector `v` with the top `np` magnitude planes (R259). -/
def halfAtArr (p : Array Byte) (np v h : Nat) : Half :=
  (sext 16 (arrE p v h), (List.range 32).map fun n =>
    let k := 32 * h + n
    { x := arrBit p 1 v k, z := arrBit p 2 v k, sg := arrBit p 3 v k
      mag := (List.range np).foldl (fun a r => 2 * a + b2n (arrBit p (4 + r) v k)) 0 })

/-- A half from element values: the exponent of R239 and the top `np` planes. -/
def halfOfVals (F : Fmt) (np : Nat) (l : List XV) : Half :=
  let e := (blockExp F l).getD 0
  (e, (l.map (pelOf F e)).map fun x => { x with mag := x.mag / 2 ^ (F.full - np) })

/-- The product of two K halves of `pa` and `pb` planes, before the remaining scales (R240, R242). A zero element gives
no product. -/
def blockSum (pa pb : Nat) (a b : Half) : FV :=
  let ps := a.2.zip b.2
  if ps.any fun p => p.1.x || p.2.x then
    let nan (e : PEl) (np : Nat) : Bool := e.x && tb e.mag (np - 1)
    let infs := ps.filter fun p => p.1.x || p.2.x
    let neg (p : PEl × PEl) : Bool := p.1.sg != p.2.sg
    if ps.any fun p => nan p.1 pa || nan p.2 pb then (fmtF32.nanCode, 0)
    else if infs.any fun p => p.1.z || p.2.z then (fmtF32.nanCode, fstInv)
    else if infs.any neg && infs.any fun p => !neg p then (fmtF32.nanCode, fstInv)
    else (fmtF32.infCode (infs.any neg), 0)
  else
    let s : Int := ps.foldl (fun (t : Int) p =>
      if p.1.z || p.2.z then t
      else
        let m : Int := p.1.mag * p.2.mag
        if p.1.sg != p.2.sg then t - m else t + m) 0
    if s == 0 then (0, 0)
    else rne32 (xDyadic (decide (s < 0)) s.natAbs (a.1 - pa + 1 + b.1 - pb + 1))

/-- The remaining scales of a block result: A's, then B's (R241). -/
def scaled (x : FV) (sa sb : Option Nat) : FV :=
  let one (x : FV) (s : Option Nat) : FV :=
    match s with
    | none => x
    | some c => x.mul (fv c)
  one (one x sa) sb

/-- A starting sum with the K blocks of two vectors added in ascending order (R240). -/
def dotBlocks (pa pb : Nat) (sa sb : Option Nat) (x : FV) (a b : List Half) : FV :=
  (a.zip b).foldl (fun x p => x.add (scaled (blockSum pa pb p.1 p.2) sa sb)) x

/-! ### Accumulators and tile words (R470) -/

/-- Element (i, j) of an accumulator. -/
def Core.accAt (c : Core) (a i j : Nat) : Nat := (FMap.get 0 c.acc (4096 * a + 64 * i + j)).toNat

/-- The words of an accumulator, row after row. -/
def Core.accArr (c : Core) (a : Nat) : Array Nat :=
  c.acc.foldl (fun (m : Array Nat) e => if e.1 / 4096 == a then m.setIfInBounds (e.1 % 4096) e.2.toNat else m)
    (Array.replicate 4096 0)

/-- An accumulator written whole, in canonical form. -/
def Core.setAcc (c : Core) (a : Nat) (x : Array Nat) : Core :=
  let new := (List.range 4096).filterMap fun k =>
    let w := BitVec.ofNat 32 (x.getD k 0)
    if w == 0 then none else some (4096 * a + k, w)
  { c with acc := FMap.keep (fun k => decide (k < 4096 * a)) c.acc ++ new ++ FMap.keep (fun k => decide (4096 * (a + 1) ≤ k)) c.acc }

/-- Element after element of an accumulator: new codes and the FST bits. -/
def mapAcc (s : State) (core a : Nat) (f : Nat → Nat → Nat → FV) : State × Nat :=
  let c := s.core core
  let old := c.accArr a
  let new := (List.range 4096).map fun k => f (k / 64) (k % 64) (old.getD k 0)
  (s.setCore core (c.setAcc a (new.map (·.1)).toArray), new.foldl (fun t x => t ||| x.2) 0)

/-- The FP32 words at a tile offset. -/
def tileWords (c : BCore) (a n : Nat) : Array Nat :=
  let b := tileArr c a (4 * n)
  ((List.range n).map fun k => leVal ((List.range 4).map fun i => b.getD (4 * k + i) 0)).toArray

/-! ### The jobs of format X -/

/-- The fields of a format X job, in its first words: ACC, SLA, SLB, PA, PB, TRI, MASK; then the words that the
instruction read. -/
def xArgs (f : FmtX) : List Nat :=
  [f.acc.toNat, f.sla.toNat, f.slb.toNat, f.pa.toNat, f.pb.toNat, f.tri.toNat, f.mask.toNat]

/-- ACC of a job. -/
def Job.acc (j : Job) : Nat := j.w 0

/-- Word `k` that a format X instruction read. -/
def Job.x (j : Job) (k : Nat) : Nat := j.w (7 + k)

/-- The plane count of an operand (R239). -/
def planesOf (sl : Slot) (p : Nat) : Nat := if p == 0 then sl.F.full else p

/-- The block core of a group whose core is `core`. -/
def bcOn (s : State) (gid core : Nat) : BCore :=
  (((s.b (s.g gid).bid).cores.find? fun k => k.core == core).getD BCore.blank)

/-! ### MMA, MMAP, MMAT, MMAPT (R473 to R475) -/

/-- The scale of each vector of an operand, where its slot has one (R241). -/
def vecScales (sl : Slot) (c : BCore) (off : Nat) : Nat → Option Nat :=
  match sl.smode with
  | 2 => let w := tileWords c off 64; fun i => some (w.getD i 0)
  | 3 => fun _ => some sl.tscale
  | _ => fun _ => none

/-- The halves of the 64 vectors of an operand over `kc` panels. -/
def operandHalves (sl : Slot) (c : BCore) (off np kc : Nat) : Array (List Half) :=
  let panels := (List.range kc).map fun p => tileArr c (off + p * (512 * sl.panelRows)) (512 * sl.panelRows)
  ((List.range 64).map fun v => panels.flatMap fun p => [halfAtArr p np v 0, halfAtArr p np v 1]).toArray

/-- An element is masked (R475). -/
def masked (tri : Nat) (d i j : Int) : Bool :=
  match tri with
  | 1 => decide (d < j - i)
  | 2 => decide (j - i < d)
  | _ => false

/-- What a masked element holds (R475). -/
def maskConst (mask old : Nat) : Nat :=
  match mask with
  | 0 => 0
  | 1 => 0xFF800000
  | 2 => 0x7F800000
  | 3 => 0xFF7FFFFF
  | _ => old

/-- The product on one core: its rows begin at `row0`, B comes from the core `bcore`. -/
def mmaOn (s : State) (gid : Nat) (j : Job) (core bcore row0 : Nat) : State × Nat :=
  let slA := slotAt s gid (j.w 1)
  let slB := slotAt s gid (j.w 2)
  let pa := planesOf slA (j.w 3)
  let pb := planesOf slB (j.w 4)
  let kc := bits (j.x 2) 6 0
  let d := sext 8 (j.x 2 / 256)
  let ca := bcOn s gid core
  let cb := bcOn s gid bcore
  let a := operandHalves slA ca (j.x 0) pa kc
  let b := operandHalves slB cb (j.x 1) pb kc
  let sa := vecScales slA ca (j.x 3)
  let sb := vecScales slB cb (j.x 4)
  mapAcc s core j.acc fun i k old =>
    if masked (j.w 5) d ((row0 + i : Nat) : Int) k then fv (maskConst (j.w 6) old)
    else dotBlocks pa pb (sa i) (sb k) (fv old) (a.getD i []) (b.getD k [])

/-- MMA and MMAT. -/
def runMma (s : State) (gid : Nat) (j : Job) : Ran :=
  let core := (s.g gid).core
  let r := mmaOn s gid j core core 0
  { st := r.1, fst := r.2 }

/-- MMAP and MMAPT: rows 0 to 63 on the leader, 64 to 127 on the follower (R474). -/
def runMmap (s : State) (gid : Nat) (j : Job) : Ran :=
  let core := (s.g gid).core
  let r := mmaOn s gid j core core 0
  let q := mmaOn r.1 gid j (core + 1) core 64
  { st := q.1, fst := r.2 ||| q.2 }

/-! ### ACZ, ACLD, ACST, MSCL, MSOFT, MEPI (R476 to R480) -/

/-- A core whose accumulator has been written whole: an error in it is gone (R319). -/
def Core.freshAcc (c : Core) (a : Nat) : Core := { c with accEcc := NSet.del c.accEcc a }

/-- ACZ. -/
def runAcz (s : State) (gid : Nat) (j : Job) : Ran :=
  let c := s.core (s.g gid).core
  { st := s.setCore (s.g gid).core ((c.setAcc j.acc #[]).freshAcc j.acc) }

/-- ACLD. -/
def runAcld (s : State) (gid : Nat) (j : Job) : Ran :=
  let core := (s.g gid).core
  let k := bcOn s gid core
  let t := bits (j.x 1) 16 0
  let rows := (List.range 64).map fun i => tileWords k (j.x 0 + i * t) 64
  { st := s.setCore core (((s.core core).setAcc j.acc (rows.toArray.flatMap id)).freshAcc j.acc) }

/-- The bytes of a row of element codes: nibbles pack in pairs, 6-bit codes take a byte (R224, R464). -/
def packRow (F : Fmt) (codes : List Nat) : List Byte :=
  if F.storeBits == 4 then (List.range (codes.length / 2)).flatMap fun k =>
    leBytes 1 (codes.getD (2 * k) 0 + 16 * codes.getD (2 * k + 1) 0)
  else codes.flatMap fun c => leBytes (F.storeBits / 8) c

/-- A row of ACST: its bytes, the scale bytes of SMODE 1, and the FST bits. `r` is the row scale of SMODE 2. -/
def acstRow (sl : Slot) (r : Nat) (row : List Nat) : List Byte × List Byte × Nat :=
  if sl.fmtc == 1 then (row.flatMap fun x => leBytes 4 x, [], 0)
  else
    let vals := row.map f32
    let sc := [mxScale sl.F (vals.take 32), mxScale sl.F (vals.drop 32)]
    let out := vals.zipIdx.map fun x => encodeElem sl 6 0 (if sl.smode == 2 then r else sc.getD (x.2 / 32) 0) x.1
    (packRow sl.F (out.map (·.1)), sc.flatMap fun x => leBytes 1 x, out.foldl (fun t x => t ||| x.2) 0)

/-- ACST. -/
def runAcst (s : State) (gid : Nat) (j : Job) : Ran :=
  let g := s.g gid
  let sl := slotAt s gid (j.w 1)
  let t := bits (j.x 1) 16 0
  let acc := (s.core g.core).accArr j.acc
  let r := (List.range 64).foldl (fun (x : BCore × Nat) i =>
    let scale := (tileWords x.1 (j.x 2 + 4 * i) 1).getD 0 0
    let y := acstRow sl scale ((List.range 64).map fun k => acc.getD (64 * i + k) 0)
    let c1 := if sl.smode == 1 then rawTile x.1 (j.x 2 + 2 * i) y.2.1 else x.1
    (rawTile c1 (j.x 0 + i * t) y.1, x.2 ||| y.2.2)) (s.bc g.bid g.bcore, 0)
  { st := s.modBc g.bid g.bcore fun _ => r.1, fst := r.2 }

/-- MSCL. -/
def runMscl (s : State) (gid : Nat) (j : Job) : Ran :=
  let core := (s.g gid).core
  let k := bcOn s gid core
  let mode := j.fn % 4
  let rs := if tb mode 0 then tileWords k (j.x 0) 64 else #[]
  let cs := if tb mode 1 then tileWords k (j.x 1) 64 else #[]
  let r := mapAcc s core j.acc fun i n x =>
    match mode with
    | 0 => (fv x).mul (fv (j.x 2))
    | 1 => (fv x).mul (fv (rs.getD i 0))
    | 2 => (fv x).mul (fv (cs.getD n 0))
    | _ => ((fv x).mul (fv (rs.getD i 0))).mul (fv (cs.getD n 0))
  { st := r.1, fst := r.2 }

/-- MSOFT. -/
def runMsoft (s : State) (gid : Nat) (j : Job) : Ran :=
  let core := (s.g gid).core
  let n := j.fn % 128
  let acc := (s.core core).accArr j.acc
  let rows := ((List.range 64).map fun i => (softmaxRow ((List.range n).map fun k => acc.getD (64 * i + k) 0)).toArray).toArray
  let r := mapAcc s core j.acc fun i k x => if k < n then (rows.getD i #[]).getD k (0, 0) else fv x
  { st := r.1, fst := r.2 }

/-- MEPI. -/
def runMepi (s : State) (gid : Nat) (j : Job) : Ran :=
  let core := (s.g gid).core
  let bias := tb j.fn 3
  let b := if bias then tileWords (bcOn s gid core) (j.x 0) 64 else #[]
  let r := mapAcc s core j.acc fun _ k x =>
    activate (j.fn % 8) (if bias then (fv x).add (fv (b.getD k 0)) else fv x)
  { st := r.1, fst := r.2 }

/-! ### PLCV (R483) -/

/-- The halves of a panel from FP32 words, with the FST bits of the conversions. -/
def plcvHalf (sl : Slot) (l : List Nat) : (Nat × List PEl) × Nat :=
  let vals := l.map f32
  let sc := mxScale sl.F vals
  if sl.smode == 1 && sc == 255 then (halfOf sl.F 0 (vals.map fun _ => .nan), 0)
  else
    let out := vals.map fun x => encodeElem sl 6 0 sc x
    let xs := out.map fun c => (sl.F.decode c.1).1
    (halfOf sl.F (if sl.smode == 1 then (sc : Int) - 127 else 0) xs, out.foldl (fun t x => t ||| x.2) 0)

/-- PLCV: panel after panel. The descriptor words stand first in the job. -/
def runPlcv (s : State) (gid : Nat) (j : Job) : Ran :=
  let g := s.g gid
  let sl := slotAt s gid (j.imm % 8)
  let h := 512 * sl.panelRows
  let r := (List.range (j.w 2)).foldl (fun (x : BCore × Nat) p =>
    let w := tileWords x.1 (j.w 0 + 16384 * p) 4096
    let halves := (List.range 128).map fun vh => plcvHalf sl ((List.range 32).map fun n => w.getD (32 * vh + n) 0)
    (rawTile x.1 (j.w 1 + h * p) (panelBytes sl.F (halves.map (·.1))),
      halves.foldl (fun t y => t ||| y.2) x.2)) (s.bc g.bid g.bcore, 0)
  { st := s.modBc g.bid g.bcore fun _ => r.1, done := h * j.w 2, landed := h * j.w 2, fst := r.2 }

/-! ### Networks (R481, R482) -/

/-- A shape record. -/
structure NetRec where
  layers : Nat
  /-- W0 to W8. -/
  widths : List Nat
  acts : Nat
  weights : Nat
  bias : Nat
  /-- Bytes 14, 15 and 32 to 63. -/
  rest : List Nat
deriving DecidableEq, Repr

/-- The record that 64 bytes hold. -/
def netRec (bs : List Byte) : NetRec :=
  let b (k : Nat) : Nat := (bs.getD k 0).toNat
  { layers := b 0, widths := (List.range 9).map fun k => b (1 + k)
    acts := leVal ((bs.drop 10).take 4), weights := leVal ((bs.drop 16).take 8), bias := leVal ((bs.drop 24).take 8)
    rest := b 14 :: b 15 :: (List.range 32).map fun k => b (32 + k) }

/-- Wl. -/
def NetRec.wd (r : NetRec) (l : Nat) : Nat := r.widths.getD l 0

/-- The record keeps to the table of R481. -/
def NetRec.ok (r : NetRec) : Bool :=
  1 ≤ r.layers && r.layers ≤ 8 &&
    ((List.range 9).all fun l => if l ≤ r.layers then 8 ≤ r.wd l && r.wd l ≤ 64 && r.wd l % 8 == 0 else r.wd l == 0) &&
    ((List.range r.layers).all fun l => r.acts / 16 ^ l % 16 < 7) && r.weights % 64 == 0 && r.bias % 4 == 0 &&
    r.rest.all (· == 0)

/-- The weight blocks of the layers: address and bytes (R481). -/
def NetRec.blocks (r : NetRec) (F : Fmt) : List (Nat × Nat) :=
  ((List.range r.layers).foldl (fun (x : List (Nat × Nat) × Nat) l =>
    let n := r.wd (l + 1) * r.wd l * F.storeBits / 8
    (x.1 ++ [(x.2, n)], x.2 + cdiv n 64 * 64)) ([], r.weights)).1

/-- Bias words of the layers before layer `l`, and of all. -/
def NetRec.biasBefore (r : NetRec) (l : Nat) : Nat := ((List.range l).map fun k => r.wd (k + 1)).foldl (· + ·) 0

/-- The ranges that a network reads in memory. -/
def NetRec.ranges (r : NetRec) (F : Fmt) : List (Nat × Nat) :=
  r.blocks F ++ (if r.bias == 0 then [] else [(r.bias, 4 * r.biasBefore r.layers)])

/-- Element values cut into halves of 32, padded with zeros (R482). -/
def halvesOf (F : Fmt) (np : Nat) (l : List XV) : List Half :=
  (List.range (cdiv l.length 32)).map fun h =>
    let part := (l.drop (32 * h)).take 32
    halfOfVals F np (part ++ List.replicate (32 - part.length) (.num false 0 1))

/-- A weight as the array reads it: i8 code 0x80 stands for -127 with FST.SAT (R239). -/
def weightOf (F : Fmt) (bs : Array Byte) (i : Nat) : XV × Nat :=
  let code := match F.storeBits with
    | 32 => leVal ((List.range 4).map fun k => bs.getD (4 * i + k) 0)
    | 16 => (bs.getD (2 * i) 0).toNat + 256 * (bs.getD (2 * i + 1) 0).toNat
    | 4 => (bs.getD (i / 2) 0).toNat / 16 ^ (i % 2) % 16
    | _ => (bs.getD i 0).toNat
  if F.kind == .int && F.width == 8 && code == 0x80 then (xInt (-127), fstSat) else F.decode code

/-- One layer: from the halves of the input rows to the outputs of each row, with FST bits. -/
def netLayer (slA slB : Slot) (pa pb : Nat) (r : NetRec) (l : Nat) (w bias : Array Byte) (rows : List (List Half)) :
    List (List Nat) × Nat :=
  let wi := r.wd l
  let ts (sl : Slot) : Option Nat := if sl.smode == 3 then some sl.tscale else none
  let weights := (List.range (r.wd (l + 1))).map fun n => (List.range wi).map fun k => weightOf slB.F w (n * wi + k)
  let wst := (weights.flatMap fun x => x.map (·.2)).foldl (· ||| ·) 0
  let wh := weights.map fun x => halvesOf slB.F pb (x.map (·.1))
  let out := rows.map fun row => wh.zipIdx.map fun x =>
    let y := dotBlocks pa pb (ts slA) (ts slB) (0, 0) row x.1
    let z := if r.bias == 0 then y
      else y.add (fv (leVal ((List.range 4).map fun i => bias.getD (4 * (r.biasBefore l + x.2) + i) 0)))
    activate (r.acts / 16 ^ l % 16) z
  (out.map fun row => row.map (·.1), (out.flatMap fun row => row.map (·.2)).foldl (· ||| ·) wst)

/-- The layers from layer `l` on: outputs of the last one and the FST bits. The first number counts the layers left. -/
def netLayers (slA slB : Slot) (pa pb : Nat) (r : NetRec) (ws : List (Array Byte)) (bias : Array Byte) :
    Nat → Nat → List (List Half) → Nat → List (List Nat) × Nat
  | 0, _, _, st => ([], st)
  | k + 1, l, rows, st =>
    let y := netLayer slA slB pa pb r l (ws.getD l #[]) bias rows
    if k == 0 then (y.1, st ||| y.2)
    else
      let conv := y.1.map fun row => row.map fun c => encodeElem slA 0 0 0 (f32 c)
      let cst := (conv.flatMap fun row => row.map (·.2)).foldl (· ||| ·) 0
      let next := conv.map fun row => halvesOf slA.F pa (row.map fun c => (slA.F.decode c.1).1)
      netLayers slA slB pa pb r ws bias k (l + 1) next (st ||| y.2 ||| cst)

/-- The bytes of several ranges, in order, or the cause within the engine and the address. -/
def readRanges (e : Eng) : List (Nat × Nat) → Except (Nat × Nat) (List (Array Byte))
  | [] => .ok []
  | x :: rest =>
    match Eng.readAll x.2 e (.glob x.1) x.2 with
    | .error c => .error c
    | .ok bs =>
      match readRanges e rest with
      | .error c => .error c
      | .ok l => .ok (bs.toArray :: l)

/-- The words of a job after the format X fields: SA's value, the address of the record, its 64 bytes as one number,
and for NETR the input codes of the 32 rows and their FST bits. -/
def netRows (s : State) (gid : Nat) (j : Job) (r : NetRec) (slA : Slot) (pa : Nat) : List (List Half) :=
  if j.op == 0xD9 then
    (List.range 32).map fun v => halvesOf slA.F pa ((List.range (r.wd 0)).map fun k =>
      (slA.F.decode (j.x (3 + v * r.wd 0 + k))).1)
  else
    let p := tileArr (bcOn s gid (s.g gid).core) (j.x 0) (512 * slA.panelRows)
    (List.range 64).map fun v => (List.range (cdiv (r.wd 0) 32)).map fun h =>
      let x := halfAtArr p pa v h
      (x.1, x.2.zipIdx.map fun e =>
        if 32 * h + e.2 < r.wd 0 then e.1 else { x := false, z := true, sg := false, mag := 0 })

/-- NET and NETR at work. -/
def runNet (s : State) (gid : Nat) (j : Job) : Ran :=
  let slA := slotAt s gid (j.w 1)
  let slB := slotAt s gid (j.w 2)
  let r := netRec (leBytes 64 (j.x 2))
  let e : Eng := { st := s, gid := gid, cls := 2, user := j.user }
  match readRanges e (r.ranges slB.F) with
  | .error (c, va) => (e.stop c va).ran
  | .ok l =>
    let pa := planesOf slA (j.w 3)
    let pb := planesOf slB (j.w 4)
    let out := netLayers slA slB pa pb r (l.take r.layers) (l.getD r.layers #[]) r.layers 0 (netRows s gid j r slA pa) 0
    let rows := (out.1.map List.toArray).toArray
    let core := (s.g gid).core
    let first := if j.op == 0xD9 then 32 * b2n (tb j.fn 8) else 0
    let m := mapAcc s core j.acc fun i k x =>
      if first ≤ i && i < first + rows.size then fv ((rows.getD (i - first) #[]).getD k 0) else fv x
    let c := m.1.core core
    { st := if j.op == 0xD8 && !c.accEcc.isEmpty then m.1.setCore core (c.freshAcc j.acc) else m.1, fst := out.2 ||| (if j.op == 0xD9 then j.x (3 + 32 * r.wd 0) else 0) }

/-- The tile ranges that an operation of row 0xD reads: core, offset and bytes. -/
def tileReads (s : State) (gid : Nat) (j : Job) : List (Nat × Nat × Nat) :=
  let core := (s.g gid).core
  let slA := slotAt s gid (j.w 1)
  let slB := slotAt s gid (j.w 2)
  let words (k : Nat) : Nat × Nat × Nat := (core, j.x k, 256)
  let kc := bits (j.x 2) 6 0
  let rows (c : Nat) : List (Nat × Nat × Nat) :=
    (c, j.x 0, kc * 512 * slA.panelRows) :: (if slA.smode == 2 then [(c, j.x 3, 256)] else [])
  let product := rows core ++ (core, j.x 1, kc * 512 * slB.panelRows) :: (if slB.smode == 2 then [words 4] else [])
  match j.op with
  | 0xD0 => product
  | 0xD1 => product ++ rows (core + 1)
  | 0xD2 => product
  | 0xD3 => product ++ rows (core + 1)
  | 0xD5 => (List.range 64).map fun i => (core, j.x 0 + i * bits (j.x 1) 16 0, 256)
  | 0xD6 => if slA.smode == 2 then [words 2] else []
  | 0xD8 => [(core, j.x 0, 512 * slA.panelRows)]
  | 0xDA => [(core, j.w 0, 16384 * j.w 2)]
  | 0xDC => (if tb j.fn 0 then [words 0] else []) ++ if tb j.fn 1 then [words 1] else []
  | 0xDF => if tb j.fn 3 then [words 0] else []
  | _ => []

/-- A range of tile memory holds a line with an uncorrectable error (R312). -/
def badTile (s : State) (gid : Nat) (x : Nat × Nat × Nat) : Bool :=
  (bcOn s gid x.1).bad.any fun l => decide (x.2.1 / 128 ≤ l && l ≤ (x.2.1 + x.2.2 - 1) / 128 && x.2.2 != 0)

/-- An operation of row 0xD at work: poisoned data in tile memory ends it before it performs anything (R312, R469). -/
def runMatrix (s : State) (gid : Nat) (o : AsyncOp) : Ran :=
  let j := o.job
  if (tileReads s gid j).any (badTile s gid) then { st := s, flt := some { cause := engCause 2 7 } }
  else match j.op with
  | 0xD0 => runMma s gid j
  | 0xD1 => runMmap s gid j
  | 0xD2 => runMma s gid j
  | 0xD3 => runMmap s gid j
  | 0xD4 => runAcz s gid j
  | 0xD5 => runAcld s gid j
  | 0xD6 => runAcst s gid j
  | 0xD8 => runNet s gid j
  | 0xD9 => runNet s gid j
  | 0xDA => runPlcv s gid j
  | 0xDC => runMscl s gid j
  | 0xDD => runMsoft s gid j
  | _ => runMepi s gid j

/-! ### Array moves (R477, R484) -/

/-- The cells and values of a window of v registers in some lanes: register k of lane L holds `f L k`. -/
def windowWrites (vf n : Nat) (lanes : List Nat) (f : Nat → Nat → Nat) : List (Cell × Word96) :=
  lanes.flatMap fun k => (List.range n).map fun i => (Cell.v (vf + i) k, BitVec.ofNat 96 (f k i % 2 ^ 32))

/-- The rows of an accumulator that ACMV.put writes; the values stand after the format X fields, lane after lane. -/
def putRows (s : State) (core : Nat) (j : Job) : State :=
  let half := b2n (tb j.fn 9)
  let c0 := bits j.fn 15 10
  let n := 2 ^ bits j.fn 18 16
  let old := (s.core core).accArr j.acc
  let new := j.lanes.zipIdx.foldl (fun (m : Array Nat) p => (List.range n).foldl (fun m k =>
    m.setIfInBounds (64 * (32 * half + p.1.2) + c0 + k) (j.x (p.2 * n + k))) m) old
  s.setCore core ((s.core core).setAcc j.acc new)

/-- What an array move does when the array reaches it: the state, and the values that land in the group's registers. -/
def runMove (s : State) (gid : Nat) (j : Job) : State × List (Cell × Word96) :=
  let core := (s.g gid).core
  let lanes := j.lanes.map (·.2)
  if j.op == 0xD7 then
    if tb j.fn 8 then (putRows s core j, [])
    else
      let acc := (s.core core).accArr j.acc
      let half := b2n (tb j.fn 9)
      (s, windowWrites (bits j.fn 7 0) (2 ^ bits j.fn 18 16) lanes fun k i =>
        acc.getD (64 * (32 * half + k) + bits j.fn 15 10 + i) 0)
  else
    let p := tileArr (bcOn s gid core) (j.x 0) 2048
    let half := b2n (tb j.fn 8)
    (s, windowWrites (bits j.fn 7 0) 7 lanes fun k i =>
      let v := 32 * half + k
      if i == 0 then arrE p v 0 + 65536 * arrE p v 1
      else leVal ((List.range 4).map fun b => p.getD (512 * (1 + (i - 1) / 2) + 8 * v + 4 * ((i - 1) % 2) + b) 0))

end Sys2Proof.Machine
end

