-- ==== Sys2Proof/Machine/Matrix.lean ====
section
/-!
DEFINITION. Row 0xD of the opcode map: the issue of matrix and network instructions (R469 to R484).
-/

namespace Sys2Proof.Machine

/-! ### Fields and checks (R355, R471, R472) -/

/-- The fields of format X that an opcode uses: slots, plane counts, TRI and MASK, bases, and the words of SHAPE. -/
structure XUse where
  sla : Bool := false
  slb : Bool := false
  planes : Bool := false
  tri : Bool := false
  a : Bool := false
  b : Bool := false
  sh : Nat := 0
deriving DecidableEq, Repr

/-- The rule of a base or shape field. -/
def baseX (used : Bool) (x : Src) : Option Nat :=
  if used then srcChk 21 { s := true } false x else unusedSrc 21 x

/-- The shape of a format X instruction with the fields it uses and its FN rule (R355, R472). The three shape words of MMA and
its forms are read under the blocking policy, whatever EP of the field says (R473). -/
def shapeMX (f : FmtX) (x : XUse) (fnOk : Bool) : Shape :=
  { roles := [.matrix]
    enc := [need 21 (x.sla || f.sla == 0), need 21 (x.slb || f.slb == 0),
      need 21 (f.pa.toNat ≤ (if x.planes then 12 else 0)), need 21 (f.pb.toNat ≤ (if x.planes then 12 else 0)),
      baseX x.a f.abase, baseX x.b f.bbase, baseX (x.sh != 0) f.shape,
      need 21 (x.tri || f.tri == 0), need 21 (f.mask.toNat ≤ (if x.tri then 4 else 0)), need 8 fnOk]
    srcs := (if x.a then [useOf f.abase 1] else []) ++ (if x.b then [useOf f.bbase 1] else []) ++
      (if x.sh == 0 then [] else [{ o := f.shape.reg, n := x.sh, align := false, ep := x.sh != 3 && f.shape.ep }])
    once := true }

/-- The first cause of a list, or the rest of the issue. -/
def checked (l : List (Option Nat)) (k : Res) : Res :=
  match firstSome l with
  | some c => trapOf c
  | none => k

/-- A class-7 cause (R471). -/
def c7 (k : Nat) : Nat := 7 * 32 + k

/-- A value of a scalar source. -/
def uniX (s : State) (u : Ux) (x : Src) (k : Nat) : Nat := (rdU s u (regPlus x.reg k)).toNat

/-- `n` panels at a tile offset lie each wholly in a plane region of slot `k`, from a panel boundary on. -/
def panelsOk (l : Launch) (k off n : Nat) (sl : Slot) : Bool :=
  let h := 512 * sl.panelRows
  (List.range n).all fun p =>
    let o := off + p * h
    l.regs.any fun r => r.kind == 2 && r.slot == k && 512 * r.base ≤ o && (o - 512 * r.base) % h == 0 &&
      o + h ≤ 512 * (r.base + r.rows)

/-- An element operand meets a plane region: 7.7. -/
def elemClear (l : Launch) (x : List (Nat × Nat)) : Option Nat := need (c7 7) (x.all fun r => !l.meetsPlane r.1 r.2)

/-- An element operand beyond the allocation: 7.8. -/
def elemInside (l : Launch) (x : List (Nat × Nat)) : Option Nat := need (c7 8) (x.all fun r => decide (r.1 + r.2 ≤ l.tileb))

/-- A tile range of an array operation meets a mapped stash range on a block core: 6.21 (R265). -/
def stashClear (s : State) (bid bcore : Nat) (x : List (Nat × Nat)) : Option Nat :=
  need (engCause 2 5) (x.all fun r => !rangeStashed s (.tile bid bcore (r.1 : Int), r.2))

/-- An operation takes its place in the order of the arrays of some cores (R469). -/
def reachArrays (s : State) (gid n : Nat) (cores : List Nat) : State :=
  cores.foldl (fun st c => st.setCore c { st.core c with array := (st.core c).array ++ [(gid, n)] }) s

/-- The budget of an operation with a charge, which R313 puts before the register checks, the format slots and every cause of R471; none
where the slots, the shape or the record give no charge, and their own cause stands (R108, R313; DEDUCED, log 147). -/
def budgeted (s : State) (bid : Nat) (charge : Option Nat) (k : Res) : Res :=
  match charge with
  | none => k
  | some n => if overBudget s bid n then trapOf (9 * 32 + 1) else k

/-- The start of an array operation: the counter, then the operation, after every older access of the unit (R294, R297, R469). -/
def startX (u : Ux) (s : State) (job : Job) (cores : List Nat) (charge : Nat) (bar evq : Option Nat) : Res :=
  let g := s.g u.gid
  if 63 ≤ g.counter 2 then .error (.wait (.opRoom u.gid 2))
  else ordered s u fun s1 => .ok { st := reachArrays (addOp s1 u 2 charge job bar evq none) u.gid g.seq cores }

/-- The job of a format X instruction. -/
def jobX (s : State) (u : Ux) (op : Nat) (f : FmtX) (words : List Nat) : Job :=
  { op := op, user := !(s.g u.gid).sys, fn := f.fn.toNat, imm := 0, args := xArgs f ++ words
    lanes := u.active.map fun p => (p.gid, p.lane) }

/-- An array operation that reaches no memory, on the group's own core: the budget, where the bytes are known, and the checks `k` on what
is left. Each byte that it moves between tile memory and the array counts 1 (R109, R313, log 33). -/
def localX (s : State) (u : Ux) (op : Nat) (f : FmtX) (words : List Nat) (known : Bool) (bytes : Nat) (k : Res → Res) : Res :=
  budgeted s (s.g u.gid).bid (if known then some bytes else none) <|
    k (startX u s (jobX s u op f words) [(s.g u.gid).core] bytes none none)

/-- An uncorrectable error stands in an accumulator of a core, and no operation that reached the array before writes all of
it (R312, R319). -/
def accBad (s : State) (acc core : Nat) : Bool :=
  NSet.has (s.core core).accEcc acc &&
    !((s.core core).array.any fun x => (s.g x.1).ops.any fun o =>
      o.n == x.2 && !o.complete && (o.job.op == 0xD4 || o.job.op == 0xD5 || o.job.op == 0xD8) && o.job.acc == acc)

/-- The rest of the issue of an instruction that reads its accumulator on some cores, or 1.15 for an uncorrectable error in
it; no rule gives an accumulator a register code, so INFO names a free one (R312, R314, R319, log 124). -/
def readsAcc (s : State) (f : FmtX) (cores : List Nat) (k : Res) : Res :=
  if cores.any (accBad s f.acc.toNat) then
    .error (.partly { cause := 32 + 15, info := (Config.freeWord s.free).toNat % 1024 } { s with free := s.free + 1 })
  else k

/-- ACC 4 to 7: 7.9. -/
def accChk (f : FmtX) : Option Nat := need (c7 9) (f.acc.toNat < 4)

/-! ### MMA and its forms (R473 to R475) -/

/-- MMA, MMAP, MMAT and MMAPT use both slots, planes, both bases and three words of SHAPE. -/
def mmaUse (tri : Bool) : XUse := { sla := true, slb := true, planes := true, tri := tri, a := true, b := true, sh := 3 }

/-- The five words of MMA and its forms: both bases, and the three words of SHAPE (R473). -/
def mmaWords (f : FmtX) (u : Ux) (s : State) : List Nat :=
  [uniX s u f.abase 0, uniX s u f.bbase 0, uniX s u f.shape 0, uniX s u f.shape 1, uniX s u f.shape 2]

/-- The checks of MMA and its forms, in order: the format slots, as R313 has them, then the causes of R471 with 7.2 and 7.1 before them
(R313, R471, R473 to R475; DEDUCED, log 34). -/
def mmaChecks (f : FmtX) (tri pair : Bool) (u : Ux) (s : State) : List (Option Nat) :=
  let g := s.g u.gid
  let l := s.launchOf g.bid
  let slA := slotAt s u.gid f.sla.toNat
  let slB := slotAt s u.gid f.slb.toNat
  let a := uniX s u f.abase 0
  let b := uniX s u f.bbase 0
  let w := uniX s u f.shape 0
  let ra := uniX s u f.shape 1
  let rb := uniX s u f.shape 2
  let kc := bits w 6 0
  let kcOk := 1 ≤ kc && kc ≤ 64
  let n := if kcOk then kc else 1
  let scA := if slA.smode == 2 then [(ra, 256)] else []
  let scB := if slB.smode == 2 then [(rb, 256)] else []
  let rowsA := (a, n * 512 * slA.panelRows) :: scA
  let colsB := (b, n * 512 * slB.panelRows) :: scB
  let far := (s.b g.bid).cores.findIdx? fun k => k.core == g.core + 1
  [slotFault slA slA.elem, slotFault slB slB.elem,
    need (c7 2) (!pair || g.core % 2 == 0), need (c7 1) (!pair || (s.core (g.core + 1)).bound == some g.bid), accChk f,
    need (c7 0) (planesOf slA f.pa.toNat ≤ slA.F.full && planesOf slB f.pb.toNat ≤ slB.F.full),
    need (c7 6) (panelsOk l f.sla.toNat a n slA && panelsOk l f.slb.toNat b n slB),
    elemClear l (scA ++ scB), elemInside l (scA ++ scB),
    need (engCause 2 6) (kcOk && bits w 31 16 == 0 && (tri || bits w 15 8 == 0)),
    need (c7 10) (!tri || f.tri == 1 || f.tri == 2),
    stashClear s g.bid g.bcore (rowsA ++ colsB),
    if pair then (match far with
      | some k => stashClear s g.bid k rowsA
      | none => none) else none]

/-- The bytes that a product moves from tile memory to an array: the rows of its operand panels that it reads, A's of each
core, and the scales (R109, R258, log 33). -/
def mmaBytes (f : FmtX) (pair : Bool) (u : Ux) (s : State) : Nat :=
  let slA := slotAt s u.gid f.sla.toNat
  let slB := slotAt s u.gid f.slb.toNat
  let kc := bits (uniX s u f.shape 0) 6 0
  let one (sl : Slot) (p : Nat) : Nat := kc * 512 * (4 + planesOf sl p) + if sl.smode == 2 then 256 else 0
  one slA f.pa.toNat * (if pair then 2 else 1) + one slB f.pb.toNat

/-- The charge of a product, where its slots and its shape give one (R109, R471). -/
def mmaCharge (f : FmtX) (pair : Bool) (u : Ux) (s : State) : Option Nat :=
  let slA := slotAt s u.gid f.sla.toNat
  let slB := slotAt s u.gid f.slb.toNat
  if (slotFault slA slA.elem).isNone && (slotFault slB slB.elem).isNone && 1 ≤ bits (uniX s u f.shape 0) 6 0 &&
      bits (uniX s u f.shape 0) 6 0 ≤ 64 then
    some (mmaBytes f pair u s)
  else none

/-- The issue of MMA and its forms. -/
def mmaEff (f : FmtX) (op : Nat) (tri pair : Bool) (u : Ux) (s : State) : Res :=
  if u.active.isEmpty then .ok { st := s }
  else
    let core := (s.g u.gid).core
    budgeted s (s.g u.gid).bid (mmaCharge f pair u s) <| readsAcc s f (if pair then [core, core + 1] else [core]) <| checked (mmaChecks f tri pair u s) <|
      startX u s (jobX s u op f (mmaWords f u s)) (if pair then [core, core + 1] else [core])
        (mmaBytes f pair u s) none none

/-- MMA. -/
def shapeMma (f : FmtX) : Shape := shapeMX f (mmaUse false) (f.fn == 0)

/-- MMA (R473). -/
def execMma (h : Hdr) (f : FmtX) (s : State) : Host.Outcome State Fault Refusal :=
  issue h (shapeMma f) s fun u s => mmaEff f 0xD0 false false u s

/-- MMAP. -/
def shapeMmap (f : FmtX) : Shape := shapeMX f (mmaUse false) (f.fn == 0)

/-- MMAP: over 128 rows, with a bound follower (R474). -/
def execMmap (h : Hdr) (f : FmtX) (s : State) : Host.Outcome State Fault Refusal :=
  issue h (shapeMmap f) s fun u s => mmaEff f 0xD1 false true u s

/-- MMAT. -/
def shapeMmat (f : FmtX) : Shape := shapeMX f (mmaUse true) (f.fn == 0)

/-- MMAT (R475). -/
def execMmat (h : Hdr) (f : FmtX) (s : State) : Host.Outcome State Fault Refusal :=
  issue h (shapeMmat f) s fun u s => mmaEff f 0xD2 true false u s

/-- MMAPT. -/
def shapeMmapt (f : FmtX) : Shape := shapeMX f (mmaUse true) (f.fn == 0)

/-- MMAPT (R474, R475). -/
def execMmapt (h : Hdr) (f : FmtX) (s : State) : Host.Outcome State Fault Refusal :=
  issue h (shapeMmapt f) s fun u s => mmaEff f 0xD3 true true u s

/-! ### Accumulators and tile memory (R476) -/

/-- ACZ. -/
def shapeAcz (f : FmtX) : Shape := shapeMX f {} (f.fn == 0)

/-- ACZ (R476). -/
def execAcz (h : Hdr) (f : FmtX) (s : State) : Host.Outcome State Fault Refusal :=
  issue h (shapeAcz f) s fun u s =>
    if u.active.isEmpty then .ok { st := s } else localX s u 0xD4 f [] true 0 (checked [accChk f])

/-- ACLD. -/
def shapeAcld (f : FmtX) : Shape := shapeMX f { a := true, sh := 1 } (f.fn == 0)

/-- ACLD (R476). -/
def execAcld (h : Hdr) (f : FmtX) (s : State) : Host.Outcome State Fault Refusal :=
  issue h (shapeAcld f) s fun u s =>
    if u.active.isEmpty then .ok { st := s }
    else
      let g := s.g u.gid
      let l := s.launchOf g.bid
      let a := uniX s u f.abase 0
      let w := uniX s u f.shape 0
      let t := bits w 16 0
      let rs := [(a, 63 * t + 256)]
      localX s u 0xD5 f [a, w] true 16384 <| checked [accChk f, elemClear l rs, elemInside l rs,
        need (engCause 2 6) (t % 4 == 0 && 256 ≤ t && t ≤ 65536), stashClear s g.bid g.bcore rs]

/-- ACST in the format of a slot: SMODE 1 and 2 use BBASE. -/
def shapeAcst (f : FmtX) (sl : Slot) : Shape := shapeMX f { sla := true, a := true, b := sl.scUsed, sh := 1 } (f.fn == 0)

/-- The slot SLA of the group that holds the issue slot. -/
def slotX (s : State) (f : FmtX) : Slot := slotAt s ((s.cur.map (·.1)).getD 0) f.sla.toNat

/-- ACST (R476). -/
def execAcst (h : Hdr) (f : FmtX) (s : State) : Host.Outcome State Fault Refusal :=
  issue h (shapeAcst f (slotX s f)) s fun u s =>
    if u.active.isEmpty then .ok { st := s }
    else
      let g := s.g u.gid
      let l := s.launchOf g.bid
      let sl := slotAt s u.gid f.sla.toNat
      let a := uniX s u f.abase 0
      let b := if sl.scUsed then uniX s u f.bbase 0 else 0
      let w := uniX s u f.shape 0
      let t := bits w 16 0
      let row := 8 * sl.F.storeBits
      let rs := (a, 63 * t + row) ::
        (if sl.smode == 1 then [(b, 128)] else if sl.smode == 2 then [(b, 256)] else [])
      localX s u 0xD6 f [a, w, b] (slotFault sl true).isNone
          (64 * row + (if sl.smode == 1 then 128 else if sl.smode == 2 then 256 else 0)) fun r =>
        readsAcc s f [g.core] <| checked [slotFault sl true, accChk f, elemClear l rs, elemInside l rs,
          need (engCause 2 6) (t % 4 == 0 && row ≤ t && t ≤ 65536), stashClear s g.bid g.bcore rs] r

/-! ### Array moves (R477, R484) -/

/-- A long-latency producer of the array: the window goes empty in the active lanes, and the values form when the array
reaches it. -/
def startMove (u : Ux) (s : State) (job : Job) (cells : List Cell) : Res :=
  ordered s u fun s1 =>
    let g := s1.g u.gid
    let n := g.seq
    let s2 := s1.modGroup u.gid fun g =>
      let g1 := cells.foldl (fun g c => g.markEmpty c) g
      { g1 with pend := g1.pend ++ [{ n := n, writes := [], job := some job }], seq := n + 1 }
    .ok { st := reachArrays s2 u.gid n [g.core] }

/-- The cells of a window of v registers in the active lanes. -/
def windowCells (u : Ux) (vf n : Nat) : List Cell :=
  u.active.flatMap fun p => (List.range n).map fun k => Cell.v (vf + k) p.lane

/-- ACMV: the window is a destination under DIR 0 and a source under DIR 1. -/
def shapeAcmv (f : FmtX) : Shape :=
  let fn := f.fn.toNat
  let n := 2 ^ bits fn 18 16
  let sh := shapeMX f {} (fn < 2 ^ 19 && bits fn 18 16 != 7 && bits fn 15 10 + n ≤ 64)
  let win : RegUse := { o := .v (bits fn 7 0), n := n, align := false }
  if tb fn 8 then { sh with srcs := [win] } else { sh with dsts := [win] }

/-- ACMV (R477). -/
def execAcmv (h : Hdr) (f : FmtX) (s : State) : Host.Outcome State Fault Refusal :=
  issue h (shapeAcmv f) s fun u s =>
    if u.active.isEmpty then .ok { st := s }
    else
      let fn := f.fn.toNat
      let n := 2 ^ bits fn 18 16
      let vf := bits fn 7 0
      let vals := u.active.flatMap fun p => (List.range n).map fun k => (rd s u (.v (vf + k)) p).toNat
      (if tb fn 8 then id else readsAcc s f [(s.g u.gid).core]) <| checked [accChk f] <|
        if tb fn 8 then startMove u s (jobX s u 0xD7 f vals) []
        else startMove u s (jobX s u 0xD7 f []) (windowCells u vf n)

/-- PLQ: seven v registers. -/
def shapePlq (f : FmtX) : Shape :=
  { shapeMX f { a := true } (f.fn.toNat < 512) with dsts := [{ o := .v (bits f.fn.toNat 7 0), n := 7, align := false }] }

/-- PLQ (R484). -/
def execPlq (h : Hdr) (f : FmtX) (s : State) : Host.Outcome State Fault Refusal :=
  issue h (shapePlq f) s fun u s =>
    if u.active.isEmpty then .ok { st := s }
    else
      let l := s.launchOf (s.g u.gid).bid
      let a := uniX s u f.abase 0
      checked [accChk f, need (c7 6) (l.regs.any fun r => r.kind == 2 && panelsOk l r.slot a 1 (slotAt s u.gid r.slot))] <|
        startMove u s (jobX s u 0xDB f [a]) (windowCells u (bits f.fn.toNat 7 0) 7)

/-! ### Scaling, epilogues and softmax (R478 to R480) -/

/-- MSCL: the bases that the mode uses. -/
def msclUse (mode : Nat) : XUse :=
  { a := mode == 1 || mode == 3, b := mode == 2 || mode == 3, sh := if mode == 0 then 1 else 0 }

/-- MSCL. -/
def shapeMscl (f : FmtX) : Shape := shapeMX f (msclUse (f.fn.toNat % 4)) (f.fn.toNat < 4)

/-- MSCL (R478). -/
def execMscl (h : Hdr) (f : FmtX) (s : State) : Host.Outcome State Fault Refusal :=
  issue h (shapeMscl f) s fun u s =>
    if u.active.isEmpty then .ok { st := s }
    else
      let g := s.g u.gid
      let l := s.launchOf g.bid
      let x := msclUse (f.fn.toNat % 4)
      let a := if x.a then uniX s u f.abase 0 else 0
      let b := if x.b then uniX s u f.bbase 0 else 0
      let w := if x.sh == 0 then 0 else uniX s u f.shape 0
      let rs := (if x.a then [(a, 256)] else []) ++ (if x.b then [(b, 256)] else [])
      localX s u 0xDC f [a, b, w] true (256 * rs.length) fun r =>
        readsAcc s f [g.core] <| checked [accChk f, elemClear l rs, elemInside l rs, stashClear s g.bid g.bcore rs] r

/-- MSOFT: NCOL of 1 to 64. -/
def shapeMsoft (f : FmtX) : Shape := shapeMX f {} (1 ≤ f.fn.toNat && f.fn.toNat ≤ 64)

/-- MSOFT (R480). -/
def execMsoft (h : Hdr) (f : FmtX) (s : State) : Host.Outcome State Fault Refusal :=
  issue h (shapeMsoft f) s fun u s =>
    if u.active.isEmpty then .ok { st := s }
    else localX s u 0xDD f [] true 0 fun r => readsAcc s f [(s.g u.gid).core] <| checked [accChk f] r

/-- MEPI: ACT of 0 to 6, BIAS. -/
def shapeMepi (f : FmtX) : Shape := shapeMX f { b := tb f.fn.toNat 3 } (f.fn.toNat < 16 && f.fn.toNat % 8 != 7)

/-- MEPI (R478, R479). -/
def execMepi (h : Hdr) (f : FmtX) (s : State) : Host.Outcome State Fault Refusal :=
  issue h (shapeMepi f) s fun u s =>
    if u.active.isEmpty then .ok { st := s }
    else
      let g := s.g u.gid
      let l := s.launchOf g.bid
      let bias := tb f.fn.toNat 3
      let b := if bias then uniX s u f.bbase 0 else 0
      let rs := if bias then [(b, 256)] else []
      localX s u 0xDF f [b] true (256 * rs.length) fun r =>
        readsAcc s f [g.core] <| checked [accChk f, elemClear l rs, elemInside l rs, stashClear s g.bid g.bcore rs] r

/-! ### Networks (R481, R482) -/

/-- The shape record at an address: its bytes, or the trap of reading it (R481). -/
def readNetRec (s : State) (u : Ux) (ea : Nat) : Except Trap (List Byte) :=
  let p := u.active.headD ⟨0, u.gid, 0⟩
  match access s u.gid p.lane 1 ea 64 .load with
  | .error (c, fa) => .error (siteTrap c fa p)
  | .ok x =>
    if brkHit (s.g u.gid) .load x 64 then .error { cause := 0x142, faddr := ea }
    else if sitePoisoned s x then .error { cause := poisonCause s x, faddr := ea }
    else .ok (loadBytes s u.gid x.loc 64)

/-- A slot holds the line of a shape record (R54). -/
def netHeld (s : State) (u : Ux) (ea : Nat) : Bool :=
  memHeld s && match access s u.gid ((u.active.headD ⟨0, u.gid, 0⟩).lane) 1 ea 64 .load with
    | .error _ => false
    | .ok x => siteFar s u.gid false x

/-- The charge of the weight and bias bytes (R109, R482). -/
def netCharge (s : State) (bid : Nat) (r : NetRec) (F : Fmt) : Nat :=
  ((r.ranges F).map fun x => chargeOf s (s.launchOf bid).ctx (some (.glob x.1), none, x.2)).foldl (· + ·) 0

/-- The checks of NET and NETR on slots, accumulator and planes (R313, R471). -/
def netSlots (f : FmtX) (slA slB : Slot) : List (Option Nat) :=
  [slotFault slA slA.elem, slotFault slB slB.elem, accChk f,
   need (c7 0) (planesOf slA f.pa.toNat ≤ slA.F.full && planesOf slB f.pb.toNat ≤ slB.F.full)]

/-- A record as a network takes it: the table of R481 and the scale modes. -/
def netBad (r : NetRec) (slA slB : Slot) : Option Nat := need (c7 4) (r.ok && !slA.scUsed && !slB.scUsed)

/-- The shape record at an address, where it can be read now and meets the table of R481. -/
def netRead (s : State) (u : Ux) (ea : Nat) : Option NetRec :=
  if netHeld s u ea then none
  else match readNetRec s u ea with
  | .error _ => none
  | .ok bs => if (netRec bs).ok then some (netRec bs) else none

/-- The same, where the slots give a charge with it (R109, R482). -/
def netKnown (s : State) (u : Ux) (ea : Nat) (slA slB : Slot) : Option NetRec :=
  if (slotFault slA slA.elem).isSome || (slotFault slB slB.elem).isSome || slA.scUsed || slB.scUsed then none else netRead s u ea

/-- The input registers of NETR: as many as its network is wide, from one on (R482). -/
def netrWin (vf : Nat) (r : NetRec) : RegUse := { o := .v vf, n := r.wd 0, align := false }

/-- NET. -/
def shapeNet (f : FmtX) : Shape := shapeMX f { sla := true, slb := true, planes := true, a := true, sh := 2 } (f.fn == 0)

/-- NET (R482). -/
def execNet (h : Hdr) (f : FmtX) (s : State) : Host.Outcome State Fault Refusal :=
  issue h (shapeNet f) s fun u s =>
    if u.active.isEmpty then .ok { st := s }
    else
      let g := s.g u.gid
      let l := s.launchOf g.bid
      let slA := slotAt s u.gid f.sla.toNat
      let slB := slotAt s u.gid f.slb.toNat
      let a := uniX s u f.abase 0
      let panel := 512 * slA.panelRows
      let ea := uniX s u f.shape 0 + 2 ^ 32 * uniX s u f.shape 1
      budgeted s g.bid ((netKnown s u ea slA slB).map fun r => netCharge s g.bid r slB.F + panel) <|
        checked (netSlots f slA slB ++ [need (c7 5) (a + panel ≤ l.tileb), need (c7 6) (panelsOk l f.sla.toNat a 1 slA)]) <|
        if netHeld s u ea then .error (.wait .slot)
        else match readNetRec s u ea with
        | .error t => .error (.trap t)
        | .ok bs =>
          let r := netRec bs
          checked [netBad r slA slB, stashClear s g.bid g.bcore [(a, panel)]] <|
            startX u s (jobX s u 0xD8 f [a, ea, leVal bs]) [g.core] (netCharge s g.bid r slB.F + panel) none none

/-- NETR. -/
def shapeNetr (f : FmtX) : Shape := shapeMX f { sla := true, slb := true, planes := true, sh := 2 } (f.fn.toNat < 512)

/-- The input codes of the 32 rows of NETR with their FST bits; rows of lanes that are not active are zero (R482). -/
def netrInputs (s : State) (u : Ux) (sl : Slot) (vf w : Nat) : List Nat :=
  let one (p : Pos) (k : Nat) : Nat × Nat := encodeElem sl 0 0 0 (f32 (rd s u (.v (vf + k)) p).toNat)
  let rows := (List.range 32).map fun lane =>
    match u.active.find? fun p => p.lane == lane with
    | some p => (List.range w).map (one p)
    | none => (List.range w).map fun _ => (0, 0)
  rows.flatMap (fun r => r.map (·.1)) ++ [(rows.flatMap fun r => r.map (·.2)).foldl (· ||| ·) 0]

/-- The charge of NETR: the weights and biases, and the input registers of its lanes (R109, R482). -/
def netrCharge (s : State) (u : Ux) (r : NetRec) (F : Fmt) : Nat :=
  netCharge s (s.g u.gid).bid r F + 4 * r.wd 0 * u.active.length

/-- NETR: the budget, the window of its inputs, the slots, then the rest (R313, R482). -/
def execNetr (h : Hdr) (f : FmtX) (s : State) : Host.Outcome State Fault Refusal :=
  issue h (shapeNetr f) s fun u s =>
    if u.active.isEmpty then .ok { st := s }
    else
      let g := s.g u.gid
      let l := s.launchOf g.bid
      let slA := slotAt s u.gid f.sla.toNat
      let slB := slotAt s u.gid f.slb.toNat
      let vf := bits f.fn.toNat 7 0
      let ea := uniX s u f.shape 0 + 2 ^ 32 * uniX s u f.shape 1
      budgeted s g.bid ((netKnown s u ea slA slB).map fun r => netrCharge s u r slB.F) <|
        match (netRead s u ea).bind fun r => useFault l (netrWin vf r) with
        | some (c, o) => .error (.trap { cause := c, info := regInfo o (u.active.headD ⟨0, u.gid, 0⟩) })
        | none => checked (netSlots f slA slB) <|
          if netHeld s u ea then .error (.wait .slot)
          else match readNetRec s u ea with
          | .error t => .error (.trap t)
          | .ok bs =>
            let r := netRec bs
            checked [netBad r slA slB] <|
              match needCells s [(netrWin vf r, u.active)] with
              | some e => .error e
              | none =>
                startX u s (jobX s u 0xD9 f ([0, ea, leVal bs] ++ netrInputs s u slA vf (r.wd 0))) [g.core]
                  (netrCharge s u r slB.F) none none

/-! ### Plane conversion (R483) -/

/-- PLCV: a descriptor of three words, IMM[18:16] the slot. -/
def shapePlcv (f : FmtE) : Shape := shapeEng f [.matrix] true 7 (f.fn == 0) false 3

/-- PLCV (R483). -/
def execPlcv (h : Hdr) (f : FmtE) (s : State) : Host.Outcome State Fault Refusal :=
  issue h (shapePlcv f) s fun u s =>
    if u.active.isEmpty then .ok { st := s }
    else
      let g := s.g u.gid
      let l := s.launchOf g.bid
      let j := jobOf s u 0xDA 3 f
      let k := j.imm % 8
      let sl := slotAt s u.gid k
      let panel := 512 * sl.panelRows
      let rest := match l.regs.find? fun r => r.kind == 2 && 512 * r.base ≤ j.w 1 && j.w 1 < 512 * (r.base + r.rows) with
        | some r => (512 * (r.base + r.rows) - j.w 1) / panel
        | none => 0
      let cntOk := 1 ≤ j.w 2 && j.w 2 ≤ rest
      let n := if cntOk then j.w 2 else 1
      let rs := [(j.w 0, 16384 * n)]
      budgeted s g.bid (if cntOk && (slotFault sl sl.elem).isNone then some (16384 * n) else none) <|
        checked [slotFault sl sl.elem, need (c7 6) (panelsOk l k (j.w 1) n sl), elemClear l rs, elemInside l rs,
        need (engCause 2 6) (cntOk && sl.smode != 2), stashClear s g.bid g.bcore ((j.w 1, n * panel) :: rs)] <|
        startX u s j [g.core] (16384 * n) (if f.ben then some f.bar.toNat else none)
          (if f.evq then some (bits f.imm.toNat 15 0) else none)

/-! ### Core pairs (R474) -/

/-- MPAIR: IMM[0] alone. -/
def shapeMpair (f : FmtI) : Shape :=
  { roles := [.matrix]
    enc := [unusedReg 9 f.dst, cwChk false f.cw, unusedSrc 10 f.sa, need 13 (f.imm.toNat < 2), need 8 (f.fn == 0)]
    once := true }

/-- MPAIR.bind: the partner core follows the issuing block (R474). -/
def execMpairBind (h : Hdr) (f : FmtI) (s : State) : Host.Outcome State Fault Refusal :=
  issue h (shapeMpair f) s fun u s =>
    if u.active.isEmpty then .ok { st := s }
    else
      let g := s.g u.gid
      let k := s.core (g.core + 1)
      let held := (s.b g.bid).cores.any fun c => c.core == g.core + 1
      checked [need (c7 2) (g.core % 2 == 0), need (c7 3) (held && (k.bound == none || k.bound == some g.bid))] <|
        .ok { st := s.setCore (g.core + 1) { k with bound := some g.bid } }

/-- A block has an MMAP or MMAPT that is not complete. -/
def pairBusy (s : State) (bid : Nat) : Bool :=
  (groupsOf s bid).any fun gid => (s.g gid).ops.any fun o => !o.complete && (o.job.op == 0xD1 || o.job.op == 0xD3)

/-- MPAIR.rel: nothing without a bound follower; else it waits for the block's MMAP and MMAPT operations (R474). -/
def execMpairRel (h : Hdr) (f : FmtI) (s : State) : Host.Outcome State Fault Refusal :=
  issue h (shapeMpair f) s fun u s =>
    if u.active.isEmpty then .ok { st := s }
    else
      let g := s.g u.gid
      let k := s.core (g.core + 1)
      checked [need (c7 2) (g.core % 2 == 0)] <|
        if k.bound != some g.bid then .ok { st := s }
        else if pairBusy s g.bid then .error (.wait (.pairOps g.bid))
        else .ok { st := s.setCore (g.core + 1) { k with bound := none } }

end Sys2Proof.Machine
end

