-- ==== Sys2Proof/Machine/Directional.lean ====
section
/-!
DEFINITION. Row 0x8 of the opcode map: directional values (R213 to R215, R235 to R238, R432 to R435).
-/

namespace Sys2Proof.Machine

/-! ### Directional registers (R213, R235) -/

/-- What a directional register holds: the invalid code, the zero-vector code, or a direction and a norm. -/
inductive DVal where
  | invalid
  | zero
  | vec (x y z n : Int)
deriving DecidableEq, Repr

/-- A register read by R213. -/
def dvalOf (w : Word96) : DVal :=
  if dInvalid w then .invalid
  else if w.toNat % 2 ^ 24 == 0x800000 then .zero
  else .vec (sext 24 (w.toNat / 2 ^ 72)) (sext 24 (w.toNat / 2 ^ 48)) (sext 24 (w.toNat / 2 ^ 24)) (sext 24 w.toNat)

/-- The invalid and the zero-vector code. -/
def dBad : Word96 := 0x7FFFFF
def dNull : Word96 := 0x800000

/-- A register of fields (R213). -/
def dWord (x y z n : Int) : Word96 :=
  BitVec.ofNat 96 (wrap 24 x * 2 ^ 72 + wrap 24 y * 2 ^ 48 + wrap 24 z * 2 ^ 24 + wrap 24 n)

/-- A directional result with its FST bits. -/
abbrev DRes := Word96 × Nat

/-! ### Vectors of scaled reals (log 24) -/

/-- Bits after the point of a vector's components. -/
def dirBits : Nat := 1536

/-- A vector scaled by 2^dirBits. -/
structure V3 where
  x : Int
  y : Int
  z : Int
deriving DecidableEq, Repr

/-- A product of scaled reals. -/
def fmul (a b : Int) : Int := a * b / (2 ^ dirBits : Int)

def V3.add (a b : V3) : V3 := ⟨a.x + b.x, a.y + b.y, a.z + b.z⟩
def V3.sub (a b : V3) : V3 := ⟨a.x - b.x, a.y - b.y, a.z - b.z⟩
def V3.mul (k : Int) (a : V3) : V3 := ⟨fmul k a.x, fmul k a.y, fmul k a.z⟩
def V3.dot (a b : V3) : Int := (a.x * b.x + a.y * b.y + a.z * b.z) / (2 ^ dirBits : Int)
def V3.cross (a b : V3) : V3 :=
  ⟨fmul a.y b.z - fmul a.z b.y, fmul a.z b.x - fmul a.x b.z, fmul a.x b.y - fmul a.y b.x⟩

/-- The sum of squares of integer fields. -/
def sq3 (x y z : Int) : Nat := (x * x + y * y + z * z).toNat

/-- The unit vector u/|u| of integer fields (R235). -/
def unitVec (x y z : Int) : V3 :=
  let l : Int := (isqrt (sq3 x y z * 2 ^ (2 * dirBits + 128)) : Nat)
  let f (c : Int) : Int := c * 2 ^ (2 * dirBits + 64) / l
  ⟨f x, f y, f z⟩

/-- 2^(n / 2^15) for an integer n (R235). -/
def lenFix (n : Int) : Int := exp2Fix dirBits (n * 2 ^ (dirBits - 15))

/-- The vector that fields stand for (R235). -/
def fullVec (x y z n : Int) : V3 := V3.mul (lenFix n) (unitVec x y z)

/-- The vector of a value: the zero-vector code is 0. -/
def DVal.full : DVal → V3
  | .vec x y z n => fullVec x y z n
  | _ => ⟨0, 0, 0⟩

/-- rne(c / l x 2^22), for components of one scale. -/
def fieldOf (l c : Int) : Int := rneDiv (snap 300 150 (c * 2 ^ 322 / l)) (2 ^ 150)

/-- The range tests of a norm, and the register they leave (R236, R237). -/
def withNorm (n : Int) (x y z : Int) : DRes :=
  if 8388606 < n then (dBad, fstDinv) else if n < -8388607 then (dNull, fstUnf) else (dWord x y z n, 0)

/-- rne(log2 of a ratio x 2^k), exact at powers of two. -/
def normOf (num den k : Nat) : Int := rneDiv (snap 400 200 (log2Fix 400 num den) * 2 ^ k) (2 ^ 200)

/-- A vector so short that only the rounding of an exact 0 gives it. -/
def V3.isNull (v : V3) : Bool :=
  let small (c : Int) : Bool := decide (c.natAbs < 2 ^ (dirBits - 800))
  small v.x && small v.y && small v.z

/-- The fields of a vector that is not 0, under a norm (R236). -/
def fieldsOf (v : V3) (n : Int) : DRes :=
  let l : Int := (isqrt (sq3 v.x v.y v.z) : Nat)
  withNorm n (fieldOf l v.x) (fieldOf l v.y) (fieldOf l v.z)

/-- Renormalisation of a vector (R236): log2(L) x 2^15 is log2(L^2) x 2^14. -/
def renorm (v : V3) : DRes :=
  if v.isNull then (dNull, 0)
  else fieldsOf v (normOf (sq3 v.x v.y v.z) (2 ^ (2 * dirBits)) 14)

/-! ### Shapes and effects (R432) -/

/-- A directional operand; it is not uniform (R371). -/
def dirAcc (once : Bool) : Acc := { d := !once }

/-- The shape of a directional instruction with a d destination: whether SB is a d register, whether SC is a scalar. -/
def shapeD (f : FmtA) (b c flags : Bool) (mask : Nat) : Shape :=
  { enc := [dstChk { d := true } f.dst, cwChk flags f.cw, srcChk 10 (dirAcc false) false f.sa,
      if b then srcChk 11 (dirAcc false) false f.sb else unusedSrc 11 f.sb,
      if c then srcChk 12 (dataAcc 1 false) false f.sc else unusedSrc 12 f.sc, fnChk f.fn.toNat mask]
    srcs := useOf f.sa 1 :: ((if b then [useOf f.sb 1] else []) ++ (if c then [useOf f.sc 1] else []))
    dsts := [{ o := f.dst }] }

/-- The value of a d operand in a lane. -/
def rdV (s : State) (o : Opnd) (p : Pos) : DVal := dvalOf (rdD s o p)

/-- The effect of direction writes, long latency (R200, R214). -/
def dirWrite (f : FmtA) (u : Ux) (s : State) (g : Pos → DRes) : Eff :=
  { st := s
    long := u.active.flatMap fun p => match cellOf f.dst p.lane with
      | some c => [(p.gid, c, (g p).1)]
      | none => []
    fst := u.active.map fun p => (p.gid, (g p).2) }

/-- A body that completes with direction writes. -/
def dirEff (f : FmtA) (u : Ux) (s : State) (g : Pos → DRes) : Res := .ok (dirWrite f u s g)

/-- A result of one operand: an invalid operand gives the invalid code (R432). -/
def dir1 (f : FmtA) (u : Ux) (s : State) (g : DVal → DRes) : Res :=
  dirEff f u s fun p =>
    match rdV s f.sa.reg p with
    | .invalid => (dBad, 0)
    | a => g a

/-- A result of two operands. -/
def dir2 (f : FmtA) (u : Ux) (s : State) (g : Pos → DVal → DVal → DRes) : Res :=
  dirEff f u s fun p =>
    match rdV s f.sa.reg p, rdV s f.sb.reg p with
    | .invalid, _ => (dBad, 0)
    | _, .invalid => (dBad, 0)
    | a, b => g p a b

/-- DMOV (R433). -/
def shapeDmov (f : FmtA) : Shape := shapeD f false false false 0

/-- DMOV: the register as R213 reads it (R433). -/
def execDmov (h : Hdr) (f : FmtA) (s : State) : Host.Outcome State Fault Refusal :=
  issue h (shapeDmov f) s fun u s => dir1 f u s fun a =>
    match a with
    | .vec x y z n => (dWord x y z n, 0)
    | _ => (dNull, 0)

/-- DFROMV: SA is a v group of three at a multiple of 4 (R432). -/
def shapeDfromv (f : FmtA) : Shape :=
  { enc := [dstChk { d := true } f.dst, cwChk false f.cw, srcChk 10 { v := true } false f.sa, unusedSrc 11 f.sb,
      unusedSrc 12 f.sc, fnChk f.fn.toNat 0]
    srcs := [{ useOf f.sa 3 with grain := 4 }]
    dsts := [{ o := f.dst }] }

/-- DFROMV (R433). -/
def execDfromv (h : Hdr) (f : FmtA) (s : State) : Host.Outcome State Fault Refusal :=
  issue h (shapeDfromv f) s fun u s => dirEff f u s fun p =>
    let c (k : Nat) : XV := xF s u (regPlus f.sa.reg k) p
    let fix (x : XV) : Int := match x with
      | .num sg n d => if sg then -fixOf dirBits n d else fixOf dirBits n d
      | _ => 0
    if [c 0, c 1, c 2].any fun x => x.isNan || x.isInf then (dBad, fstDinv)
    else renorm ⟨fix (c 0), fix (c 1), fix (c 2)⟩

/-- DTOV: DST is a v group of three at a multiple of 4 (R432). -/
def shapeDtov (f : FmtA) : Shape :=
  { enc := [dstChk { v := true } f.dst, cwChk false f.cw, srcChk 10 (dirAcc false) false f.sa, unusedSrc 11 f.sb,
      unusedSrc 12 f.sc, fnChk f.fn.toNat 1]
    srcs := [useOf f.sa 1]
    dsts := [{ o := f.dst, n := 3, grain := 4 }] }

/-- The FP32 components of a value, of the whole vector or of its direction (R433). -/
def toComponents (unit : Bool) (a : DVal) : List (Nat × Nat) :=
  match a with
  | .invalid => List.replicate 3 (fmtF32.nanCode, 0)
  | .zero => List.replicate 3 (0, 0)
  | .vec x y z n =>
    let v := if unit then unitVec x y z else fullVec x y z n
    [v.x, v.y, v.z].map fun c => rne32 (xFix dirBits 1100 c)

/-- DTOV: three FP32 components, long latency (R433). -/
def execDtov (h : Hdr) (f : FmtA) (s : State) : Host.Outcome State Fault Refusal :=
  issue h (shapeDtov f) s fun u s =>
    let r := u.active.map fun p => (p, toComponents (f.fn.getLsbD 0) (rdV s f.sa.reg p))
    .ok { st := s
          long := r.flatMap fun x => x.2.zipIdx.flatMap fun c => longCells (regPlus f.dst c.2) 32 x.1 c.1.1
          fst := r.map fun x => (x.1.gid, x.2.foldl (fun a c => a ||| c.2) 0) }

/-- DDOT: a data destination, two d sources (R433). -/
def shapeDdot (f : FmtA) : Shape :=
  let once := isScalar f.dst
  { enc := [dstChk (dstAcc 1) f.dst, cwChk false f.cw, srcChk 10 (dirAcc once) false f.sa,
      srcChk 11 (dirAcc once) false f.sb, unusedSrc 12 f.sc, fnChk f.fn.toNat 1]
    srcs := [useOf f.sa 1, useOf f.sb 1]
    dsts := [{ o := f.dst }]
    once := once }

/-- DDOT (R238); with LEN the lengths take part (R433). -/
def dDot (len : Bool) (a b : DVal) : Nat × Nat :=
  match a, b with
  | .invalid, _ => (fmtF32.nanCode, 0)
  | _, .invalid => (fmtF32.nanCode, 0)
  | .vec x y z n, .vec x' y' z' n' =>
    let d := x * x' + y * y' + z * z'
    if len then rne32 (xFix dirBits 1100 (d * lenFix (n + n') / (2 ^ 44 : Int)))
    else rne32 (xDyadic (decide (d < 0)) d.natAbs (-44))
  | _, _ => (0, 0)

/-- DDOT, long latency (R433). -/
def execDdot (h : Hdr) (f : FmtA) (s : State) : Host.Outcome State Fault Refusal :=
  issue h (shapeDdot f) s fun u s => floatEff u s f.dst 0 32 true fun p =>
    let r := dDot (f.fn.getLsbD 0) (rdV s f.sa.reg p) (rdV s f.sb.reg p)
    { x := r.1, fst := r.2 }

/-- DCROSS (R433). -/
def shapeDcross (f : FmtA) : Shape := shapeD f true false false 0

/-- DCROSS: a x b (R433). -/
def execDcross (h : Hdr) (f : FmtA) (s : State) : Host.Outcome State Fault Refusal :=
  issue h (shapeDcross f) s fun u s => dir2 f u s fun _ a b => renorm (a.full.cross b.full)

/-- The direction of a value. -/
def DVal.unit : DVal → V3
  | .vec x y z _ => unitVec x y z
  | _ => ⟨0, 0, 0⟩

/-- a - 2 (a.b')b' with b' the direction of b; a zero b is invalid (R433). -/
def reflect (a b : DVal) : DRes :=
  match b with
  | .zero => (dBad, fstDinv)
  | _ => renorm (a.full.sub (V3.mul (2 * a.full.dot b.unit) b.unit))

/-- DREFL (R433). -/
def shapeDrefl (f : FmtA) : Shape := shapeD f true false false 0

/-- DREFL (R433). -/
def execDrefl (h : Hdr) (f : FmtA) (s : State) : Host.Outcome State Fault Refusal :=
  issue h (shapeDrefl f) s fun u s => dir2 f u s fun _ a b => reflect a b

/-- What DREFR answers: the result and Z, or none where the rule gives Z no value (R434). -/
def refract (a b : DVal) (eta : XV) : DRes × Option Bool :=
  match a, b, eta with
  | .invalid, _, _ => ((dBad, 0), none)
  | _, .invalid, _ => ((dBad, 0), none)
  | a, .vec x y z _, .num sg n d =>
    if sg || n == 0 then ((dBad, fstDinv), none)
    else match a with
    | .vec ax ay az an =>
      let aa := sq3 ax ay az
      let bb := sq3 x y z
      let ab := (ax * x + ay * y + az * z).natAbs
      let full := d * d * (aa * bb)
      let lost := n * n * (aa * bb - ab * ab)
      if full < lost then (reflect a b, some true)
      else
        let e := fixOf dirBits n d
        let c := -((unitVec ax ay az).dot (unitVec x y z))
        let k := sqrtFix dirBits (fixOf dirBits (full - lost) full)
        let dir := (V3.mul e (unitVec ax ay az)).add (V3.mul (fmul e c - k) (unitVec x y z))
        (renorm (V3.mul (lenFix an) dir), some false)
    | _ => ((dNull, 0), none)
  | _, _, _ => ((dBad, fstDinv), none)

/-- DREFR (R434). -/
def shapeDrefr (f : FmtA) : Shape := shapeD f true true true 0

/-- DREFR; where no rule gives Z, the flag is a free value (R434, log 26). -/
def execDrefr (h : Hdr) (f : FmtA) (s : State) : Host.Outcome State Fault Refusal :=
  issue h (shapeDrefr f) s fun u s =>
    let r (p : Pos) : DRes × Option Bool := refract (rdV s f.sa.reg p) (rdV s f.sb.reg p) (xF s u f.sc.reg p)
    let z (p : Pos) : Bool := (r p).2.getD ((Config.freeWord (s.free + p.w)).getLsbD 0)
    let s1 := if f.cw.getLsbD 2 then
        u.active.foldl (fun st p => wrC st (f.cw.toNat % 4) p (mkFlags false (z p) false false)) s
      else s
    dirEff f u { s1 with free := s1.free + 1024 } fun p => (r p).1

/-- A norm-only instruction: SA holds the code of DST, SB a scalar (R433). -/
def shapeNormOnly (f : FmtA) : Shape :=
  { enc := [dstChk { d := true } f.dst, cwChk false f.cw, need 10 (f.sa.reg = f.dst),
      srcChk 11 (dataAcc 1 false) false f.sb, unusedSrc 12 f.sc, fnChk f.fn.toNat 1]
    srcs := [useOf f.sa 1, useOf f.sb 1]
    dsts := [{ o := f.dst }] }

/-- The effect of norm-only writes, short latency; a special register stays as it is (R214). -/
def normWrite (f : FmtA) (u : Ux) (s : State) (g : Pos → Int → Except DRes Int) : Eff :=
  let r (p : Pos) : DRes :=
    match rdV s f.dst p with
    | .vec x y z n => match g p n with
      | .ok n' => withNorm n' x y z
      | .error e => e
    | _ => (rdD s f.dst p, 0)
  { st := u.active.foldl (fun st p => wrD st f.dst p (r p).1) s
    fst := u.active.map fun p => (p.gid, (r p).2) }

/-- A body that completes with norm-only writes. -/
def normEff (f : FmtA) (u : Ux) (s : State) (g : Pos → Int → Except DRes Int) : Res := .ok (normWrite f u s g)

/-- DSCL (R433). -/
def shapeDscl (f : FmtA) : Shape := shapeNormOnly f

/-- DSCL: N + k (R237, R433). -/
def execDscl (h : Hdr) (f : FmtA) (s : State) : Host.Outcome State Fault Refusal :=
  issue h (shapeDscl f) s fun u s => normEff f u s fun p n =>
    if f.fn.getLsbD 0 then
      match xF s u f.sb.reg p with
      | .num sg m d => .ok (n + rneDiv ((if sg then -(m : Int) else m) * 32768) d)
      | _ => .error (dBad, fstDinv)
    else .ok (n + sext 24 (rd s u f.sb.reg p).toNat)

/-- DSETN (R433). -/
def shapeDsetn (f : FmtA) : Shape := shapeNormOnly f

/-- DSETN (R237, R433). -/
def execDsetn (h : Hdr) (f : FmtA) (s : State) : Host.Outcome State Fault Refusal :=
  issue h (shapeDsetn f) s fun u s => normEff f u s fun p _ =>
    if f.fn.getLsbD 0 then
      match xF s u f.sb.reg p with
      | .num sg m d =>
        if m == 0 then .error (dNull, 0) else if sg then .error (dBad, fstDinv) else .ok (normOf m d 15)
      | _ => .error (dBad, fstDinv)
    else .ok (sext 24 (rd s u f.sb.reg p).toNat)

/-- DNORM (R433). -/
def shapeDnorm (f : FmtA) : Shape := shapeD f false false false 0

/-- DNORM: the direction at length 1; of the zero vector, 0 (R432, R433). -/
def execDnorm (h : Hdr) (f : FmtA) (s : State) : Host.Outcome State Fault Refusal :=
  issue h (shapeDnorm f) s fun u s => dir1 f u s fun a =>
    match a with
    | .vec .. => fieldsOf a.unit 0
    | _ => (dNull, 0)

/-- sin of a scaled real of any size. -/
def sinReal (x : Int) : Int :=
  let tau := 2 * piFix dirBits
  sinFix dirBits (x - rneDiv x tau.toNat * tau)

/-- DSLERP of two directions (R434). -/
def slerp (a b : DVal) (t : XV) : DRes :=
  match a, b, t with
  | .vec x y z n, .vec x' y' z' n', .num sg m d =>
    let dot := x * x' + y * y' + z * z'
    let tn : Int := if sg then -(m : Int) else m
    let len := rneDiv (n * d + tn * (n' - n)) d
    let parallel := y * z' == z * y' && z * x' == x * z' && x * y' == y * x'
    if parallel then (if dot < 0 then (dBad, fstDinv) else fieldsOf a.unit len)
    else
      let cr := a.unit.cross b.unit
      let sn := sqrtFix dirBits (cr.dot cr)
      let th := angleFix dirBits (a.unit.dot b.unit) sn
      let p := sinReal (th * ((d : Int) - tn) / (d : Int))
      let q := sinReal (th * tn / (d : Int))
      fieldsOf ((V3.mul p a.unit).add (V3.mul q b.unit)) len
  | _, _, .num _ _ _ => (dNull, 0)
  | _, _, _ => (dBad, fstDinv)

/-- DSLERP (R434). -/
def shapeDslerp (f : FmtA) : Shape := shapeD f true true false 0

/-- DSLERP (R434). -/
def execDslerp (h : Hdr) (f : FmtA) (s : State) : Host.Outcome State Fault Refusal :=
  issue h (shapeDslerp f) s fun u s => dir2 f u s fun p a b => slerp a b (xF s u f.sc.reg p)

/-- DCMP: DST is the zero code and CW[2] is 1 (R435). -/
def shapeDcmp (f : FmtA) : Shape :=
  { enc := [dstChk { z := true } f.dst, need 9 (f.cw.getLsbD 2), srcChk 10 (dirAcc false) false f.sa,
      srcChk 11 (dirAcc false) false f.sb, unusedSrc 12 f.sc, fnChk f.fn.toNat 0]
    srcs := [useOf f.sa 1, useOf f.sb 1] }

/-- The flags of a comparison (R435); the zero-vector code is the least norm. -/
def dCmp (a b : DVal) : BitVec 4 :=
  match a, b with
  | .invalid, _ => mkFlags false false false true
  | _, .invalid => mkFlags false false false true
  | .zero, .zero => mkFlags false true true false
  | .zero, _ => mkFlags false false false false
  | _, .zero => mkFlags false false true false
  | .vec x y z n, .vec x' y' z' n' =>
    mkFlags (decide (x * x' + y * y' + z * z' < 0)) (x == x' && y == y' && z == z') (decide (n' ≤ n)) false

/-- DCMP (R435). -/
def execDcmp (h : Hdr) (f : FmtA) (s : State) : Host.Outcome State Fault Refusal :=
  issue h (shapeDcmp f) s fun u s =>
    .ok { st := u.active.foldl (fun st p =>
            wrC st (f.cw.toNat % 4) p (dCmp (rdV s f.sa.reg p) (rdV s f.sb.reg p))) s }

/-- DNEG (R433). -/
def shapeDneg (f : FmtA) : Shape := shapeD f false false false 0

/-- DNEG: the fields negated exactly, N unchanged; a field of -2 has no negation, and the vector is then formed by
R236 (R433, log 27). -/
def execDneg (h : Hdr) (f : FmtA) (s : State) : Host.Outcome State Fault Refusal :=
  issue h (shapeDneg f) s fun u s => dir1 f u s fun a =>
    match a with
    | .vec x y z n =>
      if [x, y, z].any (· == -8388608) then fieldsOf (unitVec (-x) (-y) (-z)) n else (dWord (-x) (-y) (-z) n, 0)
    | _ => (dNull, 0)

/-- DADD (R433). -/
def shapeDadd (f : FmtA) : Shape := shapeD f true false false 1

/-- DADD: a + b, or a - b (R433). -/
def execDadd (h : Hdr) (f : FmtA) (s : State) : Host.Outcome State Fault Refusal :=
  issue h (shapeDadd f) s fun u s => dir2 f u s fun _ a b =>
    renorm (if f.fn.getLsbD 0 then a.full.sub b.full else a.full.add b.full)

/-- DPROJ (R433). -/
def shapeDproj (f : FmtA) : Shape := shapeD f true false false 1

/-- DPROJ: the part of a off b, or onto it (R433). -/
def execDproj (h : Hdr) (f : FmtA) (s : State) : Host.Outcome State Fault Refusal :=
  issue h (shapeDproj f) s fun u s => dir2 f u s fun _ a b =>
    match b with
    | .zero => (dBad, fstDinv)
    | _ =>
      let on := V3.mul (a.full.dot b.unit) b.unit
      renorm (if f.fn.getLsbD 0 then on else a.full.sub on)

/-- DFRAME (R434). -/
def shapeDframe (f : FmtA) : Shape := shapeD f true false false 0

/-- A vector over its length. -/
def V3.normal (v : V3) : V3 :=
  let l := sqrtFix dirBits (v.dot v)
  let f (c : Int) : Int := c * 2 ^ dirBits / l
  ⟨f v.x, f v.y, f v.z⟩

/-- DFRAME: a in the frame about b (R434). -/
def frameOf (a b : DVal) : DRes :=
  match b with
  | .vec x y z _ =>
    let one : Int := 2 ^ dirBits
    let e : V3 :=
      if x.natAbs ≤ y.natAbs && x.natAbs ≤ z.natAbs then ⟨one, 0, 0⟩
      else if y.natAbs ≤ z.natAbs then ⟨0, one, 0⟩ else ⟨0, 0, one⟩
    let t := (e.cross b.unit).normal
    let r := b.unit.cross t
    let v := a.full
    renorm (((V3.mul v.x t).add (V3.mul v.y r)).add (V3.mul v.z b.unit))
  | _ => (dBad, fstDinv)

/-- DFRAME (R434). -/
def execDframe (h : Hdr) (f : FmtA) (s : State) : Host.Outcome State Fault Refusal :=
  issue h (shapeDframe f) s fun u s => dir2 f u s fun _ a b => frameOf a b

end Sys2Proof.Machine
end

