-- ==== Sys2Proof/Machine/Launches.lean ====
section
/-!
DEFINITION. Launch records: reading one with its kernel header, and the checks of its fields (R89 to R94, R230, R231,
R255, R321, R322).
-/

namespace Sys2Proof.Machine

/-- Bits [hi:lo] as a mask. -/
def span (hi lo : Nat) : Nat := 2 ^ (hi + 1) - 2 ^ lo

/-- Reserved bits of the words of a launch record (R90). -/
def recordReserved : List (Nat × Nat) :=
  [(3, span 63 62 + span 57 48), (4, span 63 40 + span 15 12 + span 7 6), (5, span 63 44 + span 31 29 + span 15 9),
   (6, 0xC4C4C4C4C4C4C4C4), (8, 0xC000C000C000C000), (9, 0xC000C000C000C000), (10, span 63 32), (11, span 63 48),
   (13, span 63 48 + span 31 24), (15, span 63 34 + span 15 8), (25, span 63 6), (26, span 63 0), (27, span 63 0),
   (28, span 63 0), (29, span 63 0), (30, span 63 0), (31, span 63 0)]

/-- Every reserved bit is 0. -/
def Launch.reservedOk (l : Launch) : Bool := recordReserved.all fun x => l.w x.1 &&& x.2 == 0

/-- A number lies in a range. -/
def within (lo hi x : Nat) : Bool := decide (lo ≤ x) && decide (x ≤ hi)

/-- KHDR, and the placing fields of w3 and w4 (R90). -/
def Launch.khdr (l : Launch) : Nat := l.w 1
def Launch.coresCode (l : Launch) : Nat := bits (l.w 3) 60 58
def Launch.wdogField (l : Launch) : Nat := bits (l.w 4) 31 16
/-- ARGS, and the tag fields of w14 and w15 (R90). -/
def Launch.args (l : Launch) : Nat := l.w 24
def Launch.after (l : Launch) (i : Nat) : Nat := l.w 14 / 65536 ^ i % 65536
def Launch.afterValid (l : Launch) (i : Nat) : Bool := tb (l.w 15) i
def Launch.afterIdx (l : Launch) (i : Nat) : Bool := tb (l.w 15) (4 + i)
def Launch.doneTag (l : Launch) : Nat := bits (l.w 15) 31 16
def Launch.doneValid (l : Launch) : Bool := tb (l.w 15) 32
def Launch.doneIdx (l : Launch) : Bool := tb (l.w 15) 33

/-- The grid, the block and the shape are in range (R90). -/
def Launch.gridOk (l : Launch) : Bool :=
  l.code % 64 == 0 && l.khdr % 64 == 0 && l.gridx != 0 && l.gridy != 0 && l.gridz != 0 && l.coresCode ≤ 4 &&
    (!l.strad || l.coresCode == 4) && within 1 32768 l.bx && within 1 32768 l.byy && within 1 32768 l.bz &&
    l.threads ≤ 32768

/-- The scheduling fields are in range (R90). -/
def Launch.schedOk (l : Launch) : Bool :=
  (l.pin ≤ 95 || l.pin == 0xFE || l.pin == 0xFF) && (l.task || l.pin == 0xFF) &&
    (l.cls != 0 || l.wdogField != 0) && within 1 8 l.nstage &&
    (if l.cls == 0 then l.qmax != 0 else l.qmax == 0 && l.abytes == 0 && l.deadline == 0) &&
    ((l.ipeak == 0) == (l.energy == 0)) && (l.task || (l.w 14 == 0 && l.w 15 == 0))

/-- The register, tile and argument fields are in range (R90). -/
def Launch.sizesOk (l : Launch) : Bool :=
  l.tileu ≤ 4094 && l.dregs ≤ 16 && l.sregs ≤ 160 && within 16 256 l.vregs && l.vregs % 8 == 0 &&
    l.args % 4 == 0 && l.argn ≤ 32 && l.argn ≤ l.sregs

/-- Stages: a role, a group count and a ring for each below NSTAGE, zero beyond, none after the last (R90). -/
def Launch.stagesOk (l : Launch) : Bool :=
  ((List.range 8).all fun k =>
    if k < l.nstage then l.stg k % 4 != 3 && within 1 64 (l.gstg k) else l.stg k == 0 && l.gstg k == 0) &&
    l.ring (l.nstage - 1) == 0

/-- The group count of the block is that of its stages (R91). -/
def Launch.countOk (l : Launch) : Bool := cdiv l.threads 32 == l.ncores * l.perCore

/-- Set k is absent, or lies within one stage of a core of the block (R92). -/
def Launch.setOk (l : Launch) (k : Nat) : Bool :=
  let w := l.setWord k
  let cnt := bits w 13 10
  let first := bits w 9 4
  cnt == 0 || (bits w 3 0 < l.ncores && first + cnt < l.perCore && l.stageOf first == l.stageOf (first + cnt))

/-- Two sets have no group in common (R92). -/
def Launch.setsApart (l : Launch) (j k : Nat) : Bool :=
  let a := l.setWord j
  let b := l.setWord k
  bits a 13 10 == 0 || bits b 13 10 == 0 || bits a 3 0 != bits b 3 0 ||
    bits a 9 4 + bits a 13 10 < bits b 9 4 || bits b 9 4 + bits b 13 10 < bits a 9 4

/-- The sets of the record are valid (R92). -/
def Launch.setsOk (l : Launch) : Bool :=
  (List.range 8).all fun k => l.setOk k && (List.range k).all fun j => l.setsApart j k

/-- The eight format-slot descriptors are valid (R230, R231). -/
def Launch.slotsOk (l : Launch) : Bool := (List.range 8).all fun k => slotValid (l.fslot k)

/-- The record passes step 3 of R93. -/
def Launch.recordOk (l : Launch) : Bool :=
  l.reservedOk && l.gridOk && l.schedOk && l.sizesOk && l.stagesOk && l.countOk && l.setsOk && l.slotsOk

/-! ### The kernel header (R255, R321, R322) -/

/-- An entry of the region table keeps R255. -/
def Launch.regionOk (l : Launch) (e : Nat) : Bool :=
  let kind := bits e 63 62
  let rows := bits e 11 0
  let sl := slotOf (l.fslot (bits e 57 55))
  e &&& (span 59 58 + span 54 28 + span 15 12) == 0 &&
    (kind == 0 ||
      (kind != 3 && within 1 4094 rows && bits e 27 16 + rows ≤ l.tileu &&
        (kind != 1 || bits e 57 55 == 0) &&
        (kind != 2 || (bits e 61 60 == 0 && sl.elem && rows % sl.panelRows == 0))))

/-- Two regions in use do not overlap. -/
def regionsApart (a b : Nat) : Bool :=
  bits a 63 62 == 0 || bits b 63 62 == 0 || bits a 27 16 + bits a 11 0 ≤ bits b 27 16 ||
    bits b 27 16 + bits b 11 0 ≤ bits a 27 16

/-- The region table keeps R255. -/
def Launch.regionsOk (l : Launch) : Bool :=
  let t := l.regions.map (·.toNat)
  t.all l.regionOk && (t.zipIdx.all fun x => (t.take x.2).all fun y => regionsApart y x.1)

/-- The first word of a header and its reserved bytes (R321). -/
def headOk (head : List Byte) : Bool :=
  leVal (head.take 8) ≤ 4096 && ((head.drop 8).take 56).all fun b => b == 0

/-- The PC of a safe point is in the form of a quire start (R321). -/
def pcFormOk (pc : Nat) : Bool := pc < 2 ^ 57 && bits pc 5 3 == 0 && pc % 8 < 5

/-- A safe-point entry with its liveness entry (R321, R322). -/
structure SafeRow where
  entry : Nat
  live : List Byte
deriving DecidableEq, Repr

/-- Bytes [a, a + n) of a list as a number. -/
def field (l : List Byte) (a n : Nat) : Nat := leVal ((l.drop a).take n)

/-- The PC of an entry. -/
def SafeRow.pc (r : SafeRow) : Nat := bits r.entry 63 0

/-- An entry and its liveness entry keep R321 and R322. -/
def SafeRow.ok (r : SafeRow) : Bool :=
  let save := field r.live 0x40 8
  let rest := field r.live 0x48 8
  r.entry / 2 ^ 97 == 0 && pcFormOk r.pc && bits r.entry 95 64 % 16 == 0 && field r.live 0x34 4 == 0 &&
    field r.live 0x3A 1 < 16 && field r.live 0x3B 5 == 0 && ((save == 0) == (rest == 0)) && save % 64 == 0 && rest % 64 == 0

/-- The safe point of an entry (R322). -/
def SafeRow.point (r : SafeRow) : SafePt :=
  { pc := r.pc, any := tb r.entry 96, vlive := field r.live 0 32, slive := field r.live 0x20 20
    dlive := field r.live 0x38 2, clive := field r.live 0x3A 1, save := field r.live 0x40 8, restore := field r.live 0x48 8 }

/-- The PCs stand in strictly ascending order. -/
def ascending : List Nat → Bool
  | [] => true
  | [_] => true
  | a :: b :: rest => decide (a < b) && ascending (b :: rest)

/-- Reads a safe-point row of a header: the entry, and the liveness entry that it names. -/
def readSafe (s : State) (ctx khdr k : Nat) : Option SafeRow :=
  match vRead s ctx sysRead (khdr + 0xC0 + 16 * k) 16 with
  | none => none
  | some e =>
    match vRead s ctx sysRead (khdr + bits (leVal e) 95 64) 80 with
    | none => none
    | some lv => some { entry := leVal e, live := lv }

/-- The completion statuses of a launch record that fails (R77). -/
def stBadField : Nat := 3
def stXlate : Nat := 4

/-- Reads and checks a launch record: steps 1 to 3 of R93. The launch has no queue, tag or state yet. -/
def fetchLaunch (s : State) (ctx va : Nat) : Except Nat Launch :=
  if va % 64 != 0 then .error stBadField
  else match vRead s ctx sysRead va 256 with
  | none => .error stXlate
  | some bs =>
    let l : Launch := { Launch.blank with
      ctx := ctx
      words := (List.range 32).map fun k => BitVec.ofNat 64 (field bs (8 * k) 8) }
    match vRead s ctx sysRead l.khdr 0xC0 with
    | none => .error stXlate
    | some head =>
      let rows := (List.range (field head 0 8 % 8192)).map (readSafe s ctx l.khdr)
      if rows.any Option.isNone then .error stXlate
      else
        let safes := rows.filterMap id
        let l1 := { l with
          regions := (List.range 16).map fun k => BitVec.ofNat 64 (field head (0x40 + 8 * k) 8)
          safes := safes.map SafeRow.point }
        if l1.recordOk && l1.regionsOk && headOk head && safes.all SafeRow.ok && ascending (safes.map SafeRow.pc)
        then .ok l1 else .error stBadField

/-- The argument words of a launch, or none where they cannot be read (R94). -/
def argWords (s : State) (l : Launch) : Option (List Word) :=
  if l.argn == 0 then some []
  else (vRead s l.ctx sysRead l.args (4 * l.argn)).map fun bs =>
    (List.range l.argn).map fun k => BitVec.ofNat 32 (field bs (4 * k) 4)

end Sys2Proof.Machine
end

