-- ==== Sys2Proof/Machine/Place.lean ====
section
/-!
DEFINITION. Placing blocks: shapes, room on a core, seats, power and private slots, and the making of a block and its
groups (R91 to R94, R98 to R103, R112 to R114, R161 to R163, R170, R192, R249, R253, R299, R470).
-/

namespace Sys2Proof.Machine

/-! ### Shapes (R14, R23, R25, R99, R100) -/

/-- The cluster in row k and column j of a die. -/
def clusterAt (d k j : Nat) : Nat := 12 * d + 4 * k + j

/-- The cores of some clusters, in rising order. -/
def coresOf (l : List Nat) : List Nat :=
  sortBy (fun a b => decide (a ≤ b)) (l.flatMap fun c => (List.range 4).map fun i => 4 * c + i)

/-- Pairs of clusters of a die that are neighbours. -/
def clusterPairs : List (List Nat) :=
  (List.range 8).flatMap fun d => (List.range 3).flatMap fun k => (List.range 4).flatMap fun j =>
    (if j < 3 then [[clusterAt d k j, clusterAt d k (j + 1)]] else []) ++
      (if k < 2 then [[clusterAt d k j, clusterAt d (k + 1) j]] else [])

/-- The sectors and the 2 x 2 squares of the dies. -/
def clusterQuads : List (List Nat) :=
  (List.range 8).flatMap fun d => (List.range 3).flatMap fun k =>
    [(List.range 4).map fun j => clusterAt d k j] ++
      (if k < 2 then (List.range 3).map fun j =>
        [clusterAt d k j, clusterAt d k (j + 1), clusterAt d (k + 1) j, clusterAt d (k + 1) (j + 1)] else [])

/-- Two facing cluster pairs of an edge in adjacent rows or columns. -/
def clusterStraddles : List (List Nat) :=
  (List.range 8).flatMap fun d =>
    (if d % 4 != 3 then (List.range 2).map fun k =>
      [clusterAt d k 3, clusterAt d (k + 1) 3, clusterAt (d + 1) k 0, clusterAt (d + 1) (k + 1) 0] else []) ++
      (if d < 4 then (List.range 3).map fun j =>
        [clusterAt d 2 j, clusterAt d 2 (j + 1), clusterAt (d + 4) 0 j, clusterAt (d + 4) 0 (j + 1)] else [])

/-- The positions of a launch: the cores of each, in rising order (R99, R100). -/
def Launch.positions (l : Launch) : List (List Nat) :=
  if l.ncores ≤ 4 then (List.range (384 / l.ncores)).map fun i => (List.range l.ncores).map fun k => l.ncores * i + k
  else if l.ncores == 8 then clusterPairs.map coresOf
  else (clusterQuads ++ if l.strad then clusterStraddles else []).map coresOf

/-- The cluster to which PIN binds the block of an index, if it binds it to one (R90, R117). -/
def Launch.pinned (l : Launch) (lin : Nat) : Option Nat :=
  if !l.task then none else if l.pin ≤ 95 then some l.pin else if l.pin == 0xFE then some (lin % 96) else none

/-- The positions that the block of an index may take: those of its shape in the cluster that PIN names (R99, R100, R117). -/
def Launch.spots (l : Launch) (lin : Nat) : List (List Nat) :=
  match l.pinned lin with
  | none => l.positions
  | some cl => l.positions.filter fun p => p.any fun c => clusterOf c == cl

/-- The cluster whose pending-task table a tile task at a position stands in: that of PIN, else its leader core's (R117). -/
def Launch.taskCluster (l : Launch) (lin : Nat) (p : List Nat) : Nat := (l.pinned lin).getD (clusterOf (p.headD 0))

/-- Every predecessor tag of a tile task is in a table of completed tags (R117). -/
def tagsReady (tags : NSet) (l : Launch) (lin : Nat) : Bool :=
  (List.range 4).all fun i =>
    !l.afterValid i || NSet.has tags ((l.after i + if l.afterIdx i then lin else 0) % 65536)

/-! ### Room (R101 to R103, R470) -/

/-- What a block takes on a core: groups, and bytes of the vector file, the directional file and tile memory. -/
structure Room where
  g : Nat
  v : Nat
  d : Nat
  tile : Nat
  /-- Blocks with a MATRIX stage. -/
  matrix : Nat
deriving DecidableEq, Repr

/-- The sum of two. -/
def Room.add (a b : Room) : Room :=
  { g := a.g + b.g, v := a.v + b.v, d := a.d + b.d, tile := a.tile + b.tile, matrix := a.matrix + b.matrix }

/-- No room is passed. -/
def Room.le (a b : Room) : Bool := a.g ≤ b.g && a.v ≤ b.v && a.d ≤ b.d && a.tile ≤ b.tile && a.matrix ≤ b.matrix

/-- The capacity of a core. -/
def coreRoom : Room := { g := 64, v := 1048576, d := 393216, tile := 2096128, matrix := 1 }

/-- The launch has a MATRIX stage. -/
def Launch.hasMatrix (l : Launch) : Bool := (List.range l.nstage).any fun k => l.stg k % 4 == 1

/-- The need of a block of a launch on each of its cores. -/
def Launch.need (l : Launch) : Room :=
  { g := l.perCore, v := l.perCore * 128 * l.vregs, d := l.perCore * 384 * l.dregs, tile := l.tileb, matrix := b2n l.hasMatrix }

/-- A block holds its cores: placed and neither saved nor retired. -/
def Block.resident (b : Block) : Bool := b.st == .placed || b.st == .admitted || b.st == .preempting

/-- The blocks, by number. -/
def blocksOf (s : State) : List (Nat × Block) := s.blocks.filterMap fun e => e.2.map fun b => (e.1, b)

/-- The resident blocks that hold a part of a core. -/
def blocksOn (s : State) (core : Nat) : List (Nat × Block) :=
  (blocksOf s).filter fun e => e.2.resident && e.2.cores.any fun k => k.core == core

/-- The resident blocks that hold a part of a cluster. -/
def blocksIn (s : State) (cl : Nat) : List (Nat × Block) :=
  (blocksOf s).filter fun e => e.2.resident && e.2.cores.any fun k => clusterOf k.core == cl

/-- A retired mesh block whose emit buffer the binning engine has still to read: it keeps its tile memory (R135). -/
def unreadMesh (s : State) (b : Block) : Bool :=
  match b.draw with
  | none => false
  | some k => match s.draw k with
    | none => false
    | some d => b.st == .retired && d.ended == 0 && d.mesh == b.lid && d.nextBlock ≤ b.lin

/-- What the blocks of a core take: the resident ones, and the tile memory of mesh blocks still to be read. -/
def usedRoom (s : State) (core : Nat) : Room :=
  let none_ : Room := { g := 0, v := 0, d := 0, tile := 0, matrix := 0 }
  let resident := (blocksOn s core).foldl (fun a e => a.add (s.l e.2.lid).need) none_
  ((blocksOf s).filter fun e => unreadMesh s e.2 && e.2.cores.any fun k => k.core == core).foldl
    (fun a e => a.add { none_ with tile := (s.l e.2.lid).tileb }) resident

/-- The reserve of a cluster for class 0 (R102). -/
def reservedRoom (s : State) (cl : Nat) : Room :=
  let r := (s.cluster cl).c0rsv.toNat
  { g := bits r 23 16, v := 8192 * bits r 39 32, d := 0, tile := 65536 * bits r 55 48, matrix := 0 }

/-- A die accepts placement (R28). -/
def dieOnline (s : State) (d : Nat) : Bool := (s.die d).st == 0

/-- A block of a launch fits on a core beside the resident ones. -/
def fitsCore (s : State) (l : Launch) (core : Nat) : Bool :=
  let total := (usedRoom s core).add l.need
  dieOnline s (dieOf core) &&
    (if l.cls == 0 then total.le coreRoom else (total.add (reservedRoom s (clusterOf core))).le coreRoom)

/-! ### Seats (R102, R161, R162) -/

/-- The seats taken on a core: slot and quarter of each group of its resident blocks, and whether its class is 0. -/
def seatsOn (s : State) (core : Nat) : List (Nat × Nat × Bool) :=
  (blocksOn s core).flatMap fun e =>
    let l := s.l e.2.lid
    (e.2.cores.zipIdx.filter fun k => k.1.core == core).flatMap fun k =>
      ((e.2.seats.drop (k.2 * l.perCore)).take l.perCore).map fun x => (x.1, x.2, l.cls == 0)

/-- Groups of some seats in a quarter. -/
def inQuarter (l : List (Nat × Nat × Bool)) (q : Nat) : Nat := (l.filter fun x => x.2.1 == q).length

/-- The seat of the next group: the lowest free slot, and the quarter with the fewest groups. -/
def nextSeat (l : List (Nat × Nat × Bool)) : Nat × Nat :=
  let slot := ((List.range 64).find? fun k => l.all fun x => x.1 != k).getD 0
  let least := minOr 0 ((List.range 4).map (inQuarter l))
  (slot, ((List.range 4).find? fun q => inQuarter l q == least).getD 0)

/-- The seats of `n` more groups, after those taken. -/
def takeSeats (zero : Bool) : Nat → List (Nat × Nat × Bool) → List (Nat × Nat × Bool)
  | 0, _ => []
  | n + 1, l =>
    let x := nextSeat l
    (x.1, x.2, zero) :: takeSeats zero n (l ++ [(x.1, x.2, zero)])

/-- The seats of a block of a launch on a core. -/
def coreSeats (s : State) (l : Launch) (core : Nat) : List (Nat × Nat × Bool) :=
  takeSeats (l.cls == 0) l.perCore (seatsOn s core)

/-- No quarter of a core gets more class-0 groups than G0Q. -/
def quarterOk (s : State) (l : Launch) (core : Nat) : Bool :=
  l.cls != 0 || (List.range 4).all fun q =>
    let seats := seatsOn s core ++ coreSeats s l core
    decide ((seats.filter fun x => x.2.1 == q && x.2.2).length ≤ bits (s.cluster (clusterOf core)).c0rsv.toNat 12 8)

/-! ### Power (R36, R40, R113, R114, R116) -/

/-- The lowest CAP of the rails that feed a cluster. -/
def capIn (s : State) (cl : Nat) : Nat :=
  let d := dieOfCluster cl
  min (capOf (phsOf (s.rail (3 * d)))) (min (capOf (phsOf (s.rail (3 * d + 1)))) (capOf (phsOf (s.rail (3 * d + 2)))))

/-- The fc frequency in MHz of a ratio and a speed class (R36). -/
def fcMHz (ratio cls : Nat) : Nat :=
  let lc := [800, 1100, 1400, 1700].getD cls 800
  match ratio with
  | 1 => lc / 2
  | 2 => if cls == 0 then 1600 else 1700
  | _ => lc

/-- Twice the number of fc in an lc. -/
def fcPerLc2 (ratio : Nat) : Nat :=
  match ratio with
  | 1 => 1
  | 2 => 4
  | _ => 2

/-- VNOM of a speed class in mV. -/
def vnom (cls : Nat) : Nat := [650, 720, 800, 880].getD cls 650

/-- EBUD in nJ of a cluster at a speed class. -/
def ebudAt (s : State) (cl cls : Nat) : Nat :=
  let k := 3 * dieOfCluster cl
  ilimOf k (s.rail k) * vnom cls * 4096 / (12 * fcMHz (s.cluster cl).ratio cls)

/-- IBUD of a cluster in twelfths of 10 mA. -/
def ibudNow (s : State) (cl : Nat) : Nat :=
  let k := 3 * dieOfCluster cl
  100 * ilimOf k (s.rail k)

/-- The charges of a block of a launch on some cores: cluster, quarters of a nJ, twelfths of 10 mA. A declared charge is taken
once for each core that the block has in the cluster (DESIGN CHOICE, log 137: R114 says "on every core", R90 "per block"). -/
def chargesOf (s : State) (l : Launch) (cores : List Nat) : List (Nat × Nat × Nat) :=
  (cores.map clusterOf).eraseDups.map fun cl =>
    let n := (cores.filter fun c => clusterOf c == cl).length
    let c := s.cluster cl
    if l.energy == 0 then (cl, c.ebud * n, c.ibud / 4 * n) else (cl, 4 * l.energy * n, 12 * l.ipeak * n)

/-- The charges in force on a cluster. -/
def chargedOn (s : State) (cl : Nat) : Nat × Nat :=
  ((blocksOf s).flatMap fun e => e.2.charge.filter fun x => x.1 == cl).foldl
    (fun a x => (a.1 + x.2.1, a.2 + x.2.2)) (0, 0)

/-- Some charges fit the budgets of every cluster they fall on. -/
def powerOk (s : State) (ch : List (Nat × Nat × Nat)) : Bool :=
  ch.all fun x =>
    let now := chargedOn s x.1
    decide (now.1 + x.2.1 ≤ 4 * (s.cluster x.1).ebud) && decide (now.2 + x.2.2 ≤ (s.cluster x.1).ibud)

/-! ### Choosing a position -/

/-- The private slots in use (R249). -/
def privateUsed (s : State) : List Nat := ((blocksOf s).filter fun e => e.2.st != .retired).map fun e => e.2.ps

/-- The lowest free private slot. -/
def freePrivate (s : State) : Option Nat :=
  let used := privateUsed s
  ((List.range (used.length + 1)).find? fun k => !used.contains k).filter fun k => k < 65536

/-- A position meets R99 to R103. -/
def posFits (s : State) (l : Launch) (p : List Nat) : Bool := p.all (fitsCore s l)

/-- The refusal reasons of R105 that a position gives, in the order of its step 3: 1, 6, 8, 7, 9, or none. -/
def posReason (s : State) (l : Launch) (p : List Nat) : Option Nat :=
  if !posFits s l p then some 1
  else if !p.all (fun c => decide (l.floor ≤ capIn s (clusterOf c))) then some 6
  else if !p.all (quarterOk s l) then some 8
  else if !powerOk s (chargesOf s l p) then some 7
  else if (freePrivate s).isNone then some 9
  else none

/-- The place of a reason in the order in which step 3 of R105 asks for it. -/
def reasonRank (r : Nat) : Nat :=
  match r with
  | 1 => 0
  | 6 => 1
  | 8 => 2
  | 7 => 3
  | _ => 4

/-- The reason when no position qualifies: that of the positions that come furthest (R105). -/
def noPosition (s : State) (l : Launch) : Option Nat :=
  let rs := (l.spots l.placed).map (posReason s l)
  if rs.any Option.isNone then none
  else some ((rs.filterMap id).foldl (fun a r => if reasonRank a < reasonRank r then r else a) 1)

/-- The most blocks of a launch that an empty core of a cluster holds: for classes 1 to 3 beside the reserve (R101, R103). -/
def coreHolds (s : State) (l : Launch) (cl : Nat) : Nat :=
  let a := if l.cls == 0 then { reservedRoom s cl with g := 0, v := 0, tile := 0 } else reservedRoom s cl
  let k (cap taken n : Nat) : Nat := if n == 0 then 64 else (cap - taken) / n
  let r := l.need
  let per := min (min (k 64 a.g r.g) (k coreRoom.v a.v r.v)) (min (k coreRoom.d a.d r.d) (k coreRoom.tile a.tile r.tile))
  if l.hasMatrix then min per 1 else per

/-- The blocks of some indices find positions beside blocks that take some cores, one for each time that a core is listed. -/
def holdAll (s : State) (l : Launch) : List Nat → List Nat → Bool
  | [], _ => true
  | lin :: rest, taken =>
    (l.spots lin).any fun p =>
      (p.all fun c => dieOnline s (dieOf c) && decide (taken.count c < coreHolds s l (clusterOf c))) &&
        holdAll s l rest (taken ++ p)

/-- The grid of a launch fits wholly on the cores of the online dies with no other block there. Where every cluster holds as
many blocks and PIN names none, the cores alone decide (R98, R117). -/
def couldHold (s : State) (l : Launch) : Bool :=
  let per := (List.range 96).map (coreHolds s l)
  let most := per.foldl max 0
  decide (l.blocks ≤ most * 48 * ((List.range 8).filter (dieOnline s)).length / l.ncores) &&
    (((l.pinned 0).isNone && per.all fun n => n == most) || holdAll s l (List.range l.blocks) [])

/-! ### Making a block (R100, R163, R170, R249, R253, R299, R470) -/

/-- The rings of a launch, all slots EMPTY. -/
def Launch.newRings (l : Launch) : FMap (Option Ring) :=
  ((List.range 7).filter fun st => l.ring st != 0).map fun st =>
    (st, some { slots := List.replicate (l.ring st + 1) { pay := 0, st := 0, ph := 0 }
                pix := 0, plap := 0, gix := 0, glap := 0, xix := 0 })

/-- A block placed on some cores: it holds its room, its seats and its private slot. -/
def placeBlock (s : State) (lid lin : Nat) (cores : List Nat) : State :=
  let l := s.l lid
  let b : Block := { Block.blank with
    lid := lid, lin := lin, st := .placed, ps := (freePrivate s).getD 0, speed := l.floor, draw := l.draw
    cores := cores.map fun c => { BCore.blank with core := c, rings := l.newRings }
    seats := cores.flatMap fun c => (coreSeats s l c).map fun x => (x.1, x.2.1) }
  { (s.setBlock s.nextBlock b).setLaunch lid { l with placed := l.placed + 1, st := .running } with
    nextBlock := s.nextBlock + 1 }

/-- The role of a stage (R168). -/
def roleOf (k : Nat) : Role :=
  match k % 4 with
  | 0 => .copy
  | 1 => .matrix
  | _ => .vector

/-- Lane masks of the threads of a group: lanes beyond the block's threads count as exited (R91). -/
def liveMask (threads g : Nat) : Nat := 2 ^ min 32 (threads - 32 * g) - 1

/-- A group as it is created (R91, R94, R163, R192). -/
def newGroup (l : Launch) (b : Block) (bid g : Nat) (args : List Word) : Group :=
  let c := g / l.perCore
  let k := g % l.perCore
  let seat := b.seats.getD g (0, 0)
  let live := liveMask l.threads g
  { Group.blank with
    bid := bid, idx := g, bcore := c, core := (b.cores.getD c BCore.blank).core, slot := seat.1, quarter := seat.2
    stage := l.stageOf k, role := roleOf (l.stg (l.stageOf k)), set := l.setOf c k
    s := args.zipIdx.foldl (fun m x => FMap.set 0 m x.2 x.1) []
    pcs := (List.range 32).foldl (fun m n => if tb live n then FMap.set 0 m n l.code else m) []
    alive := BitVec.ofNat 32 live
    tlin := (List.range 32).foldl (fun m n => if tb live n then FMap.set 0 m n (32 * g + n) else m) []
    narrows := [Narrow.fresh 255] }

/-- The groups of a launch's block. -/
def Launch.groupCount (l : Launch) : Nat := l.ncores * l.perCore

/-- The cores of a block with barrier objects reset and accumulators at +0 and unbound (R299, R470). -/
def freshCores (s : State) (l : Launch) (cores : List Nat) : State :=
  cores.foldl (fun st c =>
    let k := st.core c
    let k1 := { k with bars := [] }
    st.setCore c (if l.hasMatrix then { k1 with acc := [], bound := none, array := [] } else k1)) s

/-- The groups of a block are created (R163). -/
def createGroups (s : State) (bid : Nat) (args : List Word) : State :=
  let b := s.b bid
  let l := s.l b.lid
  let s1 := freshCores s l (b.cores.map (·.core))
  (List.range l.groupCount).foldl (fun st g => st.setGroup (gidOf bid g) (newGroup l b bid g args)) s1

/-- The charges that the admission of a block would add: none for a block that is charged already (R114). -/
def chargesDue (s : State) (b : Block) : List (Nat × Nat × Nat) :=
  if b.charge.isEmpty then chargesOf s (s.l b.lid) (b.cores.map (·.core)) else []

/-- The charges of a block stand. -/
def chargeBlock (s : State) (bid : Nat) : State :=
  s.setBlock bid { s.b bid with charge := (s.b bid).charge ++ chargesDue s (s.b bid) }

/-- The admission of a placed block, without its power test: its charges stand, and its groups come to be unless they
stand already, as a resumed block's do (R114, R163). -/
def admitBlock (s : State) (bid : Nat) (args : List Word) : State :=
  let s0 := chargeBlock s bid
  let b := s0.b bid
  let keep := if args.isEmpty then b.args else args
  let s1 := s0.setBlock bid { b with st := .admitted, args := keep }
  if (s1.group (gidOf bid 0)).isSome then s1 else createGroups s1 bid args

/-- A tile task of class 0 leaves its cluster's pending-task table as its block is admitted (R117). -/
def leaveTable (s : State) (lid lin : Nat) : State :=
  { s with clusters := s.clusters.map fun e =>
      (e.1, { e.2 with tasks := e.2.tasks.filter fun t => !(t.held && t.lid == lid && t.lin == lin) }) }

/-- A block of a tile-task launch whose predecessor tags are not all in its cluster's table (R117). -/
def tagsMissing (s : State) (l : Launch) (lin : Nat) (cores : List Nat) : Bool :=
  l.task && !tagsReady (s.cluster (l.taskCluster lin cores)).tags l lin

/-- A cluster of the cores takes no tile task in this control interval (R41). -/
def tasksBarred (s : State) (l : Launch) (cores : List Nat) : Bool := l.task && cores.any fun c => (s.cluster (clusterOf c)).noTask

/-- The next block of a class-0 launch takes a position, with its charges. It is admitted at once, but a tile task whose
predecessor tags are missing, or whose cluster takes no task in this interval, waits in place, with its entry in the pending-task
table (R41, R104, R105, R117; log 132). -/
def standBlock (s : State) (lid : Nat) (p : List Nat) (args : List Word) : State :=
  let l := s.l lid
  let s1 := placeBlock s lid l.placed p
  if tagsMissing s l l.placed p || tasksBarred s l p then
    let cl := l.taskCluster l.placed p
    let c := s1.cluster cl
    chargeBlock (s1.setCluster cl { c with tasks := c.tasks ++ [{ lid := lid, lin := l.placed, order := none, held := true }] }) s.nextBlock
  else admitBlock s1 s.nextBlock args

end Sys2Proof.Machine
end

