-- ==== Sys2Proof/Machine/Bound.lean ====
section
/-!
DEFINITION. The refusal tests of a launch and the completion bound of class 0 (R62, R98, R104 to R106).
-/

namespace Sys2Proof.Machine

/-- ceil(t x f) fc of t ns at f MHz. -/
def nsToFc (t mhz : Nat) : Nat := cdiv (t * mhz) 1000

/-- Time in ns from now to the opening of an L slot announced for a frame: it follows the F slot (R45, R46). -/
def untilL (s : State) (frame : Nat) : Nat := (frame + 2 ^ 32 - s.pkg.frame.toNat) % 2 ^ 32 * 3900 + 160 - s.pkg.ns

/-- The maintenance term of R62 for `b` fc at a frequency, with the announced L slots as times and lengths. -/
def maintTerm (b mhz : Nat) (ann : List (Nat × Nat)) : Nat :=
  let nF := b * 100000 / (mhz * 389961) + 1
  let here := ann.filter fun x => decide (x.1 * mhz ≤ b * 1000)
  nF * (nsToFc 160 mhz + 512 + 18) + (nF / 64 + 1) * nsToFc 400 mhz + (nF / 256 + 1) * nsToFc 250 mhz +
    (here.map fun x => nsToFc x.2 mhz).foldl (· + ·) 0 + (nF / 64 + 1) * nsToFc 2000 mhz

/-- The rounds of R106 from a value of B, or none where they do not settle. -/
def settleBound (fixed mhz : Nat) (ann : List (Nat × Nat)) : Nat → Nat → Option Nat
  | 0, _ => none
  | n + 1, b =>
    let bn := fixed + maintTerm b mhz ann + 96 * (b * 1700 / (mhz * 4096) + 1)
    if bn == b then (if b < 2 ^ 48 then some b else none) else settleBound fixed mhz ann n bn

/-- The bound of a class-0 launch on some clusters (R106). -/
def boundOf (s : State) (l : Launch) (cls : List Nat) : Option Nat :=
  let fq2 := (cls.map fun c => fcPerLc2 (s.cluster c).ratio).foldl max 0
  let mhz := minOr 800 (cls.map fun c => fcMHz (s.cluster c).ratio l.floor)
  let g0q := (cls.map fun c => bits (s.cluster c).c0rsv.toNat 12 8).foldl max 0
  let tq := 84 * fq2
  let fixed := (1536 + 16 * l.blocks) + tq + l.qmax * (g0q * tq + 512) + (cdiv l.abytes 32 + 512)
  settleBound fixed mhz (s.pkg.lslots.map fun x => (untilL s x.1, x.2)) 16 fixed

/-- A shader die is in transition: in any state but ONLINE, DARK and FAILED (R105, reason 5). -/
def inTransit (s : State) : Bool :=
  (List.range 8).any fun d => let st := (s.die d).st; !(st == 0 || st == 4 || st == 7)

/-- What placing the blocks of a class-0 launch one by one comes to: the state with every block placed and charged, a
reason of refusal, or nothing where a position named does not qualify though another does (R105, steps 2 and 3). -/
def placeAll (s : State) (lid : Nat) (args : List Word) : List (List Nat) → Nat → Option (Except Nat State)
  | _, 0 => some (.ok s)
  | ps, n + 1 =>
    let l := s.l lid
    match noPosition s l with
    | some r => some (.error r)
    | none =>
      match ps with
      | [] => none
      | p :: rest =>
        if (l.spots l.placed).contains p && (posReason s l p).isNone then
          placeAll (standBlock s lid p args) lid args rest n
        else none

/-- The clusters of some positions. -/
def clustersOf (ps : List (List Nat)) : List Nat := (ps.flatMap fun p => p.map clusterOf).eraseDups

/-- The decision on a class-0 launch for the positions that the distributor chooses: the state with every block placed
and the bound, or the reason of refusal (R105). -/
def decide0 (s : State) (lid : Nat) (args : List Word) (ps : List (List Nat)) : Option (Except Nat (State × Nat)) :=
  let l := s.l lid
  if l.coop && !couldHold s l then some (.error 2)
  else if inTransit s then some (.error 5)
  else match placeAll s lid args ps l.blocks with
  | none => none
  | some (.error r) => some (.error r)
  | some (.ok s1) =>
    match boundOf s l (clustersOf (ps.take l.blocks)) with
    | none => some (.error 4)
    | some b => if l.deadline != 0 && l.deadline < b then some (.error 3) else some (.ok (s1, b))

/-- The first qualifying position for each block in turn. -/
def greedy (s : State) (lid : Nat) : Nat → List (List Nat)
  | 0 => []
  | n + 1 =>
    let l := s.l lid
    match (l.spots l.placed).find? fun p => (posReason s l p).isNone with
    | none => []
    | some p => p :: greedy (standBlock s lid p []) lid n

/-- The refusal of a launch that a draw names: R98 for a COOP launch, R105 for class 0 (R93, R132). -/
def refusedNow (s : State) (l : Launch) : Bool :=
  let lid := s.nextLaunch
  let s1 := s.setLaunch lid l
  if l.cls == 0 then
    match decide0 s1 lid [] (greedy s1 lid l.blocks) with
    | some (.ok _) => false
    | _ => true
  else l.coop && !couldHold s l

end Sys2Proof.Machine
end

