-- ==== Sys2Proof/Machine/Raster.lean ====
section
/-!
DEFINITION. Triangles and Gaussians of a draw: the draw record, snapping and culling, binning, coverage and
interpolation, colour formats, tile planes, checkpoint records and the splat unit (R131, R136, R137, R143, R147 to R151,
R487, R489, R506).
-/

namespace Sys2Proof.Machine

/-! ### The draw record (R131) -/

/-- Word k of a draw record. -/
def Draw.w (d : Draw) (k : Nat) : Nat := (d.words.getD k 0).toNat

/-- Fields of the draw record. -/
def Draw.pbase (d : Draw) : Nat := d.w 2
def Draw.psize (d : Draw) : Nat := bits (d.w 3) 39 0
def Draw.ckbase (d : Draw) : Nat := d.w 4
def Draw.rtaddr (d : Draw) : Nat := d.w 5
def Draw.zaddr (d : Draw) : Nat := d.w 6
def Draw.attr (d : Draw) : Nat := bits (d.w 7) 47 44
def Draw.cull (d : Draw) : Nat := bits (d.w 7) 43 42
def Draw.spl (d : Draw) : Bool := tb (d.w 7) 41
def Draw.zfmt (d : Draw) : Bool := tb (d.w 7) 40
def Draw.cfmt (d : Draw) : Nat := bits (d.w 7) 35 32
def Draw.height (d : Draw) : Nat := bits (d.w 7) 31 16
def Draw.width (d : Draw) : Nat := bits (d.w 7) 15 0
def Draw.opth (d : Draw) : Nat := bits (d.w 8) 31 0
def Draw.done (d : Draw) : Nat := d.w 9
def Draw.emitb (d : Draw) : Nat := bits (d.w 10) 31 0
def Draw.ntx (d : Draw) : Nat := cdiv d.width 64
def Draw.nty (d : Draw) : Nat := cdiv d.height 64

/-- Tiles of a draw (R137). -/
def Draw.ntiles (d : Draw) : Nat := d.ntx * d.nty

/-- Bytes of a pixel of a colour format. -/
def colourBytes (cfmt : Nat) : Nat :=
  match cfmt with
  | 0 => 16
  | 1 => 8
  | _ => 4

/-- K: bytes of a checkpoint record (R143). -/
def Draw.recordBytes (d : Draw) : Nat := 64 + 4096 * (colourBytes d.cfmt + if d.zfmt then 4 else 0)

/-- U: data units of the parameter region (R138). -/
def Draw.units (d : Draw) : Nat := (d.psize - cdiv (16 * d.ntiles) 64 * 64) / 64

/-- Units of a triangle record (R139). -/
def Draw.triUnits (d : Draw) : Nat := 1 + cdiv (12 * d.attr) 64

/-! ### Triangles (R136, R137, R147, R487) -/

/-- A snapped triangle: positions in 24.8 fixed point, depths and 1/w as values, and attributes by vertex. -/
structure Tri where
  x : List Int
  y : List Int
  z : List XV
  q : List XV
  a : List (List XV)
deriving DecidableEq, Repr

/-- A coordinate snapped to rne(x 2^8). -/
def snapXY (c : Nat) : Int :=
  match f32 c with
  | .num s n d => rneDiv (if s then -(256 * n : Int) else 256 * n) d
  | _ => 0

/-- A screen coordinate is finite and in [-32768, 32768). -/
def onScreen (c : Nat) : Bool :=
  match f32 c with
  | .num s n d => if s then n ≤ 32768 * d else n < 32768 * d
  | _ => false

/-- A value is finite. -/
def XV.isFinite : XV → Bool
  | .num _ _ _ => true
  | _ => false

/-- Element k of a list of integers. -/
def int3 (l : List Int) (k : Nat) : Int := l.getD k 0

/-- The triangle of the words of EMIT: three vertices of x, y, z and 1/w, then ATTR attributes of each. -/
def triOf (attr : Nat) (w : List Nat) : Tri :=
  { x := (List.range 3).map fun m => snapXY (w.getD (4 * m) 0)
    y := (List.range 3).map fun m => snapXY (w.getD (4 * m + 1) 0)
    z := (List.range 3).map fun m => f32 (w.getD (4 * m + 2) 0)
    q := (List.range 3).map fun m => f32 (w.getD (4 * m + 3) 0)
    a := (List.range 3).map fun m => (List.range attr).map fun a => f32 (w.getD (12 + attr * m + a) 0) }

/-- Twice the signed area; above 0 it is clockwise with y growing downward (R136). -/
def Tri.area (t : Tri) : Int :=
  (int3 t.x 1 - int3 t.x 0) * (int3 t.y 2 - int3 t.y 0) - (int3 t.y 1 - int3 t.y 0) * (int3 t.x 2 - int3 t.x 0)

/-- The triangle of some words is culled (R136). -/
def triCulled (d : Draw) (w : List Nat) : Bool :=
  let t := triOf d.attr w
  !((List.range 3).all fun m => onScreen (w.getD (4 * m) 0) && onScreen (w.getD (4 * m + 1) 0)) ||
    !(t.z.all XV.isFinite) || !(t.q.all XV.isFinite) || (t.q.any fun q => q.isNeg || q.isZero) ||
    t.area == 0 || (d.cull == 1 && 0 < t.area) || (d.cull == 2 && t.area < 0)

/-- An edge function: a point of the edge, its gradient with the interior on the positive side, and whether it is a top
or left edge. -/
structure Edge where
  x : Int
  y : Int
  gx : Int
  gy : Int
  topLeft : Bool
deriving DecidableEq, Repr

/-- The value of an edge function at a point. -/
def Edge.at (e : Edge) (px py : Int) : Int := e.gx * (px - e.x) + e.gy * (py - e.y)

/-- The edge opposite vertex i of three points of a signed area. -/
def edgeOf (x y : List Int) (area : Int) (i : Nat) : Edge :=
  let a := (i + 1) % 3
  let b := (i + 2) % 3
  let s : Int := if 0 < area then 1 else -1
  let gx := -s * (int3 y b - int3 y a)
  let gy := s * (int3 x b - int3 x a)
  { x := int3 x a, y := int3 y a, gx := gx, gy := gy, topLeft := decide (0 < gx) || (gx == 0 && decide (0 < gy)) }

/-- The three edges of a triangle. -/
def Tri.edges (t : Tri) : List Edge := (List.range 3).map (edgeOf t.x t.y t.area)

/-- Least and largest of three. -/
def least3 (l : List Int) : Int := min (int3 l 0) (min (int3 l 1) (int3 l 2))
def most3 (l : List Int) : Int := max (int3 l 0) (max (int3 l 1) (int3 l 2))

/-- Side of a tile in 24.8 fixed point. -/
def tileSide : Int := 16384

/-- A triangle reaches tile (tx, ty): its bounding box meets it, and each edge function is non-negative at a corner (R137). A box
that only touches a boundary meets the tile on its right or below, not the other: R137 does not say (DESIGN CHOICE, log 138). -/
def Tri.reaches (t : Tri) (tx ty : Nat) : Bool :=
  let x0 : Int := tileSide * tx
  let y0 : Int := tileSide * ty
  decide (least3 t.x < x0 + tileSide) && decide (x0 ≤ most3 t.x) && decide (least3 t.y < y0 + tileSide) &&
    decide (y0 ≤ most3 t.y) &&
    t.edges.all fun e => [(x0, y0), (x0 + tileSide, y0), (x0, y0 + tileSide), (x0 + tileSide, y0 + tileSide)].any fun p =>
      decide (0 ≤ e.at p.1 p.2)

/-- The tiles of a draw that satisfy a test. -/
def Draw.tilesWhere (d : Draw) (f : Nat → Nat → Bool) : List Nat :=
  (List.range d.ntiles).filter fun k => f (k % d.ntx) (k / d.ntx)

/-- The weights of a covered pixel: the edge functions at its centre, or none where it is not covered (R147). -/
def Tri.cover (t : Tri) (px py : Nat) : Option (List Int) :=
  let w := t.edges.map fun e => (e.at (256 * px + 128) (256 * py + 128), e.topLeft)
  if w.all fun x => decide (0 < x.1) || (x.1 == 0 && x.2) then some (w.map (·.1)) else none

/-- A weighted sum. -/
def weightedSum (l : List (Int × XV)) : XV := xSum 0 (l.map fun x => (xInt x.1).mul x.2)

/-- The depth of a covered pixel (R147). -/
def Tri.depthAt (t : Tri) (w : List Int) : Nat :=
  (rne32 ((weightedSum (w.zip t.z)).div (xInt (w.foldl (· + ·) 0)))).1

/-- Attribute k of a covered pixel (R147). -/
def Tri.attrAt (t : Tri) (w : List Int) (k : Nat) : Nat :=
  let wq := (w.zip t.q).map fun x => (xInt x.1).mul x.2
  let num := xSum 0 ((wq.zip t.a).map fun x => x.1.mul (x.2.getD k .nan))
  (rne32 (num.div (xSum 0 wq))).1

/-- The covered lanes of an 8 x 4 block of a tile with their weights: blocks are numbered row by row, lanes are in
row-major order (R148). -/
def blockLanes (d : Draw) (t : Tri) (tile blk : Nat) : List (Nat × Nat × Nat × List Int) :=
  (List.range 32).filterMap fun lane =>
    let px := 64 * (tile % d.ntx) + 8 * (blk % 8) + lane % 8
    let py := 64 * (tile / d.ntx) + 4 * (blk / 8) + lane / 8
    if px < d.width && py < d.height then (t.cover px py).map fun w => (lane, px, py, w) else none

/-! ### Gaussians (R136, R137) -/

/-- A value is above 0 and at most 1. -/
def unitRange (x : XV) : Bool :=
  match x with
  | .num s n d => !s && 0 < n && n ≤ d
  | _ => false

/-- A Gaussian of these words is culled, whatever SPL says (R136). -/
def gaussCulled (w : List Nat) : Bool :=
  let z := f32 (w.getD 2 0)
  z.isNan || (z.isNeg && !z.isZero) || !unitRange (f32 (w.getD 6 0))

/-- a < b for values; false with a NaN. -/
def XV.lt (a b : XV) : Bool :=
  match a, b with
  | .nan, _ => false
  | _, .nan => false
  | .inf s, .inf s' => s && !s'
  | .inf s, _ => s
  | _, .inf s => !s
  | x, y =>
    let p := x.signedNum
    let q := y.signedNum
    decide (p.1 * q.2 < q.1 * p.2)

/-- a <= b for values; false with a NaN. -/
def XV.le (a b : XV) : Bool := !a.isNan && !b.isNan && !b.lt a

/-- The square of radius RAD about the centre meets pixels [64 t, 64 t + 64) in one axis (log 35). -/
def squareMeets (c r : XV) (t : Nat) : Bool :=
  (XV.num false 0 1).le r && (xSum 0 [c, r.opp]).lt (xInt (64 * t + 64)) && (xInt (64 * t)).le (xSum 0 [c, r])

/-- A Gaussian reaches tile (tx, ty) (R137). -/
def gaussReaches (w : List Nat) (tx ty : Nat) : Bool :=
  let r := f32 (w.getD 10 0)
  squareMeets (f32 (w.getD 0 0)) r tx && squareMeets (f32 (w.getD 1 0)) r ty

/-! ### Colours (R489) -/

/-- Bytes of a channel of a colour format. -/
def channelBytes (cfmt : Nat) : Nat := colourBytes cfmt / 4

/-- A stored channel read as FP32. -/
def readChannel (cfmt c : Nat) : Nat :=
  match cfmt with
  | 0 => c
  | 1 => (rne32 (fmtF16.decode c).1).1
  | _ => (rne32 (.num false c 255)).1

/-- An FP32 channel as it is stored. -/
def writeChannel (cfmt c : Nat) : Nat :=
  match cfmt with
  | 0 => c
  | 1 => (conv fmtF16 0 0 true (f32 c)).1
  | _ =>
    match f32 c with
    | .nan => 0
    | .inf s => if s then 0 else 255
    | .num s n d => if s then 0 else if d ≤ n then 255 else roundInt 0 0 false (255 * n) d

/-- The combination of a source and a stored colour under a mode, as FP32 codes of four channels (R489). -/
def blendColour (mode : Nat) (s d : List Nat) : List Nat :=
  let x (l : List Nat) (k : Nat) : FV := fv (l.getD k 0)
  let om := (fv 0x3F800000).sub (x s 3)
  (List.range 4).map fun k =>
    match mode with
    | 0 => s.getD k 0
    | 1 => if k == 3 then ((x s 3).add ((x d 3).mul om)).1 else (((x s k).mul (x s 3)).add ((x d k).mul om)).1
    | 2 => ((x d k).add (x s k)).1
    | _ => ((x d k).mul (x s k)).1

/-! ### Tile planes (R143, R145) -/

/-- The depth of a cleared pixel. -/
def depthOne : Word := 0x3F800000

/-- The stored channels of a pixel of a tile. -/
def TileRec.colourAt (t : TileRec) (px : Nat) : List Nat := (List.range 4).map fun k => (FMap.get 0 t.colour (4 * px + k)).toNat

/-- The stored depth of a pixel of a tile. -/
def TileRec.depthAt (t : TileRec) (px : Nat) : Nat := (FMap.get 0 t.depth px ^^^ depthOne).toNat

/-- A tile with the channels of a pixel set. -/
def TileRec.setColour (t : TileRec) (px : Nat) (c : List Nat) : TileRec :=
  { t with colour := (c.take 4).zipIdx.foldl (fun m x => FMap.set 0 m (4 * px + x.2) (BitVec.ofNat 32 x.1)) t.colour }

/-- A tile with the depth of a pixel set. -/
def TileRec.setDepth (t : TileRec) (px z : Nat) : TileRec :=
  { t with depth := FMap.set 0 t.depth px (BitVec.ofNat 32 z ^^^ depthOne) }

/-- Tile `k` of a draw. -/
def Draw.tile (d : Draw) (k : Nat) : TileRec := FMap.get TileRec.cleared d.tiles k

/-- A draw with tile `k` set. -/
def Draw.setTile (d : Draw) (k : Nat) (t : TileRec) : Draw := { d with tiles := FMap.set TileRec.cleared d.tiles k t }

/-- The place in a tile of a pixel of the target. -/
def pixelIn (x y : Nat) : Nat := y % 64 * 64 + x % 64

/-- The bytes of a checkpoint record of a tile, with the index of its last triangle (R143, R506). -/
def checkpointBytes (d : Draw) (k seq : Nat) : List Byte :=
  let t := d.tile k
  leBytes 2 (k % d.ntx) ++ leBytes 2 (k / d.ntx) ++ leBytes 4 seq ++ leBytes 8 1 ++ leBytes 48 0 ++
    ((List.range 4096).flatMap fun p => (t.colourAt p).flatMap fun c => leBytes (channelBytes d.cfmt) c) ++
    if d.zfmt then (List.range 4096).flatMap fun p => leBytes 4 (t.depthAt p) else []

/-- A tile with the planes that the bytes of a record hold after its header (R143). -/
def restorePlanes (d : Draw) (t : TileRec) (bs : List Byte) : TileRec :=
  let n := channelBytes d.cfmt
  let c0 := bs.drop 64
  let z0 := bs.drop (64 + 16384 * n)
  let t1 := { t with colour := (List.range 16384).foldl (fun m k =>
      FMap.set 0 m k (BitVec.ofNat 32 (field c0 (n * k) n))) [] }
  if d.zfmt then { t1 with depth := (List.range 4096).foldl (fun m k =>
      FMap.set 0 m k (BitVec.ofNat 32 (field z0 (4 * k) 4) ^^^ depthOne)) [] }
  else t1

/-! ### The splat unit (R150, R151) -/

/-- A Gaussian as the splat unit takes it: centre, depth, conic, opacity and colour, as FP32 codes. -/
abbrev Splat := List Nat

/-- Word k of a Gaussian. -/
def splatW (g : Splat) (k : Nat) : FV := fv (g.getD k 0)

/-- Sorted by the bits of the depth; equal depths keep their order (R150). -/
def sortSplats (l : List Splat) : List Splat := sortBy (fun a b => decide (a.getD 2 0 ≤ b.getD 2 0)) l

/-- The state of a pixel under composition: transmittance, colour, and whether it has stopped. -/
structure Comp where
  t : FV
  c : List FV
  stop : Bool
deriving DecidableEq, Repr

/-- One Gaussian at a pixel (R151). `depth` is the pixel's, where a depth test is made. -/
def compOne (opth : Nat) (fx fy : FV) (depth : Option Nat) (k : Comp) (g : Splat) : Comp :=
  let behind := match depth with
    | some z => (f32 z).lt (f32 (g.getD 2 0))
    | none => false
  if k.stop || behind then k
  else
    let dx := fx.sub (splatW g 0)
    let dy := fy.sub (splatW g 1)
    let q := ((((splatW g 3).mul dx).mul dx).add ((((fv 0x40000000).mul (splatW g 4)).mul dx).mul dy)).add
      (((splatW g 5).mul dy).mul dy)
    let w := (((fv 0xBF000000).mul q).mul (fv 0x3FB8AA3B)).fn sfuEx2
    let al : FV := fv (minMax fmtF32 false 0x3F7D70A4 ((splatW g 6).mul w).1)
    if (f32 al.1).lt (f32 0x3B808081) then k
    else
      let ta := k.t.mul al
      let t1 := k.t.mul ((fv 0x3F800000).sub al)
      { t := t1, c := k.c.zipIdx.map fun c => c.1.add (ta.mul (splatW g (7 + c.2)))
        stop := (f32 t1.1).le (f32 ((fv 0x3F800000).sub (fv opth)).1) }

/-- The composed colour of a pixel over its background, as FP32 codes (R151). `px` and `py` may be negative. -/
def composite (opth : Nat) (px py : Int) (depth : Option Nat) (bg : List Nat) (l : List Splat) : List Nat :=
  let half (v : Int) : FV := fv (rne32 (xSum 0 [xInt v, .num false 1 2])).1
  let k := l.foldl (compOne opth (half px) (half py) depth) { t := fv 0x3F800000, c := [fv 0, fv 0, fv 0], stop := false }
  let b (i : Nat) : FV := fv (bg.getD i 0)
  ((List.range 3).map fun i => ((k.c.getD i (fv 0)).add (k.t.mul (b i))).1) ++
    [(((fv 0x3F800000).sub k.t).add (k.t.mul (b 3))).1]

end Sys2Proof.Machine
end

