-- ==== Sys2Proof/Machine/Draws.lean ====
section
/-!
DEFINITION. Row 0xE of the opcode map without rays: draws, emission, the fragment-wave instructions, checkpoints and
splats (R131 to R135, R148, R485 to R492, R504, R506, R509).
-/

namespace Sys2Proof.Machine

/-- Every role (R485). -/
def anyRole : List Role := [.copy, .matrix, .vector]

/-- The class-8 cause of a detail (R312). -/
def drawCause (k : Nat) : Nat := 8 * 32 + k

/-! ### Starting a draw (R131 to R133, R486) -/

/-- The translations of the pages of [va, fin), each to LPDDR6 or else to memory with write rights, or none where one is
not. The first number bounds the leaves. -/
def leavesIn (s : State) (ctx : Nat) (lp : Bool) : Nat → Nat → Nat → Option (List (Nat × Nat × Nat × Bool))
  | 0, _, _ => none
  | n + 1, va, fin =>
    if fin ≤ va then some []
    else match leafOf s ctx va with
    | none => none
    | some (vpn, l) =>
      let pa := (l.pfn + (va / 4096 - vpn)) * 4096
      if (if lp then isLp pa else l.w && (isHbm pa || isLp pa)) then
        (leavesIn s ctx lp n ((vpn + l.pages) * 4096) fin).map fun x => (vpn, l.pages, l.pfn, l.w) :: x
      else none

/-- The translations of the pages of `n` bytes at an address, as `leavesIn` asks. -/
def rangeLeaves (s : State) (ctx : Nat) (lp : Bool) (va n : Nat) : Option (List (Nat × Nat × Nat × Bool)) :=
  leavesIn s ctx lp (n / 4096 + 3) va (va + n)

/-- The fields of a draw record are in range; reserved bits are ignored (R10, R131, R138). -/
def Draw.fieldsOk (d : Draw) : Bool :=
  d.w 2 % 4096 == 0 && d.psize % 4096 == 0 && within 65536 (2 ^ 36) d.psize && d.w 4 % 4096 == 0 && d.cull != 3 &&
    d.cfmt ≤ 2 && within 1 16384 d.height && within 1 16384 d.width && within 1 0x3F800000 d.opth && d.done % 8 == 0 &&
    d.emitb % 64 == 0 && 4 + cdiv (12 * d.attr) 64 ≤ d.units

/-- The words of a launch record where they can be read. -/
def peekRecord (s : State) (ctx va : Nat) : Option Launch :=
  if va % 64 != 0 then none
  else (vRead s ctx sysRead va 256).map fun bs =>
    { Launch.blank with words := (List.range 32).map fun k => BitVec.ofNat 64 (field bs (8 * k) 8) }

/-- The rules of R131 on the launch records that a draw record names, as far as these can be read. -/
def Draw.recordsOk (s : State) (ctx : Nat) (d : Draw) : Bool :=
  (match peekRecord s ctx (d.w 0) with
    | some l => !l.task && !l.coop && d.emitb ≤ l.tileb
    | none => true) &&
  match peekRecord s ctx (d.w 1) with
    | some l => !l.task && !l.coop && l.coresCode == 0
    | none => true

/-- The translations of a draw's pages, where they are as R132 asks. -/
def Draw.pagesOf (s : State) (ctx : Nat) (d : Draw) : Option (List (Nat × Nat × Nat × Bool)) :=
  match rangeLeaves s ctx true d.pbase d.psize, rangeLeaves s ctx false d.rtaddr (d.width * d.height * colourBytes d.cfmt),
      (if d.zfmt then rangeLeaves s ctx false d.zaddr (4 * d.width * d.height) else some []),
      rangeLeaves s ctx false d.ckbase (d.ntiles * d.recordBytes), rangeLeaves s ctx false d.done 8 with
  | some a, some b, some c, some e, some f => some (a ++ b ++ c ++ e ++ f)
  | _, _, _, _, _ => none

/-- The pages of a draw translate as R132 asks. -/
def Draw.pagesFit (s : State) (ctx : Nat) (d : Draw) : Bool := (d.pagesOf s ctx).isSome

/-- A launch record of a draw, if it passes R93. -/
def drawLaunch (s : State) (l : Launch) (va : Nat) : Option Launch :=
  match fetchLaunch s l.ctx va with
  | .error _ => none
  | .ok x =>
    let y := { x with q := l.q, tag := l.tag, draw := some s.nextDraw }
    if y.cls != l.cls || refusedNow s y then none else some y

/-- A draw before its first primitive. -/
def Draw.fresh (lid bid : Nat) (words : List DWord) (mesh frag : Nat) : Draw :=
  { lid := lid, issuer := bid, words := words, leaves := [], mesh := mesh, frag := frag, count := 0, nextBlock := 0, nextSeq := 0, emitted := [],
    queue := [], stored := [], used := 0, tiles := [], waves := [], flush := false, binned := false, ended := 0, cause := 0,
    core := none }

/-- The draws in flight (R133). -/
def drawsInFlight (s : State) : Nat :=
  (s.draws.filter fun e => match e.2 with
    | some d => d.ended == 0
    | none => false).length

/-- The first page of `n` bytes that a read cannot reach: its cause and address. -/
def readFail (s : State) (ctx : Nat) (user : Bool) (va n : Nat) : Option (Nat × Nat) :=
  firstSome ((pagesOf va n).map fun p =>
    match reach s ctx user false 1 p.1 with
    | .error c => some (c, p.1)
    | .ok _ => none)

/-- Sixteen little-endian words. -/
def wordsOf (n : Nat) (bs : List Byte) : List DWord := (List.range n).map fun k => BitVec.ofNat 64 (field bs (8 * k) 8)

/-- DRAWX: an s pair, and nothing else (R485, R486). -/
def shapeDrawx (f : FmtE) : Shape :=
  { enc := [need 21 (({ s := true } : Acc).takes f.desc), need 21 (!f.ben && f.bar == 0), need 21 (!f.evq),
      unusedSrc 21 f.sa, unusedSrc 21 f.sb, need 21 (f.imm == 0), need 8 (f.fn == 0)]
    srcs := [{ o := f.desc, n := 2, align := false }]
    once := true }

/-- The context of the launch that issued a draw. -/
def drawCtx (s : State) (d : Draw) : Nat := (s.l d.lid).ctx

/-- The physical address of a draw's write, where the page translates as it did when the draw started, with the same write
right, and its memory is there (R132). -/
def drawAddr (s : State) (d : Draw) (va : Nat) : Option Nat :=
  let here (vpn pages : Nat) : Bool := vpn ≤ va / 4096 && va / 4096 < vpn + pages
  match d.leaves.find? (fun x => here x.1 x.2.1), leafOf s (drawCtx s d) va with
  | some x, some (vpn, l) =>
    if x.2.2.1 + (va / 4096 - x.1) == l.pfn + (va / 4096 - vpn) && x.2.2.2 == l.w then vAddr s (drawCtx s d) sysRead va else none
  | _, _ => none

/-- Bytes of a draw at a virtual address, page by page: those to a page whose translation or write right system software has
taken away or changed are lost (R132, log 127). -/
def drawWrite (s : State) (d : Draw) (va : Nat) (bs : List Byte) : State :=
  (pagesOf va bs.length).foldl (fun st p =>
    match drawAddr s d p.1 with
    | none => st
    | some pa => writePhys st pa ((bs.drop (p.1 - va)).take p.2) noBlock 0) s

/-- `n` bytes that the spec gives no value: free values. -/
def freeBytes (s : State) (n : Nat) : List Byte :=
  (List.range (cdiv n 4)).flatMap fun k => leBytes 4 (Config.freeWord (s.free + k)).toNat

/-- The directory entry of a tile written: the manual names what it holds and not where, so its bytes are free values (R138, log
128). -/
def writeEntry (s : State) (d : Draw) (tile : Nat) : State :=
  drawWrite { s with free := s.free + 4 } d (d.pbase + 16 * tile) (freeBytes s 16)

/-- The directory as the draw starts: an entry for each tile, all EMPTY (R138, R145). -/
def writeDirectory (s : State) (d : Draw) : State := (List.range d.ntiles).foldl (fun st i => writeEntry st d i) s

/-- DRAWX: the checks of R132, the directory of the parameter region, and the draw in flight with its two launches (R133, R138,
R486). -/
def execDrawx (h : Hdr) (f : FmtE) (s : State) : Host.Outcome State Fault Refusal :=
  issue h (shapeDrawx f) s fun u s0 =>
    if u.active.isEmpty then .ok { st := s0 }
    else if 16 ≤ drawsInFlight s0 then .error (.wait .draws)
    else ordered s0 u fun s =>
      let g := s.g u.gid
      let lid := (s.b g.bid).lid
      let l := s.l lid
      let va := (rdU64 s u f.desc).toNat
      if va % 64 != 0 then .error (.trap { cause := drawCause 0, faddr := va })
      else match readFail s l.ctx false va 128 with
      | some (c, a) => .error (.trap { cause := c, faddr := a })
      | none => vFree s u.gid false va 128 <|
        let words := wordsOf 16 ((vRead s l.ctx sysRead va 128).getD [])
        let d0 := Draw.fresh lid g.bid words s.nextLaunch (s.nextLaunch + 1)
        let d := { d0 with leaves := (d0.pagesOf s l.ctx).getD [] }
        if !d.fieldsOk || !d.recordsOk s l.ctx || !d.pagesFit s l.ctx then .error (.trap { cause := drawCause 0, faddr := va })
        else match drawLaunch s l (d.w 0), drawLaunch s l (d.w 1) with
        | some m, some r =>
          let s1 := ((writeDirectory s d).setLaunch s.nextLaunch { m with st := .waiting }).setLaunch (s.nextLaunch + 1) { r with st := .running }
          if vHeld s g.core l.ctx sysWrite d.pbase (16 * d.ntiles) then .error (.wait .slot)
          else .ok { st := { s1.setDraw s.nextDraw d with nextDraw := s.nextDraw + 1, nextLaunch := s.nextLaunch + 2 } }
        | _, _ => .error (.trap { cause := drawCause 1, faddr := va })

/-! ### Emission (R134, R135, R487) -/

/-- The draw that a group serves, with its number, and whether it is of its mesh stage. -/
def drawOf (s : State) (gid : Nat) : Option (Nat × Draw × Bool) :=
  let b := s.b (s.g gid).bid
  match b.draw with
  | none => none
  | some k => (s.draw k).map fun d => (k, d, d.mesh == b.lid)

/-- ATTR of the mesh-stage draw of the group that holds the issue slot, or 0. -/
def attrHere (s : State) : Nat :=
  match s.cur with
  | none => 0
  | some (gid, _) =>
    match drawOf s gid with
    | some (_, d, true) => d.attr
    | _ => 0

/-- A window of v registers that FN[7:0] names. -/
def fnWindow (fn : BitVec 30) (n : Nat) : RegUse := { o := .v (fn.toNat % 256), n := n, align := false }

/-- A format A instruction of row 0xE whose fields are unused but for FN: its FN bits, and its windows. -/
def shapeFn (f : FmtA) (mask : Nat) (srcs dsts : List RegUse) : Shape :=
  { enc := [unusedReg 9 f.dst, cwChk false f.cw, unusedSrc 10 f.sa, unusedSrc 11 f.sb, unusedSrc 12 f.sc, fnChk f.fn.toNat mask]
    srcs := srcs
    dsts := dsts }

/-- The bytes of emitted records in the emit buffer, after those that it holds: their form is the device's, so these are free
values, and the records themselves stand in the draw. The buffer of a block is at the top of its allocation on its leader core
(R134, log 71). -/
def fillEmit (s : State) (bid : Nat) (d : Draw) (n : Nat) : State :=
  let b := s.b bid
  let at_ := (s.l b.lid).tileb - d.emitb + b.emitted
  let bytes := (List.range (cdiv n 4)).flatMap fun k => leBytes 4 (Config.freeWord (s.free + k)).toNat
  putTile { s with free := s.free + cdiv n 4 } bid 0 at_ (bytes.take n)

/-- The emission of one record of `size` bytes by each active lane. -/
def emitEff (f : FmtA) (gauss : Bool) (n size : Nat) (u : Ux) (s : State) : Res :=
  if u.active.isEmpty then .ok { st := s }
  else match drawOf s u.gid with
  | some (k, d, true) =>
    let g := s.g u.gid
    let b := s.b g.bid
    let m := u.active.length
    if 2 ^ 32 < d.count + m then trapOf (drawCause 3)
    else if d.emitb < b.emitted + size * m then trapOf (drawCause 2)
    else
      let rec_ (p : Pos) : Nat × Nat × Prim :=
        (g.idx, p.lane, { gauss := gauss, seq := 0, words := (List.range n).map fun i => rd s u (.v (f.fn.toNat % 256 + i)) p })
      let old := FMap.get [] d.emitted b.lin
      let d1 := { d with count := d.count + m, emitted := FMap.set [] d.emitted b.lin (old ++ u.active.map rec_) }
      let s1 := fillEmit (s.setDraw k d1) g.bid d (size * m)
      .ok { st := s1.setBlock g.bid { s1.b g.bid with emitted := b.emitted + size * m } }
  | _ => trapOf (drawCause 13)

/-- EMIT: a window of 12 + 3 ATTR registers. -/
def shapeEmit (f : FmtA) (attr : Nat) : Shape := shapeFn f 0xFF [fnWindow f.fn (12 + 3 * attr)] []

/-- EMIT (R487). -/
def execEmit (h : Hdr) (f : FmtA) (s : State) : Host.Outcome State Fault Refusal :=
  issue h (shapeEmit f (attrHere s)) s fun u s =>
    emitEff f false (12 + 3 * attrHere s) (64 + 16 * cdiv (3 * attrHere s) 4) u s

/-- EMITV: a window of 11 registers. -/
def shapeEmitv (f : FmtA) : Shape := shapeFn f 0xFF [fnWindow f.fn 11] []

/-- EMITV (R487). -/
def execEmitv (h : Hdr) (f : FmtA) (s : State) : Host.Outcome State Fault Refusal :=
  issue h (shapeEmitv f) s fun u s => emitEff f true 11 64 u s

/-! ### Fragment waves (R148, R488 to R491, R504) -/

/-- The wave that a group runs, with its draw and the draw's number. -/
def waveOf (s : State) (gid : Nat) : Option (Nat × Draw × Wave) :=
  match drawOf s gid with
  | some (k, d, false) => (d.waves.find? fun w => w.gid == gid && !w.ended).map fun w => (k, d, w)
  | _ => none

/-- The pixel of a lane of a wave. -/
def Wave.pixel (w : Wave) (lane : Nat) : Nat × Nat :=
  let p := ((w.pixels.find? fun x => x.1 == lane).map (·.2)).getD 0
  (p % 65536, p / 65536)

/-- The waves of a tile that have not ended. -/
def wavesIn (d : Draw) (tile : Nat) : List Wave := d.waves.filter fun w => w.tile == tile && !w.ended

/-- The waves of a tile at work on earlier triangles than the one of a wave. -/
def wavesBefore (d : Draw) (w : Wave) : List Wave := d.waves.filter fun x => x.tile == w.tile && !x.ended && x.seq < w.seq

/-- The words of a stored triangle. -/
def triWords (d : Draw) (seq : Nat) : Option (List Nat) :=
  (d.stored.find? fun p => !p.gauss && p.seq == seq).map fun p => p.words.map BitVec.toNat

/-- The first 8 x 4 block of a tile from `b` on in which a triangle covers a pixel. -/
def firstBlock (d : Draw) (tile seq b : Nat) : Option Nat :=
  match triWords d seq with
  | none => none
  | some w => (List.range 128).find? fun i => b ≤ i && !(blockLanes d (triOf d.attr w) tile i).isEmpty

/-- The next fragment wave of a tile: sequence index and 8 x 4 block. -/
def nextWave (d : Draw) (tile : Nat) : Option (Nat × Nat) :=
  let t := d.tile tile
  firstSome ((t.tris.seqs.filter fun q => t.nextSeq ≤ q).map fun q =>
    (firstBlock d tile q (if q == t.nextSeq then t.nextBlock else 0)).map fun b => (q, b))

/-- A job is a TLCK or TLRST that acts on a tile of a draw. -/
def isTileOp (j : Job) (k tile : Nat) : Bool := (j.op == 0xED || j.op == 0xEE) && j.w 2 == k && j.w 3 == tile

/-- A TLCK or TLRST that acts on a tile is outstanding, issued by a wave of a sequence index below `seq`. -/
def tileOpBefore (s : State) (k tile seq : Nat) : Bool :=
  s.groups.any fun e => match e.2 with
    | none => false
    | some g => g.ops.any fun o => !o.complete && isTileOp o.job k tile && o.job.w 4 < seq

/-- A TLCK or TLRST that acts on a tile is outstanding. -/
def tileOpLive (s : State) (k tile : Nat) : Bool :=
  s.groups.any fun e => match e.2 with
    | none => false
    | some g => g.ops.any fun o => !o.complete && isTileOp o.job k tile

/-- A fault of the group that runs a wave is not resolved (R160). -/
def waveHeld (s : State) (gid : Nat) : Bool := let g := s.g gid; !g.susp.isEmpty || g.held.isSome

/-- A wave's accesses to the planes wait until every wave of an earlier triangle of the tile has ended and no checkpoint operation of
one is outstanding: so the earlier waves that cover its pixels have committed, and a checkpoint or a restore of an earlier wave stands
at its place in the order (R148, R160, R491). -/
def mustWait (s : State) (k : Nat) (d : Draw) (w : Wave) : Bool :=
  tileOpBefore s k w.tile w.seq || !(wavesBefore d w).isEmpty

/-- The first pixel of a wave, which no other wave of its triangle in the tile has. -/
def Wave.first (w : Wave) : Nat := (w.pixels.headD (0, 0)).2

/-- The checkpoint operations of a wave of a tile that are not complete. -/
def tileOpsOf (s : State) (k : Nat) (w : Wave) : List AsyncOp :=
  (s.g w.gid).ops.filter fun o => !o.complete && isTileOp o.job k w.tile && o.job.w 4 == w.seq && o.job.w 5 == w.first

/-- The place of a checkpoint operation in the order of its tile has come: every wave of a sequence index up to its own has ended, but
for its own wave, and for those of its triangle that have such an operation outstanding themselves; none is still to come, and no such
operation of an earlier wave is outstanding (R148, R491; DEDUCED, log 126). -/
def tileTurn (s : State) (j : Job) : Bool :=
  match s.draw (j.w 2) with
  | none => true
  | some d =>
    let seq := j.w 4
    !tileOpBefore s (j.w 2) (j.w 3) seq && !((nextWave d (j.w 3)).any fun x => x.1 ≤ seq) &&
      d.waves.all fun w => w.tile != j.w 3 || w.ended || seq < w.seq ||
        (w.seq == seq && (w.first == j.w 5 || !(tileOpsOf s (j.w 2) w).isEmpty))

/-- The draw with a pixel of a wave's tile changed. -/
def commitPixel (d : Draw) (w : Wave) (lane : Nat) (f : TileRec → Nat → TileRec) : Draw :=
  let xy := w.pixel lane
  d.setTile w.tile (f (d.tile w.tile) (pixelIn xy.1 xy.2))

/-- A body that acts in a fragment wave once its turn has come; elsewhere 8.10. -/
def inWave (u : Ux) (s : State) (f : Nat → Draw → Wave → Res) : Res :=
  if u.active.isEmpty then .ok { st := s }
  else match waveOf s u.gid with
  | none => trapOf (drawCause 10)
  | some (k, d, w) => if mustWait s k d w then .error (.wait (.wave u.gid)) else f k d w

/-- The depth test of a code against the stored one (R488). -/
def depthPasses (func a dz : Nat) : Bool :=
  let x := f32 a
  let y := f32 dz
  if func == 7 then true
  else if x.isNan || y.isNan then false
  else (tb func 0 && x.lt y) || (tb func 1 && x.le y && y.le x) || (tb func 2 && y.lt x)

/-- ZTEST: a lane destination or none, and an FP32 source. -/
def shapeZtest (f : FmtA) : Shape :=
  { enc := [dstChk { v := true, t := true, z := true } f.dst, srcChk 10 (dataAcc 1 false) false f.sa, unusedSrc 11 f.sb,
      unusedSrc 12 f.sc, fnChk f.fn.toNat 0xF]
    srcs := [useOf f.sa 1]
    dsts := [{ o := f.dst }] }

/-- ZTEST: the test and the write of the depth plane, in sequence order at the pixel (R148, R488, R504). -/
def execZtest (h : Hdr) (f : FmtA) (s : State) : Host.Outcome State Fault Refusal :=
  issue h (shapeZtest f) s fun u s => inWave u s fun k d w =>
    let func := f.fn.toNat % 8
    let stored (p : Pos) : Nat := let xy := w.pixel p.lane; (d.tile w.tile).depthAt (pixelIn xy.1 xy.2)
    let a (p : Pos) : Nat := rdF s u f.sa.reg p
    let pass (p : Pos) : Bool := !d.zfmt || depthPasses func (a p) (stored p)
    let d1 := if d.zfmt && f.fn.getLsbD 3 then
        (u.active.filter pass).foldl (fun x p => commitPixel x w p.lane fun t px => t.setDepth px (a p)) d
      else d
    .ok { st := writeLanes (s.setDraw k d1) u f.dst 32 f.cw fun p => (b2n (pass p), mkFlags false (!pass p) false false) }

/-- BLEND: a window of four registers and a mode. -/
def shapeBlend (f : FmtA) : Shape := shapeFn f 0x3FF [fnWindow f.fn 4] []

/-- BLEND: the stored colour combined with the source's, in sequence order at the pixel (R148, R489). -/
def execBlend (h : Hdr) (f : FmtA) (s : State) : Host.Outcome State Fault Refusal :=
  issue h (shapeBlend f) s fun u s => inWave u s fun k d w =>
    let one (x : Draw) (p : Pos) : Draw := commitPixel x w p.lane fun t px =>
      let src := (List.range 4).map fun i => (rd s u (.v (f.fn.toNat % 256 + i)) p).toNat
      let new := blendColour (bits f.fn.toNat 9 8) src ((t.colourAt px).map (readChannel d.cfmt))
      t.setColour px (new.map (writeChannel d.cfmt))
    .ok { st := s.setDraw k (u.active.foldl one d) }

/-- The stored colour of a pixel as its bytes in the target. -/
def pixelBytes (d : Draw) (t : TileRec) (px : Nat) : List Byte := (t.colourAt px).flatMap fun c => leBytes (channelBytes d.cfmt) c

/-- The stores of a resolved pixel: address and bytes (R490). -/
def resolveStores (d : Draw) (t : TileRec) (x y : Nat) : List (Nat × List Byte) :=
  let px := pixelIn x y
  let o := y * d.width + x
  (d.rtaddr + o * colourBytes d.cfmt, pixelBytes d t px) ::
    if d.zfmt then [(d.zaddr + 4 * o, leBytes 4 (t.depthAt px))] else []

/-- The stores of TRES in ascending lanes, as plain global stores, or the trap of the lowest failing lane. -/
def tresStores (u : Ux) (s : State) : List (Pos × Nat × List Byte) → Except Trap (List (Pos × Site × List Byte))
  | [] => .ok []
  | (p, va, bs) :: rest =>
    match access s p.gid p.lane 1 va bs.length .store with
    | .error (c, fa) => .error (laneTrap c fa p)
    | .ok x =>
      if brkHit (s.g p.gid) .store x bs.length then .error { cause := 0x142, faddr := x.va }
      else match tresStores u s rest with
      | .error t => .error t
      | .ok l => .ok ((p, x, bs) :: l)

/-- TRES: a window of five registers, and W. -/
def shapeTres (f : FmtA) : Shape := shapeFn f 0x1FF [] [fnWindow f.fn 5]

/-- TRES: the stored colour and depth, once every earlier wave at the pixel has committed, and with W the pixel's stores
to the targets; those to an uncached or window page follow the older stores and are performed at once (R288, R291, R490). -/
def execTres (h : Hdr) (f : FmtA) (s : State) : Host.Outcome State Fault Refusal :=
  issue h (shapeTres f) s fun u s => inWave u s fun _ d w =>
    let t := d.tile w.tile
    let at_ (p : Pos) : Nat := let xy := w.pixel p.lane; pixelIn xy.1 xy.2
    let vals (p : Pos) : List Nat :=
      (t.colourAt (at_ p)).map (readChannel d.cfmt) ++ [if d.zfmt then t.depthAt (at_ p) else 0x3F800000]
    let put (st : State) (p : Pos) : State :=
      (vals p).zipIdx.foldl (fun st x => wr st (.v (f.fn.toNat % 256 + x.2)) p (BitVec.ofNat 32 x.1)) st
    let stores := if f.fn.getLsbD 8 then
        u.active.flatMap fun p => let xy := w.pixel p.lane; (resolveStores d t xy.1 xy.2).map fun x => (p, x.1, x.2)
      else []
    match tresStores u s stores with
    | .error tr => .error (.trap tr)
    | .ok l =>
      let entry (x : Pos × Site × List Byte) : StoreEntry := { loc := x.2.1.loc, bytes := x.2.2 }
      if l.any fun x => x.2.1.mt != 0 then
        ordered s u fun s1 =>
          if writesHeld s1 (l.map fun x => (x.1, x.2.1)) then .error (.wait .slot)
          else .ok { st := l.foldl (fun st x => storeNow st x.1.gid x.2.1 (entry x)) (u.active.foldl put s1) }
      else .ok { st := l.foldl (fun st x => pushStore st x.1.gid (entry x)) (u.active.foldl put s) }

/-! ### Checkpoints of a wave's tile (R143, R491, R506) -/

/-- The shape of TLCK and TLRST: an s pair. -/
def shapeTile (f : FmtE) : Shape := shapeEng f anyRole true 0 (f.fn == 0) false 2

/-- The header of a record, or the fault of reading it. -/
def headerOf (s : State) (gid : Nat) (user : Bool) (l : ELoc) : Except Trap (List Byte) :=
  let e : Eng := { st := s, gid := gid, cls := 0, user := user }
  match Eng.readAll 64 e l 64 with
  | .error (k, va) => .error ((e.stop k va).flt.getD { cause := engCause 0 k })
  | .ok bs => .ok bs

/-- TLRST's check of a record that could be read: 8.11 for one that holds no checkpoint, 6.6 for one of another tile, or of no earlier
triangle (R491, R506). -/
def headerBad (d : Draw) (w : Wave) (bs : List Byte) : Option Nat :=
  if field bs 8 8 % 2 == 0 then some (drawCause 11)
  else if field bs 0 2 != w.tile % d.ntx || field bs 2 2 != w.tile / d.ntx || w.seq ≤ field bs 4 4 then some (engCause 0 6)
  else none

/-- The issue of TLRST: the record's header is read after the unit's older accesses; where it cannot be read the operation completes
faulted, without an access (R297, R491). -/
def startTlrst (f : FmtE) (u : Ux) (s : State) (d : Draw) (w : Wave) (job : Job) (l : ELoc) (p : Plan) : Res :=
  ordered s u fun s1 =>
    if memHeld s1 && rangeFar s1 u.gid (false, l, 64) then .error (.wait .slot)
    else match headerOf s1 u.gid job.user l with
    | .error t => (startOp f 0 u s1 job p).map fun e => { e with st := failOp e.st u.gid (s.g u.gid).seq t }
    | .ok bs => match headerBad d w bs with
      | some c => trapOf c
      | none => startOp f 0 u s1 job p

/-- TLCK and TLRST: the checks at issue, and the operation, its descriptor words followed by the draw, the tile, the sequence index
and the wave's first pixel. The operation itself waits for the earlier waves, so that the issuing wave may go on and end (R491,
R502). -/
def tileOp (f : FmtE) (op : Nat) (u : Ux) (s : State) : Res :=
  if u.active.isEmpty then .ok { st := s }
  else match waveOf s u.gid with
  | none => trapOf (engCause 0 6)
  | some (k, d, w) =>
    let j := jobOf s u op 2 f
    match engLoc s u.gid (j.addr 0) with
    | none => trapOf (engCause 0 2)
    | some l =>
      let n := d.recordBytes
      let job := { j with args := j.args ++ [k, w.tile, w.seq, w.first] }
      if op == 0xED then startOp f 0 u s job { writes := [(l, n)], parts := [(none, some l, n)] }
      else
        let p : Plan := { reads := [(l, n)], parts := [(some l, none, n)] }
        match planStop s u.gid 0 p with
        | some c => trapOf c
        | none => startTlrst f u s d w job l p

/-- TLCK. -/
def shapeTlck (f : FmtE) : Shape := shapeTile f

/-- TLCK: a checkpoint record of the wave's tile (R491). -/
def execTlck (h : Hdr) (f : FmtE) (s : State) : Host.Outcome State Fault Refusal :=
  issue h (shapeTlck f) s fun u s => tileOp f 0xED u s

/-- TLRST. -/
def shapeTlrst (f : FmtE) : Shape := shapeTile f

/-- TLRST: the planes of the wave's tile from a record (R491). -/
def execTlrst (h : Hdr) (f : FmtE) (s : State) : Host.Outcome State Fault Refusal :=
  issue h (shapeTlrst f) s fun u s => tileOp f 0xEE u s

/-- TLCK at work: the record of the planes as they stand at its place in the order (R491). -/
def runTlck (e : Eng) (l : ELoc) (j : Job) : Eng :=
  match e.st.draw (j.w 2) with
  | none => e
  | some d =>
    let bs := checkpointBytes d (j.w 3) (j.w 4)
    Eng.writeAll bs.length e l bs

/-- TLRST at work: the planes from the record (R491). -/
def runTlrst (e : Eng) (l : ELoc) (j : Job) : Eng :=
  match e.st.draw (j.w 2) with
  | none => e
  | some d =>
    let n := d.recordBytes
    match Eng.readAll n e l n with
    | .error (c, va) => e.stop c va
    | .ok bs =>
      let t := restorePlanes d (d.tile (j.w 3)) bs
      { e with st := e.st.setDraw (j.w 2) (d.setTile (j.w 3) t), done := n }

/-! ### Splats outside a draw (R492) -/

/-- SPLAT and SPLATC: records and an image in the issuing core's tile memory. -/
def planSplat (s : State) (gid : Nat) (j : Job) : Except Nat Plan :=
  let n := j.w 2
  if n == 0 || 4096 < n || !inTileWindow (j.addr 0) || !inTileWindow (j.addr 3) || !unitRange (f32 (j.w 6)) then
    .error (engCause 0 6)
  else match places s gid 0 (j.addr 0) (j.addr 3) with
  | .error c => .error c
  | .ok (a, b) =>
    let image := (b, 65536)
    .ok { reads := [(a, 48 * n), image], writes := [image]
          parts := [(some a, none, 48 * n), (some b, none, 65536), (none, some b, 65536)] }

/-- The shape of SPLAT and SPLATC: seven descriptor words. -/
def shapeSplats (f : FmtE) : Shape := shapeEng f anyRole true 0 (f.fn == 0) false 7

/-- SPLAT. -/
def shapeSplat (f : FmtE) : Shape := shapeSplats f

/-- SPLAT: the Gaussians in order of depth (R492). -/
def execSplat (h : Hdr) (f : FmtE) (s : State) : Host.Outcome State Fault Refusal :=
  issue h (shapeSplat f) s fun u s => engEff f 0 0xE5 7 planSplat u s

/-- SPLATC. -/
def shapeSplatc (f : FmtE) : Shape := shapeSplats f

/-- SPLATC: the Gaussians in array order (R492). -/
def execSplatc (h : Hdr) (f : FmtE) (s : State) : Host.Outcome State Fault Refusal :=
  issue h (shapeSplatc f) s fun u s => engEff f 0 0xE6 7 planSplat u s

/-- SPLAT and SPLATC at work. -/
def runSplat (e : Eng) (j : Job) (a b : ELoc) : Eng :=
  let n := j.w 2
  match Eng.readAll (48 * n) e a (48 * n), Eng.readAll 65536 e b 65536 with
  | .error (c, va), _ => e.stop c va
  | _, .error (c, va) => e.stop c va
  | .ok rs, .ok img =>
    let gs := ((List.range n).map fun k => (List.range 10).map fun i => field rs (48 * k + 4 * i) 4).filter fun g => !gaussCulled g
    let l := if j.op == 0xE5 then sortSplats gs else gs
    let x0 := sext 16 (j.w 5)
    let y0 := sext 16 (j.w 5 / 65536)
    let out := (List.range 4096).flatMap fun p =>
      let bg := (List.range 4).map fun i => field img (16 * p + 4 * i) 4
      (composite (j.w 6) (x0 + (p % 64 : Nat)) (y0 + (p / 64 : Nat)) none bg l).flatMap (leBytes 4)
    Eng.writeAll 65536 e b out

end Sys2Proof.Machine
end

