-- ==== Sys2Proof/Machine/Rays.lean ====
section
/-!
DEFINITION. Row 0xE of the opcode map, rays: builds, traces, hit programs and child rays (R153 to R159, R190, R493 to
R497, R507).
-/

namespace Sys2Proof.Machine

/-! ### Builds (R153, R154, R493) -/

/-- The die whose build engine serves a block: that of its leader core. -/
def buildDie (s : State) (bid : Nat) : Nat := dieOf ((s.b bid).cores.headD BCore.blank).core

/-- The open build of a handle of a die. -/
def buildOf (s : State) (die handle : Nat) : Option Build :=
  s.builds.find? fun b => b.die == die && b.handle == handle && !b.closing

/-- The build of a handle of a die, open or about to commit. -/
def buildAt (s : State) (die handle : Nat) : Option Build := s.builds.find? fun b => b.die == die && b.handle == handle

/-- `s` with the build of a handle of a die changed. -/
def modBuild (s : State) (die handle : Nat) (f : Build → Build) : State :=
  { s with builds := s.builds.map fun b => if b.die == die && b.handle == handle then f b else b }

/-- The lowest free handle of a die. -/
def freeHandle (s : State) (die : Nat) : Option Nat :=
  (List.range 16).find? fun k => !(s.builds.any fun b => b.die == die && b.handle == k)

/-- Records of a build at most (R154). -/
def buildMax : Nat := 2 ^ 24

/-- BLDF.open: sD takes a handle. -/
def shapeBldfOpen (f : FmtE) : Shape :=
  { roles := anyRole
    enc := [need 21 (({ s := true } : Acc).takes f.desc), need 21 (!f.ben && f.bar == 0), need 21 (!f.evq),
      unusedSrc 21 f.sa, unusedSrc 21 f.sb, need 21 (f.imm == 0), need 8 (f.fn.toNat < 2)]
    dsts := [{ o := f.desc }]
    once := true }

/-- BLDF.open: the lowest free handle of the die, or a wait for one (R154, R493). -/
def execBldfOpen (h : Hdr) (f : FmtE) (s : State) : Host.Outcome State Fault Refusal :=
  issue h (shapeBldfOpen f) s fun u s =>
    if u.active.isEmpty then .ok { st := s }
    else
      let die := buildDie s (s.g u.gid).bid
      match freeHandle s die with
      | none => .error (.wait (.handle die))
      | some k =>
        let s1 := { s with builds := s.builds ++ [{ die := die, handle := k, recs := [], count := 0, closing := false }] }
        .ok { st := wr s1 f.desc ⟨0, u.gid, 0⟩ (BitVec.ofNat 32 k) }

/-- BLDF.add: four descriptor words. -/
def shapeBldfAdd (f : FmtE) : Shape := shapeEng f anyRole true 0 (f.fn.toNat < 2) false 4

/-- BLDF.add: its records in the issuing core's tile window. -/
def planBldf (s : State) (gid : Nat) (j : Job) : Except Nat Plan :=
  let n := j.w 1
  match buildOf s (buildDie s (s.g gid).bid) (j.w 0) with
  | none => .error (drawCause 12)
  | some b =>
    if n == 0 || 65536 < n || !inTileWindow (j.addr 2) then .error (engCause 0 6)
    else if buildMax < b.count + n then .error (drawCause 5)
    else match engLoc s gid (j.addr 2) with
    | none => .error (engCause 0 2)
    | some l => .ok { reads := [(l, 48 * n)], parts := [(some l, none, 48 * n)] }

/-- BLDF.add: the count of the build takes the records in as it issues (R154, R493). -/
def execBldfAdd (h : Hdr) (f : FmtE) (s : State) : Host.Outcome State Fault Refusal :=
  issue h (shapeBldfAdd f) s fun u s =>
    match engEff f 0 0xEB 4 planBldf u s with
    | .error e => .error e
    | .ok e =>
      if u.active.isEmpty then .ok e
      else
        let j := jobOf s u 0xEB 4 f
        .ok { e with st := modBuild e.st (buildDie s (s.g u.gid).bid) (j.w 0) fun b => { b with count := b.count + j.w 1 } }

/-- BLDC: four descriptor words. -/
def shapeBldc (f : FmtE) : Shape := shapeEng f anyRole true 0 (f.fn == 0) false 4

/-- Bytes of a structure of `n` primitives (R493). -/
def structBytes (n : Nat) : Nat := 64 + 128 * n

/-- BLDC: the structure's bytes at a global address. -/
def planBldc (s : State) (gid : Nat) (j : Job) : Except Nat Plan :=
  match buildOf s (buildDie s (s.g gid).bid) (j.w 0) with
  | none => .error (drawCause 12)
  | some b =>
    if !inGlobalWindow (j.addr 1) || j.addr 1 % 256 != 0 || j.w 3 < structBytes b.count then .error (engCause 0 6)
    else match engLoc s gid (j.addr 1) with
    | none => .error (engCause 0 2)
    | some l => .ok { writes := [(l, structBytes b.count)], parts := [(none, some l, structBytes b.count)] }

/-- BLDC: the build closes as it issues (R493). -/
def execBldc (h : Hdr) (f : FmtE) (s : State) : Host.Outcome State Fault Refusal :=
  issue h (shapeBldc f) s fun u s =>
    match engEff f 0 0xEC 4 planBldc u s with
    | .error e => .error e
    | .ok e =>
      if u.active.isEmpty then .ok e
      else
        let j := jobOf s u 0xEC 4 f
        .ok { e with st := modBuild e.st (buildDie s (s.g u.gid).bid) (j.w 0) fun b => { b with closing := true } }

/-- Words of a record, as it stands in tile memory. -/
def recordWords (bs : List Byte) (k : Nat) : List Word :=
  (List.range 12).map fun i => BitVec.ofNat 32 (field bs (48 * k + 4 * i) 4)

/-- BLDF.add at work: the records are appended in order (R153). -/
def runBldf (e : Eng) (j : Job) (l : ELoc) : Eng :=
  match Eng.readAll (48 * j.w 1) e l (48 * j.w 1) with
  | .error (c, va) => e.stop c va
  | .ok bs =>
    let die := buildDie e.st (e.st.g e.gid).bid
    let st := modBuild e.st die (j.w 0) fun b => { b with recs := b.recs ++ (List.range (j.w 1)).map (recordWords bs) }
    { e with st := st, done := 48 * j.w 1 }

/-- Coordinate k, 0 to 2, of the vertices of records. -/
def coordsOf (recs : List (List Word)) (k : Nat) : List Nat :=
  recs.flatMap fun r => (List.range 3).map fun v => (r.getD (3 * v + k) 0).toNat

/-- The least or largest of coordinates, as minimum and maximum operations give it. A structure committed with no primitive has no bound
that R154 gives, and the model writes 0 (R154; DESIGN CHOICE, log 160). -/
def boundOfCoords (greater : Bool) (l : List Nat) : Nat :=
  match l with
  | [] => 0
  | x :: rest => rest.foldl (minMax fmtF32 greater) x

/-- The header of a structure, with STATE (R493). -/
def structHeader (recs : List (List Word)) (st : Nat) : List Byte :=
  leBytes 4 recs.length ++
    ((List.range 3).flatMap fun k => leBytes 4 (boundOfCoords false (coordsOf recs k))) ++
    ((List.range 3).flatMap fun k => leBytes 4 (boundOfCoords true (coordsOf recs k))) ++
    leBytes 4 0 ++ leBytes 8 (structBytes recs.length) ++ leBytes 8 0 ++ leBytes 4 st ++ leBytes 12 0

/-- BLDC at work: STATE 0, the structure, then STATE 1; the handle is free (R154, R493). The bytes beyond the header are
the device's (log 37). -/
def runBldc (e0 : Eng) (j : Job) (l : ELoc) : Eng :=
  let die := buildDie e0.st (e0.st.g e0.gid).bid
  let mine (b : Build) : Bool := b.die == die && b.handle == j.w 0
  let recs := ((e0.st.builds.find? mine).map (·.recs)).getD []
  let e := { e0 with st := { e0.st with builds := e0.st.builds.filter fun b => !mine b } }
  let n := structBytes recs.length
  match l with
  | .tile _ _ _ => e
  | .glob va =>
    match e.reach true va.toNat with
    | .error k => e.stop k va.toNat
    | .ok pa =>
      let e1 := (Eng.write e (l.plus 48) (leBytes 4 0))
      let e2 := { e1 with st := { e1.st with structs := FMap.set [] e1.st.structs pa [] }, done := 0 }
      let body := (List.range (128 * recs.length)).map (Config.structureByte recs)
      let e3 := Eng.writeAll n e2 l (structHeader recs 0 ++ body)
      if e3.flt.isSome then e3
      else
        let e4 := Eng.write e3 (l.plus 48) (leBytes 4 1)
        { e4 with st := { e4.st with structs := FMap.set [] e4.st.structs pa (recs ++ [[]]) }, done := n }

/-- The records of a committed structure, or none (R155). An entry ends with an empty record, so that a structure without
primitives has one. -/
def structAt (s : State) (pa : Nat) : Option (List (List Word)) :=
  match FMap.get [] s.structs pa with
  | [] => none
  | l => some l.dropLast

/-! ### Intersection (R155, R495) -/

/-- The scale of exact coordinates: every finite FP32 value times 2^149 is an integer. -/
def raySc : Nat := 149

/-- An FP32 code as an integer scaled by 2^149, where it is finite. -/
def coord (c : Nat) : Option Int :=
  match f32 c with
  | .num s n d => some (let k : Int := (n * 2 ^ raySc / d : Nat); if s then -k else k)
  | _ => none

/-- A vector of exact coordinates. -/
structure I3 where
  x : Int
  y : Int
  z : Int
deriving DecidableEq, Repr

def I3.sub (a b : I3) : I3 := ⟨a.x - b.x, a.y - b.y, a.z - b.z⟩
def I3.neg (a : I3) : I3 := ⟨-a.x, -a.y, -a.z⟩
def I3.dot (a b : I3) : Int := a.x * b.x + a.y * b.y + a.z * b.z
def I3.cross (a b : I3) : I3 := ⟨a.y * b.z - a.z * b.y, a.z * b.x - a.x * b.z, a.x * b.y - a.y * b.x⟩

/-- The determinant of three columns. -/
def det3 (a b c : I3) : Int := a.dot (b.cross c)

/-- Component k of a vector. -/
def I3.at (a : I3) (k : Nat) : Int :=
  match k with
  | 0 => a.x
  | 1 => a.y
  | _ => a.z

/-- Three codes as a vector, where they are finite. -/
def vec3 (a b c : Nat) : Option I3 :=
  match coord a, coord b, coord c with
  | some x, some y, some z => some ⟨x, y, z⟩
  | _, _, _ => none

/-- The direction fields of a register that holds a direction. -/
def dirFields (d : Word96) : Option I3 :=
  match dvalOf d with
  | .vec x y z _ => some ⟨x, y, z⟩
  | _ => none

/-- tmax: the length of a direction, rounded to FP32 (R494). -/
def tmaxOf (d : Word96) : Nat :=
  match dvalOf d with
  | .vec _ _ _ n => (rne32 (xFix dirBits 1100 (lenFix n))).1
  | _ => 0

/-- The axes of a ray's own projection: kx, ky, kz (R155). -/
def rayAxes (u : I3) : Nat × Nat × Nat :=
  let m (k : Nat) : Nat := (u.at k).natAbs
  let kz := if m 1 ≤ m 0 && m 2 ≤ m 0 then 0 else if m 2 ≤ m 1 then 1 else 2
  let a := (kz + 1) % 3
  let b := (kz + 2) % 3
  if u.at kz < 0 then (b, a, kz) else (a, b, kz)

/-- The projected vertices of a triangle relative to the origin, times the magnitude of the kz field (R155). -/
def projected (u o : I3) (v : List I3) : List Int × List Int :=
  let k := rayAxes u
  let sg : Int := if u.at k.2.2 < 0 then -1 else 1
  let one (p : I3) (ax : Nat) : Int :=
    let a := p.sub o
    sg * (a.at ax * u.at k.2.2 - u.at ax * a.at k.2.2)
  (v.map fun p => one p k.1, v.map fun p => one p k.2.1)

/-- The ray's line goes through the triangle, edges belonging to one side (R147, R155). -/
def insideTri (u o : I3) (v : List I3) : Bool :=
  let p := projected u o v
  let area := (int3 p.1 1 - int3 p.1 0) * (int3 p.2 2 - int3 p.2 0) - (int3 p.2 1 - int3 p.2 0) * (int3 p.1 2 - int3 p.1 0)
  area != 0 && ((List.range 3).map (edgeOf p.1 p.2 area)).all fun e =>
    decide (0 < e.at 0 0) || (e.at 0 0 == 0 && e.topLeft)

/-- A quotient of integers as a value. -/
def ratio (n d : Int) : XV := .num (decide (n ≠ 0) && decide (n < 0) != decide (d < 0)) n.natAbs d.natAbs

/-- The square of t is above that of a code, or at most it: num/den against (m / 2^149)^2. -/
def aboveSq (num den : Nat) (c : Nat) : Bool :=
  match coord c with
  | none => false
  | some m => decide (m.natAbs * m.natAbs * den < num * 2 ^ (2 * raySc))

/-- The candidate of a primitive for a ray, if it is one: its exact t lies in (tmin, tmax] (R155). The record holds the
primitive's words; one with a vertex that is not finite is no candidate. -/
def candidateOf (org : List Nat) (tmin : Nat) (dir : Word96) (k : Nat) (r : List Word) : Option RayHit :=
  let w (i : Nat) : Nat := (r.getD i 0).toNat
  match vec3 (org.getD 0 0) (org.getD 1 0) (org.getD 2 0), dirFields dir, vec3 (w 0) (w 1) (w 2), vec3 (w 3) (w 4) (w 5),
      vec3 (w 6) (w 7) (w 8) with
  | some o, some u, some v0, some v1, some v2 =>
    let e1 := v1.sub v0
    let e2 := v2.sub v0
    let s0 := o.sub v0
    let d := det3 e1 e2 u.neg
    let t := det3 e1 e2 s0
    let num := t.natAbs * t.natAbs * u.dot u |>.toNat
    let den := d.natAbs * d.natAbs * 2 ^ (2 * raySc)
    let tmax := tmaxOf dir
    if d == 0 || t == 0 || decide (t < 0) != decide (d < 0) || !insideTri u o [v0, v1, v2] || !aboveSq num den tmin ||
        ((f32 tmax).isFinite && aboveSq num den tmax) then none
    else
      let n := e1.cross e2
      let up (c : Int) : Int := c * 2 ^ (dirBits - 2 * raySc)
      some { prim := k, t := (rne32 (xSqrt num den)).1
             b1 := (rne32 (ratio (det3 s0 e2 u.neg) d)).1, b2 := (rne32 (ratio (det3 e1 s0 u.neg) d)).1
             user := w 9, dot := (dDot false (dvalOf dir) (dvalOf (renorm ⟨up n.x, up n.y, up n.z⟩).1)).1
             num := num, den := den }
  | _, _, _, _, _ => none

/-- A ray that misses at once (R159). -/
def rayInvalid (org : List Nat) (tmin : Nat) (dir : Word96) : Bool :=
  let t := f32 tmin
  (org.any fun c => !(f32 c).isFinite) || (dirFields dir).isNone || t.isNan || (t.isNeg && !t.isZero) || (f32 (tmaxOf dir)).lt t

/-- The candidates of the ray at hand (R155). -/
def Ray.candidates (s : State) (r : Ray) : List RayHit :=
  if rayInvalid r.org r.tmin r.dir then []
  else (((structAt s r.root).getD []).zipIdx).filterMap fun x => candidateOf r.org r.tmin r.dir x.2 x.1

/-- The hit `a` stands before `b`: a lesser exact t, or the same and a lesser primitive index (R156). -/
def RayHit.before (a b : RayHit) : Bool :=
  a.num * b.den < b.num * a.den || (a.num * b.den == b.num * a.den && a.prim < b.prim)

/-- The better of an accepted candidate and the one before it. -/
def betterHit (old : Option RayHit) (c : RayHit) : Option RayHit :=
  match old with
  | none => some c
  | some b => if c.before b then some c else some b

/-- Candidates that the ray has still to call (R156): those unseen whose t is not above the accepted one's. -/
def Ray.toCall (s : State) (r : Ray) : List RayHit :=
  if r.ended then []
  else (r.candidates s).filter fun c => !r.seen.contains c.prim &&
    match r.best with
    | none => true
    | some b => c.num * b.den ≤ b.num * c.den

/-- The traversal of the ray at hand is over. -/
def Ray.isOver (s : State) (r : Ray) : Bool :=
  r.cand.isNone && (r.table == 0 || (r.toCall s).isEmpty)

/-- The accepted candidate of a ray whose traversal is over; with base 0 every candidate counts (R496). -/
def Ray.result (s : State) (r : Ray) : Option RayHit :=
  if r.table == 0 then (r.candidates s).foldl betterHit none else r.best

/-- The eight words of a hit (R495). -/
def hitWords (c : RayHit) (code last : Nat) : List Nat :=
  let back := (f32 c.dot)
  [c.t, c.prim, c.b1, c.b2, c.user, code + 16 * b2n (!back.isNan && !back.isZero && !back.isNeg), c.dot, last]

/-- The eight words of the primary's record when its traversal is over; the last is filled in at the end (R159, R495). -/
def Ray.record (s : State) (r : Ray) : List Nat :=
  if rayInvalid r.org r.tmin r.dir then [0x7F800000, 0, 0, 0, 0, 3, 0, 0]
  else match r.result s with
  | some c => hitWords c 1 0
  | none => [0x7F800000, 0, 0, 0, 0, 2, 0, 0]

/-! ### TRACE (R158, R494) -/

/-- TRACE: eight destination registers, four of origin, a direction and four of the scalar group. -/
def shapeTrace (f : FmtA) : Shape :=
  { enc := [dstChk { v := true } f.dst, cwChk false f.cw, srcChk 10 { v := true } false f.sa, srcChk 11 { d := true } false f.sb,
      srcChk 12 { s := true } false f.sc, need 8 (f.fn == 0)]
    srcs := [useOf f.sa 4, useOf f.sb 1, useOf f.sc 4]
    dsts := [{ o := f.dst, n := 8 }] }

/-- Bytes at the top of a block's allocation on a core that ray stacks and the emit buffer take (R134, R158). The emit buffer counts
on every core of a mesh block, though its bytes stand on the leader core: R158 does not say (DESIGN CHOICE, log 140). -/
def stackBytes (s : State) (gid : Nat) : Nat :=
  8192 * (s.launchOf (s.g gid).bid).perCore +
    match drawOf s gid with
    | some (_, d, true) => d.emitb
    | _ => 0

/-- The mark of a producer whose values come with the ray's record. -/
def rayJob : Job := { op := 0xE7, user := true, fn := 0, imm := 0, args := [], lanes := [] }

/-- A traced lane: its record's cells go empty, and the ray begins. -/
def startRay (f : FmtA) (root table : Nat) (u : Ux) (s : State) (p : Pos) : State :=
  let cells := (List.range 8).filterMap fun k => cellOf (regPlus f.dst k) p.lane
  let org := (List.range 3).map fun k => (rd s u (regPlus f.sa.reg k) p).toNat
  let tmin := (rd s u (regPlus f.sa.reg 3) p).toNat
  let dir := rdD s f.sb.reg p
  s.modGroup p.gid fun g =>
    let g1 := cells.foldl Group.markEmpty g
    { g1 with
      seq := g.seq + 1
      pend := g.pend ++ [{ n := g.seq, writes := cells.map fun c => (c, 0), job := some rayJob }]
      rays := g.rays ++ [{ n := g.seq, lane := p.lane, root := root, table := table, org := org, tmin := tmin, dir := dir, gen := 0,
                           seen := [], best := none, cand := none, ended := false, primary := [], stack := [], pushed := 0,
                           traced := 0 }] }

/-- TRACE: the table, the header read acquiring, the room for stacks, and one ray for each active lane (R494). -/
def execTrace (h : Hdr) (f : FmtA) (s : State) : Host.Outcome State Fault Refusal :=
  issue h (shapeTrace f) s fun u s0 =>
    if u.active.isEmpty then .ok { st := s0 }
    else ordered s0 u fun s =>
      let g := s.g u.gid
      let l := s.launchOf g.bid
      let sa := (rdU64 s u f.sc.reg).toNat
      let table := (rdU64 s u (regPlus f.sc.reg 2)).toNat
      if table % 64 != 0 then trapOf (drawCause 14)
      else match readFail s l.ctx (!g.sys) sa 64 with
      | some (c, _) => .error (.trap { cause := c, faddr := sa })
      | none => vFree s u.gid false sa 64 <|
        let bs := (vRead s l.ctx sysRead sa 64).getD []
        let root := (vAddr s l.ctx sysRead sa).getD 0
        match structAt s root with
        | none => .error (.trap { cause := drawCause 6, faddr := sa })
        | some recs =>
          if field bs 48 4 != 1 then .error (.trap { cause := drawCause 6, faddr := sa })
          else match readFail s l.ctx (!g.sys) sa (structBytes recs.length) with
          | some (c, _) => .error (.trap { cause := c, faddr := sa })
          | none =>
            if l.tileb < stackBytes s u.gid then trapOf (drawCause 7)
            else .ok { st := u.active.foldl (startRay f root table u) s }

/-! ### Hit programs (R157, R496) -/

/-- The ray of a thread whose candidate a hit program has at hand: the home group, the ray and the candidate. -/
def candRay (s : State) (p : Pos) : Option (Nat × Ray × RayHit) :=
  match (s.g p.gid).hit with
  | none => none
  | some x => match x.lanes[p.lane]? with
    | none => none
    | some (hg, hl) => firstSome ((s.g hg).rays.map fun r =>
        if r.lane == hl then r.cand.map fun c => (hg, r, c) else none)

/-- `s` with the ray of a home group changed. -/
def modRay (s : State) (gid : Nat) (r : Ray) (f : Ray → Ray) : State :=
  s.modGroup gid fun g => { g with rays := g.rays.map fun x => if x.n == r.n then f x else x }

/-- RQRY: eight destination registers. -/
def shapeRqry (f : FmtA) : Shape :=
  { enc := [dstChk { v := true } f.dst, cwChk false f.cw, unusedSrc 10 f.sa, unusedSrc 11 f.sb, unusedSrc 12 f.sc, need 8 (f.fn == 0)]
    dsts := [{ o := f.dst, n := 8 }] }

/-- RQRY: the candidate at hand, or zeros (R495, R496). -/
def execRqry (h : Hdr) (f : FmtA) (s : State) : Host.Outcome State Fault Refusal :=
  issue h (shapeRqry f) s fun u s =>
    let words (p : Pos) : List Nat :=
      match candRay s p with
      | some (_, r, c) => hitWords c 4 r.gen
      | none => List.replicate 8 0
    .ok { st := s, long := u.active.flatMap fun p => wordCells f.dst p (words p) }

/-- HIT: KIND below 3. -/
def shapeHit (f : FmtA) : Shape :=
  { enc := [unusedReg 9 f.dst, cwChk false f.cw, unusedSrc 10 f.sa, unusedSrc 11 f.sb, unusedSrc 12 f.sc, need 8 (f.fn.toNat < 3)] }

/-- The decision of a hit program about its candidate: 0 ignores it, 1 accepts it, 2 accepts it and ends the traversal. -/
def decideHit (kind : Nat) (s : State) (p : Pos) : State :=
  match candRay s p with
  | none => s
  | some (hg, r, c) =>
    modRay s hg r fun x => { x with best := if kind == 0 then x.best else betterHit x.best c, ended := x.ended || kind == 2 }

/-- HIT ends the lanes' hit programs, and the quire (R496). -/
def execHit (h : Hdr) (f : FmtA) (s : State) : Host.Outcome State Fault Refusal :=
  issue h (shapeHit f) s fun u s =>
    if u.active.any fun p => (candRay s p).isNone then trapOf (drawCause 9)
    else .ok { st := u.active.foldl (decideHit f.fn.toNat) s, exits := u.active, ends := true }

/-- SPAWN: an origin of three registers at a multiple of 4, a direction, a user word. -/
def shapeSpawn (f : FmtA) : Shape :=
  { enc := [unusedReg 9 f.dst, cwChk false f.cw, srcChk 10 { v := true } false f.sa, srcChk 11 { d := true } false f.sb,
      srcChk 12 (dataAcc 1 false) false f.sc, need 8 (f.fn == 0)]
    srcs := [{ o := f.sa.reg, n := 3, ep := f.sa.ep, grain := 4 }, useOf f.sb 1, useOf f.sc 1] }

/-- The 32 bytes of the entry that a ray pushes, in the stacks at the top of the tile allocation of its group's core: 8 KiB for each
group there, 256 bytes for each lane. The form of an entry is the device's, so they are free values, and the child stands in the ray
(R158, log 71). -/
def fillStack (s : State) (gid : Nat) (r : Ray) : State :=
  let g := s.g gid
  let l := s.launchOf g.bid
  let at_ := l.tileb - stackBytes s gid + 8192 * (g.idx % l.perCore) + 256 * r.lane + 32 * r.stack.length
  putTile { s with free := s.free + 8 } g.bid g.bcore at_
    ((List.range 8).flatMap fun k => leBytes 4 (Config.freeWord (s.free + k)).toNat)

/-- A child pushed on the stack of the lane's primary (R158, R496). -/
def pushChild (f : FmtA) (u : Ux) (s : State) (p : Pos) : State :=
  match candRay s p with
  | none => s
  | some (hg, r, _) =>
    let c : ChildRay :=
      { org := (List.range 3).map fun k => (rd s u (regPlus f.sa.reg k) p).toNat
        dir := rdD s f.sb.reg p, user := (rd s u f.sc.reg p).toNat, gen := r.gen + 1 }
    modRay (fillStack s hg r) hg r fun x => { x with stack := c :: x.stack, pushed := x.pushed + 1 }

/-- SPAWN: nothing is written where a lane's stack is full (R158, R496). -/
def execSpawn (h : Hdr) (f : FmtA) (s : State) : Host.Outcome State Fault Refusal :=
  issue h (shapeSpawn f) s fun u s =>
    let one (p : Pos) : Option Nat :=
      match candRay s p with
      | none => some 9
      | some (_, r, _) => if 8 ≤ r.pushed then some 8 else none
    match firstSome (u.active.map one) with
    | some k => trapOf (drawCause k)
    | none => .ok { st := u.active.foldl (pushChild f u) s }

/-- Low bits of the register fields of an opcode (R347 to R355). -/
def regFields (op : Nat) : List Nat :=
  let a := [69, 54, 42, 30]
  let i := [69, 54]
  let m := [69, 54, 42]
  let e := [69, 49, 37]
  let x := [50, 38, 26]
  let row := op / 16
  let col := op % 16
  if row == 0 then
    if col == 1 then [69, 59, 49, 39, 29, 19, 9]
    else if col == 3 || col == 5 || col == 6 || col == 15 then [67, 43, 33, 23, 13]
    else if (2 ≤ col && col ≤ 9 && col != 7) || col == 14 then [43, 33, 23, 13]
    else if 11 ≤ col then i else a
  else if row == 2 then (if col < 12 then i else if col < 14 then m else a)
  else if row == 9 || row == 10 then (if op == 0x9F then e else m)
  else if row == 11 then (if col == 0 then m else if (7 ≤ col && col ≤ 10) || col == 12 then a else i)
  else if row == 12 then e
  else if row == 13 then (if col == 10 then e else if col == 14 then i else x)
  else if row == 14 then (if col == 5 || col == 6 || 11 ≤ col then e else a)
  else if row == 15 then i else a

/-- A word with one register field made a reserved code where it names s0 to s159. -/
def hideScalar (w lo : Nat) : Nat :=
  let c := bits w (lo + 9) lo
  if 256 ≤ c && c < 416 then w - c * 2 ^ lo + 448 * 2 ^ lo else w

/-- The word as a hit program has it: scalar registers are reserved codes in every field (R496). -/
def hitWord (w : Word96) : Word96 :=
  let op := w.toNat / 2 ^ 88
  let x := (regFields op).foldl hideScalar w.toNat
  let link := op == 4 || op == 5 || op == 14
  BitVec.ofNat 96 (if link && tb x 8 && !tb x 9 then x + 2 ^ 9 else x)

/-! ### The ray engine's steps (R156 to R158, R494, R507) -/

/-- The ray of a thread that may call a primitive's hit program: the first one that has it to call. -/
def callable (s : State) (gid lane prim : Nat) : Option (Ray × RayHit) :=
  let rays := (s.g gid).rays.filter fun r => r.lane == lane
  if rays.any fun r => r.cand.isSome then none
  else firstSome (rays.map fun r =>
    if r.table == 0 || r.ended then none
    else ((r.candidates s).find? fun c => c.prim == prim && !r.seen.contains prim).map fun c => (r, c))

/-- The PC of the hit program of a candidate (R496). -/
def hitTarget (r : Ray) (c : RayHit) : Nat := (r.table + 64 * (c.user % 256)) % 2 ^ 57

/-- Numbers that rise strictly. -/
def rising : List Nat → Bool
  | a :: b :: rest => decide (a < b) && rising (b :: rest)
  | _ => true

/-- A group whose threads hit dispatch may take: only a debug halt holds its rays. -/
def canLend (s : State) (gid : Nat) : Bool := !(s.g gid).halted

/-- The dispatched group of some threads (R157). -/
def hitGroup (s : State) (lanes : List (Nat × Nat)) (pc : Nat) : Group :=
  let first := s.g ((lanes.map (·.1)).headD 0)
  let homes := (lanes.map (·.1)).eraseDups.map s.g
  let g0 : Group := { Group.blank with
    bid := first.bid, idx := first.idx, bcore := first.bcore, core := first.core, slot := first.slot, quarter := first.quarter
    stage := first.stage, role := first.role, brk := first.brk, step := first.step
    alive := BitVec.ofNat 32 (2 ^ lanes.length - 1), narrows := [Narrow.fresh 255]
    pcs := (List.range lanes.length).foldl (fun m k => FMap.set 0 m k pc) []
    tlin := lanes.zipIdx.foldl (fun m x => FMap.set 0 m x.2 (FMap.get 0 (s.g x.1.1).tlin x.1.2)) []
    fst := homes.foldl (fun a g => a &&& g.fst) first.fst
    ftrap := homes.foldl (fun a g => a ||| g.ftrap) 0 }
  let h := lanes.zipIdx.foldl (fun g x => g.takeLane (s.g x.1.1) x.1.2 x.2) g0
  { h with hit := some { lanes := lanes, v := h.v, c := h.c, d := h.d, vEmpty := h.vEmpty, dEmpty := h.dEmpty, ecc := h.ecc } }

/-- HIT_DISPATCH: a dispatched group for candidates of one target, of threads of one block on one core in ascending home
group and lane; the homes go on beside it (R157, R497, R507). -/
def execHitDispatch (bid core : Nat) (rays : List (Nat × Nat)) (s : State) : Host.Outcome State Fault Refusal := working s <|
  let found := rays.map fun x => (callable s (x.1 / 32) (x.1 % 32) x.2).map fun r => (x.1 / 32, r)
  let homes := (rays.map fun x => x.1 / 32).eraseDups
  let fits := !rays.isEmpty && rays.length ≤ 32 && rising (rays.map (·.1)) && found.all Option.isSome &&
    homes.all fun g => (s.group g).isSome && (s.g g).bid == bid && (s.g g).core == core && canLend s g
  let calls := found.filterMap id
  let targets := (calls.map fun x => hitTarget x.2.1 x.2.2).eraseDups
  match fits, targets with
  | true, [pc] =>
    let hid := gidOf s.nextBlock 0
    let h := hitGroup s (rays.map fun x => (x.1 / 32, x.1 % 32)) pc
    let s1 := calls.foldl (fun st x => modRay st x.1 x.2.1 fun r =>
      { r with cand := some x.2.2, seen := r.seen ++ [x.2.2.prim] }) s
    .next { s1.setGroup hid h with nextBlock := s.nextBlock + 1 }
  | _, _ => .next s

/-- The first ray of a thread that satisfies a test. -/
def rayWhere (s : State) (gid lane : Nat) (f : Ray → Bool) : Option Ray :=
  (s.g gid).rays.find? fun r => r.lane == lane && f r

/-- The primary's record, taken when the first traversal ends. -/
def Ray.keepPrimary (s : State) (r : Ray) : List Nat := if r.primary.isEmpty then r.record s else r.primary

/-- CHILD_RAY_TRACE: the traversal at hand is over, and the last child pushed is traced (R158). -/
def execChildRayTrace (gid lane : Nat) (s : State) : Host.Outcome State Fault Refusal := working s <|
  match rayWhere s gid lane fun r => r.isOver s && !r.stack.isEmpty with
  | none => .next s
  | some r => match r.stack with
    | [] => .next s
    | c :: rest =>
      .next (modRay s gid r fun x =>
        { x with primary := r.keepPrimary s, stack := rest, traced := x.traced + 1, org := c.org, tmin := 0, dir := c.dir
                 gen := c.gen, seen := [], best := none, cand := none, ended := false })

/-- HIT_RECORD_FILL: the primary and every descendant have been traced, and the record's registers fill,
after the accesses of the hit programs (R494, R495, R497). -/
def execHitRecordFill (gid lane : Nat) (s : State) : Host.Outcome State Fault Refusal := working s <|
  match rayWhere s gid lane fun r => r.isOver s && r.stack.isEmpty with
  | none => .next s
  | some r =>
    let words := (r.keepPrimary s).take 7 ++ [r.traced]
    let fill (p : Pending) : Pending :=
      if p.n == r.n then { p with writes := (p.writes.map (·.1)).zip (words.map (BitVec.ofNat 96)), job := none } else p
    let runs := hitGroupsOf s gid
    if runs.any (groupHeld s) then .next s
    else
      let s1 := (runs.foldl drainAll s).modGroup gid fun g =>
        { g with rays := g.rays.filter fun x => x.n != r.n, pend := g.pend.map fill }
      .next (landWrite s1 gid r.n)

end Sys2Proof.Machine
end

