-- ==== Sys2Proof/Machine/Async.lean ====
section
/-!
DEFINITION. The completion of async operations, the writes of long-latency producers, and the arrival of operand-link
beats (R24, R26, R200, R295, R298, R300, R304, R469).
-/

namespace Sys2Proof.Machine

/-! ### The order of a matrix array (R469) -/

/-- An entry of an array's order is still to be performed. -/
def arrayLive (s : State) (x : Nat × Nat) : Bool :=
  let g := s.g x.1
  (g.ops.any fun o => o.n == x.2 && !o.complete) || (g.pend.any fun p => p.n == x.2)

/-- An operation that waits in the order of an array is the oldest there. -/
def headOf (s : State) (core gid n : Nat) : Bool :=
  let l := (s.core core).array.filter (arrayLive s)
  !l.contains (gid, n) || l.head? == some (gid, n)

/-- The operation may run: it is the oldest in the order of the core's array, and of the follower's for a pair. -/
def arrayTurn (s : State) (gid n op : Nat) : Bool :=
  let core := (s.g gid).core
  headOf s core gid n && (!(op == 0xD1 || op == 0xD3) || headOf s (core + 1) gid n)

/-- An operation leaves the order of the arrays of its core pair. -/
def leaveArrays (s : State) (gid n : Nat) : State :=
  let core := (s.g gid).core
  let drop (st : State) (c : Nat) : State :=
    if ((st.core c).array).contains (gid, n) then st.setCore c { st.core c with array := (st.core c).array.filter (· != (gid, n)) }
    else st
  drop (drop s core) (core + 1)

/-! ### What a drain window or a slot holds (R50, R52, R53) -/

/-- The link that brings beats to a cluster from a side crosses the edge between two dies (R25). -/
def edgeLink (cl dir : Nat) : Bool :=
  match neighbour cl dir with
  | some nb => dieOfCluster nb != dieOfCluster cl
  | none => false

/-- A block holds cores of two dies. -/
def straddles (s : State) (bid : Nat) : Bool := (s.b bid).cores.any fun k => dieOf k.core != leaderDie s bid

/-- A group of the cluster that faces a cluster on a side has an NSEND toward it that is not complete. -/
def facingSends (s : State) (cl dir : Nat) : Bool :=
  match neighbour cl dir with
  | none => false
  | some nb => s.groups.any fun e => match e.2 with
    | none => false
    | some g => clusterOf g.core == nb && g.ops.any fun o => !o.complete && o.job.op == 0xCA && o.job.imm % 4 == opposite dir

/-- An NRECV has no beat to take, and those that are to come cross a die edge (R26, R50). -/
def beatsFar (s : State) (gid : Nat) (j : Job) : Bool :=
  let cl := clusterOf (s.g gid).core
  let dir := j.imm % 4
  edgeLink cl dir && (FMap.get [] (s.cluster cl).recv dir).isEmpty &&
    (!(FMap.get [] (s.cluster cl).flight dir).isEmpty || facingSends s cl dir)

/-- A CINV has a line to write back to memory, or a copy on another die to end (R468). -/
def dropsFar (s : State) (gid : Nat) (j : Job) : Bool :=
  let die := dieOf (s.g gid).core
  (pagesOf (j.addr 0) (j.w 2)).any fun p => match vAddr s (s.launchOf (s.g gid).bid).ctx sysRead p.1 with
    | none => true
    | some pa => s.dir.any fun e => decide (pa / 128 ≤ e.1) && decide (e.1 ≤ (pa + p.2 - 1) / 128) &&
        (decide (2 ≤ e.2.st) || !(othersOf e.2 die).isEmpty)

/-- The ranges that an operation reads and writes in one, beside those of the operations that go on part by part. -/
def opRanges (s : State) (gid : Nat) (j : Job) : List (Bool × ELoc × Nat) :=
  let at_ (write : Bool) (ea n : Nat) : List (Bool × ELoc × Nat) := ((engLoc s gid ea).toList).map fun l => (write, l, n)
  let dense := j.w 4 * 2 ^ (j.fn % 4)
  match j.op with
  | 0xC5 => at_ false (j.addr 0) dense ++ at_ true (j.addr 2) (j.w 5)
  | 0xC6 => at_ false (j.addr 0) (j.w 5) ++ at_ true (j.addr 2) dense
  | 0xC9 => at_ (j.fn % 2 == 1) (j.addr 4) (j.w 6)
  | 0xCD => at_ true (j.addr 0) (j.w 2)
  | 0xD8 => ((netRec (leBytes 64 (j.x 2))).ranges (slotAt s gid (j.w 2)).F).map fun x => (false, .glob x.1, x.2)
  | 0xD9 => ((netRec (leBytes 64 (j.x 2))).ranges (slotAt s gid (j.w 2)).F).map fun x => (false, .glob x.1, x.2)
  | 0xE5 => at_ false (j.addr 0) (48 * j.w 2) ++ at_ true (j.addr 3) 65536
  | 0xE6 => at_ false (j.addr 0) (48 * j.w 2) ++ at_ true (j.addr 3) 65536
  | 0xEB => at_ false (j.addr 2) (48 * j.w 1)
  | 0xEC => at_ true (j.addr 1) (structBytes (((buildAt s (buildDie s (s.g gid).bid) (j.w 0)).map (·.recs.length)).getD 0))
  | 0xED => at_ true (j.addr 0) (((s.draw (j.w 2)).map (·.recordBytes)).getD 0)
  | 0xEE => at_ false (j.addr 0) (((s.draw (j.w 2)).map (·.recordBytes)).getD 0)
  | _ => []

/-- An operation has a part in DRAM or across a die link that is still to be performed (R52, R53). RDMA always has: its port is on
the FE die (R64). -/
def opFar (s : State) (gid : Nat) (o : AsyncOp) : Bool :=
  let j := o.job
  match j.op with
  | 0xC8 => straddles s (s.g gid).bid
  | 0xC9 => true
  | 0xCA => edgeLink (clusterOf (s.g gid).core) (j.imm % 4)
  | 0xCB => beatsFar s gid j
  | 0xCD => dropsFar s gid j
  | _ =>
    if piecewise j.op then
      (piecesOf s gid j).zipIdx.any fun p => !o.behind.contains p.2 && (pieceRanges s gid j p.1).any (rangeFar s gid)
    else (opRanges s gid j).any (rangeFar s gid)

/-- A drain window or a slot keeps an operation from its part beyond the die: a window from its cluster's countdown on, a slot
while it is open at the device (R50, R52, R53). -/
def opHeld (s : State) (gid : Nat) (o : AsyncOp) : Bool := holdsOps s gid && opFar s gid o

/-- An operation that is performed as one waits: a window or a slot holds it, or another transaction a line that it writes (R53,
R307). -/
def opWaits (s : State) (gid : Nat) (o : AsyncOp) : Bool :=
  !piecewise o.job.op && (opHeld s gid o || (opRanges s gid o.job).any (rangeBusy s gid))

/-! ### Completion (R295, R298) -/

/-- An operation is the oldest outstanding one of its class in its group. -/
def oldestOp (g : Group) (o : AsyncOp) : Bool :=
  (g.ops.find? fun x => x.cls == o.cls && !x.complete).map (·.n) == some o.n

/-- A checkpoint operation works once its place in the order of the tile's waves has come (R491). -/
def tileRan (s : State) (gid : Nat) (o : AsyncOp) (work : ELoc → Eng) : Ran :=
  if !tileTurn s o.job then { st := s, ended := false }
  else match engLoc s gid (o.job.addr 0) with
  | some l => (work l).ran
  | none => { st := s }

/-- The work of the operations of row 0xE (R491 to R493). -/
def runRender (s : State) (gid : Nat) (o : AsyncOp) : Ran :=
  let j := o.job
  let e : Eng := { st := s, gid := gid, cls := o.cls, user := j.user }
  match j.op with
  | 0xED => tileRan s gid o fun l => runTlck e l j
  | 0xEE => tileRan s gid o fun l => runTlrst e l j
  | 0xEB => match engLoc s gid (j.addr 2) with
    | some l => (runBldf e j l).ran
    | none => e.ran
  | 0xEC => match engLoc s gid (j.addr 1) with
    | some l => (runBldc e j l).ran
    | none => e.ran
  | _ => match places s gid 0 (j.addr 0) (j.addr 3) with
    | .ok (a, b) => (runSplat e j a b).ran
    | .error _ => e.ran

/-- The work of an operation: none where a fault is already found. -/
def runOp (s : State) (gid : Nat) (o : AsyncOp) : Ran :=
  if o.fault.isSome && o.job.op != collDone then { st := s, flt := o.fault }
  else if o.cls == 2 then runMatrix s gid o
  else if 0xE0 ≤ o.job.op && o.job.op < 0xF0 then runRender s gid o
  else runEngine s gid o

/-- The bytes of an ended operation counted on its barrier object, or the overflow fault of its class (R300, R304). -/
def countLanded (s : State) (gid : Nat) (o : AsyncOp) (r : Ran) : State × Option Trap :=
  match o.bar with
  | none => (s, r.flt)
  | some k =>
    if r.landed == 0 then (s, r.flt)
    else
      let core := (s.g gid).core
      let b := s.bar core k
      if !b.act || b.bexp.toNat < b.bcnt.toNat + r.landed then
        (s, some (r.flt.getD { cause := engCause o.cls 3, info := r.done % 2 ^ 48 }))
      else (s.setBar core k { b with bcnt := b.bcnt + BitVec.ofNat 28 r.landed }.settle, r.flt)

/-- An operation that has ended: its bytes are counted, its FST bits set, its counter slot free, its event entry written. -/
def endOp (s : State) (gid : Nat) (o : AsyncOp) (r : Ran) : State :=
  let c := countLanded s gid o r
  let s1 := c.1.modGroup gid fun g =>
    { g with fst := g.fst ||| BitVec.ofNat 6 r.fst
             ops := g.ops.map fun x => if x.n == o.n then { x with complete := true, fault := c.2 } else x }
  leaveArrays (opEvent s1 gid o (b2n c.2.isSome)) gid o.n

/-- ASYNC_OP_COMPLETE: the oldest outstanding operation of a class of a group does its work and completes, or goes on
where it waits for another party; the parts that a drain window or a slot holds pause (R53, R295, R298, R300). -/
def execAsyncOpComplete (gid n : Nat) (s : State) : Host.Outcome State Fault Refusal := working s <|
  let g := s.g gid
  match g.ops.find? fun o => o.n == n && !o.complete with
  | none => .next s
  | some o =>
    if !oldestOp g o || !arrayTurn s gid n o.job.op || opWaits s gid o then .next s
    else
      let r := runOp s gid o
      .next (if r.ended then endOp r.st gid o r else r.st)

/-! ### Long-latency results (R200, R469) -/

/-- A pending result of the array takes its values when the array reaches it. -/
def formValues (s : State) (gid n : Nat) (j : Job) : State :=
  let r := runMove s gid j
  let s1 := r.1.modGroup gid fun g =>
    { g with pend := g.pend.map fun p => if p.n == n then { p with writes := r.2, job := none } else p }
  s1

/-- LONG_LATENCY_WRITEBACK: a producer's values land and its cells are full; those of an access that a slot holds wait for its
end (R54, R200). -/
def execLongLatencyWriteback (gid n : Nat) (s : State) : Host.Outcome State Fault Refusal := working s <|
  match (s.g gid).pend.find? fun p => p.n == n with
  | none => .next s
  | some p =>
    match p.job with
    | none => .next (if p.far && memHeld s then s else landWrite s gid n)
    | some j =>
      if j.op == rayJob.op || !arrayTurn s gid n j.op then .next s
      else .next (leaveArrays (landWrite (formValues s gid n j) gid n) gid n)

/-! ### Operand links (R24, R26) -/

/-- OPERAND_BEAT_ARRIVE: the oldest beat in flight to a cluster from a side becomes receivable; an edge link is held
during every slot (R24, R26). -/
def execOperandBeatArrive (cl dir : Nat) (s : State) : Host.Outcome State Fault Refusal := working s <|
  let c := s.cluster cl
  if memHeld s && edgeLink cl dir then .next s
  else match FMap.get [] c.flight dir with
  | [] => .next s
  | b :: rest =>
    .next (s.setCluster cl { c with flight := FMap.set [] c.flight dir rest
                                    recv := FMap.set [] c.recv dir (FMap.get [] c.recv dir ++ [b]) })

end Sys2Proof.Machine
end

