-- ==== Sys2Proof/Machine/Record.lean ====
section
/-!
DEFINITION. The group record of R327, which SAVE, REST, CTXSW, pre-emption and the dump share.
-/

namespace Sys2Proof.Machine

/-- GR: bytes of a group record of a launch (R327). -/
def recordSize (l : Launch) : Nat := cdiv (0x980 + 132 * l.vregs + 388 * l.dregs) 64 * 64

/-- What a record says beside the registers. -/
structure RecordHead where
  state : Nat
  mode : Bool
  frame : Option (List Byte)
  park : Bool
  routines : Bool
  safe : Nat
  /-- PC of each lane that holds a thread; the others are written as all ones. -/
  pc : Nat → Nat
  /-- STATE code of each narrow group. -/
  narState : Narrow → Nat
  wdog : Nat
  tscr : Bool
  rvPc : Option Nat
  /-- Every register is written full. -/
  full : Bool
  /-- Registers that are saved: v, s, d, c by number. -/
  vlive : Nat → Bool
  slive : Nat → Bool
  dlive : Nat → Bool
  clive : Nat → Bool

/-- The 10-bit await codes of a list in 16 bytes (R327). -/
def awaitBytes (l : List Opnd) : List Byte :=
  leBytes 16 (((List.range 7).map fun k => codeOf (l.getD k .zr) * 1024 ^ k).foldl (· + ·) 0)

/-- A 32-bit mask of the lanes of a register number that a set does not hold. -/
def fullMask (empties : NSet) (n : Nat) : Nat :=
  maskOf ((List.range 32).filter fun k => !NSet.has empties (32 * n + k))

/-- The bytes of a group record (R327). -/
def recordBytes (l : Launch) (g : Group) (q : Nat) (x : RecordHead) : List Byte :=
  let ids := g.narrows.zipIdx
  let h0 := x.state + b2n x.mode * 8 + b2n x.frame.isSome * 16 + b2n x.park * 32 + b2n x.routines * 64 +
    x.safe * 2 ^ 16 + g.alive.toNat * 2 ^ 32
  let h1 := ((List.range 8).map fun k =>
      ((ids.find? fun e => tb e.1.slices k).map (·.2)).getD 0 * 16 ^ k).foldl (· + ·) 0 +
    (ids.map fun e => x.narState e.1 * 16 ^ e.2).foldl (· + ·) 0 * 2 ^ 32
  let h2 := q + x.wdog * 2 ^ 32
  let h3 := g.fst.toNat + g.ftrap.toNat * 2 ^ 8
  let ones := 2 ^ 64 - 1
  let head := leBytes 8 h0 ++ leBytes 8 h1 ++ leBytes 8 h2 ++ leBytes 8 h3 ++
    leBytes 8 (x.rvPc.getD ones) ++ leBytes 24 0
  let pcs := (List.range 32).flatMap fun k => leBytes 8 (if g.alive.getLsbD k then x.pc k else ones)
  let frame := x.frame.getD (leBytes 1152 0)
  let creg := (List.range 32).flatMap fun k => leBytes 2 (((List.range 4).map fun c =>
    if x.clive c then (g.creg c k).toNat * 16 ^ c else 0).foldl (· + ·) 0)
  let awaits := (List.range 8).flatMap fun k => awaitBytes (((g.narrows[k]?).map (·.await)).getD [])
  let sregs := (List.range 160).flatMap fun n =>
    leBytes 4 (if n < l.sregs && x.slive n then (FMap.get 0 g.s n).toNat else 0)
  let sfull := leBytes 32 (maskOf ((List.range 160).filter fun n =>
    n < l.sregs && x.slive n && (x.full || !NSet.has g.sEmpty n)))
  let tscr := (List.range 8).flatMap fun n => leBytes 8 (if x.tscr then (FMap.get 0 g.tscr n).toNat else 0)
  let gap := leBytes 32 0
  let vregs := (List.range l.vregs).flatMap fun n => (List.range 32).flatMap fun k =>
    leBytes 4 (if x.vlive n then (FMap.get 0 g.v (32 * n + k)).toNat else 0)
  let vfull := (List.range l.vregs).flatMap fun n =>
    leBytes 4 (if x.vlive n then (if x.full then 2 ^ 32 - 1 else fullMask g.vEmpty n) else 0)
  let dregs := (List.range l.dregs).flatMap fun n => (List.range 32).flatMap fun k =>
    leBytes 12 (if x.dlive n then (FMap.get 0x800000 g.d (32 * n + k)).toNat else 0)
  let dfull := (List.range l.dregs).flatMap fun n =>
    leBytes 4 (if x.dlive n then (if x.full then 2 ^ 32 - 1 else fullMask g.dEmpty n) else 0)
  let body := head ++ pcs ++ frame ++ creg ++ awaits ++ sregs ++ sfull ++ tscr ++ gap ++ vregs ++ vfull ++ dregs ++ dfull
  body ++ leBytes (recordSize l - body.length) 0

/-- Where a group record holds a register in a lane, by its error key; a t register only in a valid frame (R314, R327). -/
def recordPlace (l : Launch) (frame : Bool) (key : Nat) : Option Nat :=
  let n := key / 32
  let k := key % 32
  if n < 256 then some (0x980 + 128 * n + 4 * k)
  else if n < 416 then some (0x680 + 4 * (n - 256))
  else if 512 ≤ n && n < 520 then (if frame then some (0x140 + 0x40 + 128 * (n - 512) + 4 * k) else none)
  else if 528 ≤ n && n < 544 then some (0x980 + 132 * l.vregs + 384 * (n - 528) + 12 * k)
  else if 544 ≤ n && n < 548 then some (0x5C0 + 2 * k)
  else none

/-- A d value read back: the combinations that only a restore can form are the invalid code (R213, R397). -/
def restoredD (x : Word96) : Word96 := if dInvalid x then 0x7FFFFF else x

/-- The v, s, d and c registers, FST and FTRAP of a record written to a group, every register full; an error of a temporary
stays, since none is written (R319, R397). -/
def restoreRegs (l : Launch) (g : Group) (bs : List Byte) : Group :=
  let at_ (off n : Nat) : Nat := leVal ((bs.drop off).take n)
  let v := (List.range (32 * l.vregs)).foldl (fun m k => FMap.set 0 m k (BitVec.ofNat 32 (at_ (0x980 + 4 * k) 4))) []
  let s := (List.range l.sregs).foldl (fun m k => FMap.set 0 m k (BitVec.ofNat 32 (at_ (0x680 + 4 * k) 4))) []
  let d0 := 0x980 + 132 * l.vregs
  let d := (List.range (32 * l.dregs)).foldl (fun m k =>
    FMap.set 0x800000 m k (restoredD (BitVec.ofNat 96 (at_ (d0 + 12 * k) 12)))) []
  let c := (List.range 128).foldl (fun m k =>
    FMap.set 0 m k (BitVec.ofNat 4 (at_ (0x5C0 + 2 * (k % 32)) 2 / 16 ^ (k / 32)))) []
  { g with v := v, s := s, d := d, c := c, vEmpty := [], sEmpty := [], dEmpty := []
           ecc := g.ecc.filter fun k => decide (512 ≤ k / 32) && decide (k / 32 < 528)
           fst := BitVec.ofNat 6 (at_ 0x18 1), ftrap := BitVec.ofNat 6 (at_ 0x19 1) }

/-- The narrow groups of a record, each at a quire start under its await list (R327, R398). -/
def recordNarrows (bs : List Byte) : List Narrow :=
  let ids := leVal ((bs.drop 8).take 4)
  (List.range 8).filterMap fun n =>
    let slices := maskOf ((List.range 8).filter fun k => ids / 16 ^ k % 16 == n)
    if slices == 0 then none
    else
      let w := leVal ((bs.drop (0x600 + 16 * n)).take 16)
      some { Narrow.fresh slices with
        st := .await, await := (List.range 7).map fun k => opndOfCode (w / 1024 ^ k % 1024) }

end Sys2Proof.Machine
end

