-- ==== Sys2Proof/Machine/Sha.lean ====
section
/-!
DEFINITION. SHA-256, which the measurement registers and the dump header use (R83, R86).
-/

namespace Sys2Proof.Machine

/-- Initial hash value. -/
def shaStart : List (BitVec 32) :=
  [0x6a09e667, 0xbb67ae85, 0x3c6ef372, 0xa54ff53a, 0x510e527f, 0x9b05688c, 0x1f83d9ab, 0x5be0cd19]

/-- Round constants. -/
def shaKey : List (BitVec 32) :=
  [0x428a2f98, 0x71374491, 0xb5c0fbcf, 0xe9b5dba5, 0x3956c25b, 0x59f111f1, 0x923f82a4, 0xab1c5ed5] ++
  [0xd807aa98, 0x12835b01, 0x243185be, 0x550c7dc3, 0x72be5d74, 0x80deb1fe, 0x9bdc06a7, 0xc19bf174] ++
  [0xe49b69c1, 0xefbe4786, 0x0fc19dc6, 0x240ca1cc, 0x2de92c6f, 0x4a7484aa, 0x5cb0a9dc, 0x76f988da] ++
  [0x983e5152, 0xa831c66d, 0xb00327c8, 0xbf597fc7, 0xc6e00bf3, 0xd5a79147, 0x06ca6351, 0x14292967] ++
  [0x27b70a85, 0x2e1b2138, 0x4d2c6dfc, 0x53380d13, 0x650a7354, 0x766a0abb, 0x81c2c92e, 0x92722c85] ++
  [0xa2bfe8a1, 0xa81a664b, 0xc24b8b70, 0xc76c51a3, 0xd192e819, 0xd6990624, 0xf40e3585, 0x106aa070] ++
  [0x19a4c116, 0x1e376c08, 0x2748774c, 0x34b0bcb5, 0x391c0cb3, 0x4ed8aa4a, 0x5b9cca4f, 0x682e6ff3] ++
  [0x748f82ee, 0x78a5636f, 0x84c87814, 0x8cc70208, 0x90befffa, 0xa4506ceb, 0xbef9a3f7, 0xc67178f2]

/-- Bytes as a big-endian 32-bit word. -/
def beWord (l : List Byte) : BitVec 32 := BitVec.ofNat 32 (leVal l.reverse)

/-- A word as four big-endian bytes. -/
def wordBytes (w : BitVec 32) : List Byte := (leBytes 4 w.toNat).reverse

/-- The padded message. -/
def shaPad (m : List Byte) : List Byte :=
  let zeros := (119 - m.length % 64) % 64
  m ++ (0x80 : Byte) :: List.replicate zeros 0 ++ (leBytes 8 (8 * m.length)).reverse

/-- The message schedule, newest word first: `n` more words. -/
def shaWords : Nat → List (BitVec 32) → List (BitVec 32)
  | 0, w => w
  | n + 1, w =>
    let a := w.getD 14 0
    let b := w.getD 1 0
    let s0 := a.rotateRight 7 ^^^ a.rotateRight 18 ^^^ a >>> 3
    let s1 := b.rotateRight 17 ^^^ b.rotateRight 19 ^^^ b >>> 10
    shaWords n ((w.getD 15 0 + s0 + w.getD 6 0 + s1) :: w)

/-- One round on the working variables a to h. -/
def shaRound (v : List (BitVec 32)) (kw : BitVec 32) : List (BitVec 32) :=
  match v with
  | [a, b, c, d, e, f, g, h] =>
    let s1 := e.rotateRight 6 ^^^ e.rotateRight 11 ^^^ e.rotateRight 25
    let ch := (e &&& f) ^^^ (~~~ e &&& g)
    let t1 := h + s1 + ch + kw
    let s0 := a.rotateRight 2 ^^^ a.rotateRight 13 ^^^ a.rotateRight 22
    let maj := (a &&& b) ^^^ (a &&& c) ^^^ (b &&& c)
    [t1 + s0 + maj, a, b, c, d + t1, e, f, g]
  | _ => v

/-- The hash value after one block of 64 bytes. -/
def shaBlock (h : List (BitVec 32)) (block : List Byte) : List (BitVec 32) :=
  let first := (List.range 16).map fun k => beWord ((block.drop (4 * k)).take 4)
  let w := (shaWords 48 first.reverse).reverse
  let v := (w.zip shaKey).foldl (fun v x => shaRound v (x.1 + x.2)) h
  (h.zip v).map fun x => x.1 + x.2

/-- The 32 bytes of the SHA-256 of a message. -/
def sha256 (m : List Byte) : List Byte :=
  let p := shaPad m
  ((List.range (p.length / 64)).foldl (fun h k => shaBlock h ((p.drop (64 * k)).take 64)) shaStart).flatMap wordBytes

end Sys2Proof.Machine
end

