-- ==== Sys2Proof/Machine/Fetch.lean ====
section
/-!
DEFINITION. Folios: fetching the instruction word of a running unit with its checks (R333 to R337), and the
target mask of a branch (R336).
-/

namespace Sys2Proof.Machine

/-- The 64 bytes of the folio at a physical address. -/
def folioBytes (s : State) (pa : Nat) : List Byte := physBytes s pa 64

/-- The 96 bits of slot k of a folio (R333). -/
def slotWord (bs : List Byte) (k : Nat) : Word96 := BitVec.ofNat 96 (leVal ((bs.drop (12 * k)).take 12))

/-- The folio word (R333). -/
def folioWord (bs : List Byte) : Nat := leVal ((bs.drop 60).take 4)

/-- Reserved bits of the folio word are 0 (R334). -/
def folioWordOk (w : Nat) : Bool := bits w 17 8 == 0 && bits w 1 0 == 0

/-- Every parity bit of the folio is correct (R335). -/
def parityOk (bs : List Byte) : Bool :=
  let w := folioWord bs
  ((List.range 5).all fun k => (popc 96 (slotWord bs k).toNat + b2n (tb w (3 + k))) % 2 == 0) && popc 32 w % 2 == 0

/-- The physical address of the folio of a PC and the MT of its page, or the fetch cause; a poisoned line raises its machine check (R16,
R33, R311). -/
def fetchAddr (s : State) (ctx : Nat) (user : Bool) (pc : Nat) : Except Nat Nat :=
  match translate s ctx { write := false, fetch := true, user := user } (pc / 64 * 64) with
  | .trans => .error 24
  | .perm => .error 25
  | .dark _ => .error 0x163
  | .ok pa mt =>
    if isHole pa then .error 24
    else if mt != 0 || isWindow pa then .error 26
    else if isDark s pa then .error 0x163
    else if isPoisoned s (pa + pc % 64) then .error (lineCheck s pa)
    else .ok pa

/-- A branch may take lanes to this PC: the TGT bit of its slot is set, or its folio cannot be fetched, which
raises its fault there (R336, R375). -/
def targetOk (s : State) (gid pc : Nat) : Bool :=
  let g := s.g gid
  match fetchAddr s (s.launchOf g.bid).ctx (!g.sys) pc with
  | .error _ => true
  | .ok pa => tb (folioWord (folioBytes s pa)) (27 + pc % 8)

/-- A saturating 32-bit counter one further. -/
def satInc (n : Nat) : Nat := if n < 2 ^ 32 - 1 then n + 1 else n

/-- LOGR counter k of a core one further (R402). -/
def countErr (s : State) (core k : Nat) : State :=
  let c := s.core core
  s.setCore core { c with errs := FMap.set 0 c.errs k (satInc (FMap.get 0 c.errs k)) }

/-- What a fetch gives: the word with the JOIN bit of its slot, or a cause. -/
inductive Fetched where
  | word (w : Word96) (join : Bool) (s : State)
  | fault (cause faddr : Nat) (s : State)
deriving DecidableEq, Repr

/-- Fetches the instruction at a PC for a group: translation, the folio word's reserved bits, then parity with one
refetch (R334 to R336). -/
def fetchWord (s : State) (gid pc : Nat) : Fetched :=
  let g := s.g gid
  match fetchAddr s (s.launchOf g.bid).ctx (!g.sys) pc with
  | .error c => .fault c (pc / 64 * 64) s
  | .ok pa =>
    let bs := folioBytes s pa
    let c := s.core g.core
    let s1 := if c.upset then s.setCore g.core { c with upset := false, upsetAgain := false } else s
    let bad := c.upset || !parityOk bs
    let s2 := if bad then countErr s1 g.core 3 else s1
    if !folioWordOk (folioWord bs) then .fault 1 0 s2
    else if (c.upset && c.upsetAgain) || !parityOk bs then .fault 0x162 0 s2
    else .word (slotWord bs (pc % 8)) (tb (folioWord bs) (22 + pc % 8)) s2

/-- The word at a PC without any check, for the END bit of an instruction that SKIP passes over (R316). -/
def peekWord (s : State) (gid pc : Nat) : Word96 :=
  let g := s.g gid
  match fetchAddr s (s.launchOf g.bid).ctx (!g.sys) pc with
  | .error _ => 0
  | .ok pa => slotWord (folioBytes s pa) (pc % 8)

/-- An opcode of format B or C, YIELD or HIT: it ends its quire whatever END holds (R341, R381, R496). -/
def alwaysEnds (op : Nat) : Bool :=
  op == 1 || (2 ≤ op && op ≤ 6) || op == 8 || op == 9 || op == 10 || op == 14 || op == 15 || op == 0xE9

/-- The instruction of a word ends its quire. -/
def wordEnds (w : Word96) : Bool := w.getLsbD 79 || alwaysEnds (w.toNat / 2 ^ 88)

end Sys2Proof.Machine
end

