-- ==== Sys2Proof/Machine/Sched.lean ====
section
/-!
DEFINITION. Quarter arbitration, parking and the watchdog (R124 to R130, R164, R182 to R185, R204, R500).
-/

namespace Sys2Proof.Machine

/-! ### Conditions that waits end on (R126, R164, R204) -/

/-- A cell of a group is full, or belongs to a lane that holds no thread (R204). -/
def cellReady (s : State) (x : Nat × Cell) : Bool :=
  !cellEmpty s x.1 x.2 ||
    match x.2.lane? with
    | some k => !(s.g x.1).alive.getLsbD k
    | none => false

/-- The slices of a narrow group that has arrived at an open rendezvous which every member has reached, where it is the
one that executes (R176). -/
def rendezvousReady (s : State) (gid slices : Nat) : Bool :=
  [(Scope.group, false), (Scope.set, false), (Scope.block, false), (Scope.block, true)].any fun x =>
    match getRv s gid x.1 x.2 with
    | none => false
    | some r =>
      let members := wideMembers s gid x.1 x.2
      let first := members.find? fun m => r.arrived.any fun a => a.1 == m
      r.arrived.contains (gid, slices) && allArrived s (s.g gid).bid r.pc members r.arrived && first == some gid &&
        (r.arrived.find? fun a => a.1 == gid) == some (gid, slices)

/-- The condition of a wait holds (R126). -/
def waitHolds (s : State) (gid slices : Nat) : Wait → Bool
  | .idle => true
  | .rendezvous => rendezvousReady s gid slices
  | .cells l => l.all (cellReady s)
  | .lower l => l.all (cellReady s)
  | .counter g cls n => (s.g g).counter cls ≤ n
  | .opRoom g cls => (s.g g).counter cls < 63
  | .phase core k p => (s.bar core k).phase.toNat != p || !(s.bar core k).act
  | .ringRoom b c st =>
    match s.ring b c st with
    | some r => (r.slot r.pix).st == 0
    | none => true
  | .ringData b c st =>
    match s.ring b c st with
    | some r => (r.slot r.gix).st == 1
    | none => true
  | .producers l => l.all fun g => (s.g g).pend.isEmpty
  | .draws => drawsInFlight s < 16
  | .handle die => (freeHandle s die).isSome
  | .events cl => (s.cluster cl).eq.length < 256
  | .wave g =>
    match waveOf s g with
    | none => true
    | some (k, d, w) => !mustWait s k d w
  | .pairOps b => !pairBusy s b
  | .slot => !memHeld s

/-- The cells of a narrow group's await list, in its lanes that hold a thread (R204, R208). -/
def awaitCells (g : Group) (n : Narrow) : List Cell :=
  n.await.flatMap fun o =>
    match o with
    | .s k => [.s k]
    | _ => (g.lanesIn n.slices).filterMap (cellOf o)

/-- Every register of a narrow group's await list is full in its lanes that hold a thread (R204, R208). -/
def awaitFull (s : State) (gid : Nat) (n : Narrow) : Bool := (awaitCells (s.g gid) n).all fun c => !cellEmpty s gid c

/-! ### Eligibility (R115, R124, R164, R179, R318) -/

/-- Priority class of a group. -/
def classOf (s : State) (g : Group) : Nat := (s.launchOf g.bid).cls

/-- A group is held by nothing outside its quires: its block is admitted and not throttled, its cluster issues, and no
fault, pre-emption or debug halt suspends it. A group with a handler to run waits only for the handlers of lower groups
(R318). -/
def groupFree (s : State) (gid : Nat) (g : Group) : Bool :=
  let b := s.b g.bid
  (b.st == .admitted || b.st == .preempting) && !NSet.has b.throttled (clusterOf g.core) &&
    (s.cluster (clusterOf g.core)).stop == 0 && !g.halted && g.stop.isNone &&
    (g.susp.isEmpty || (g.held.isSome && g.susp.all fun x => gid < x))

/-- A narrow group could issue now. -/
def narrowReady (s : State) (gid : Nat) (g : Group) (n : Narrow) : Bool :=
  !(g.lanesIn n.slices).isEmpty &&
    match n.st with
    | .ready => true
    | .await => awaitFull s gid n
    | .parked => waitHolds s gid n.slices n.why
    | .joinWait => false
    | .exited => false

/-- The safe point at which a narrow group stands, if it does: it begins a quire at a listed PC under its ANY rule (R322). -/
def safeAt (s : State) (g : Group) (n : Narrow) : Option Nat :=
  let l := s.launchOf g.bid
  if n.idx != 0 || n.st == .parked || n.st == .joinWait then none
  else l.safes.findIdx? fun p => p.pc == g.issuePc n && (p.any || n.safe)

/-- A fragment block owns a tile: its tiles are checkpointed before it is saved, and it is not chosen for a higher class (R146). -/
def ownsTile (s : State) (b : Block) : Bool :=
  match b.draw.bind s.draw with
  | none => false
  | some d => d.frag == b.lid && d.tiles.any fun e => b.cores.any fun c => e.2.owner == some c.core

/-- A group of a block under pre-emption stops as soon as it may. One that runs a fragment wave ends it first, and so do the earlier
stages that feed the waves of a tile, which is checkpointed at a wave boundary; a dispatched group ends its hit programs: the record of
the ray fills before its home can stop (R146, R166, R503). -/
def stopping (s : State) (gid : Nat) (g : Group) : Bool :=
  let b := s.b g.bid
  b.st == .preempting && g.hit.isNone && (waveOf s gid).isNone && !((s.l b.lid).nstage != 1 && ownsTile s b)

/-- A narrow group of a block under pre-emption stops where it stands: at a safe point, or in system mode at a quire start,
but not in a SAVE routine nor in the handler of a fault in one, nor at a safe point of a RESTORE routine (R166, R323, R325). -/
def stopsAt (s : State) (gid : Nat) (g : Group) (n : Narrow) : Bool :=
  stopping s gid g &&
    match g.routine with
    | some (true, _) => false
    | r => if g.sys then n.idx == 0 && n.st != .parked else r.isNone && (safeAt s g n).isSome

/-- A group runs a later fragment wave of a tile than one whose fault is not resolved: it waits, unless it is in a handler of its own
(R160). -/
def laterHeld (s : State) (gid : Nat) (g : Group) : Bool :=
  g.held.isNone &&
    match waveOf s gid with
    | none => false
    | some (_, d, w) => ((wavesIn d w.tile).takeWhile fun x => x.gid != gid).any fun x => waveHeld s x.gid

/-- A narrow group is eligible (R124, R160, R323). -/
def eligible (s : State) (gid : Nat) (g : Group) (n : Narrow) : Bool :=
  groupFree s gid g && !laterHeld s gid g && narrowReady s gid g n && !stopsAt s gid g n && !routineEnd g n

/-! ### Re-fusion (R185) -/

/-- The narrow groups of a group that wait at the least PC become one, once every one is in JOINWAIT or EXITED, or has ended a
routine, which R185 does not name (DEDUCED, log 157). The quire that a YIELD owes to a next-lowest PC is still to come (R185, R187). -/
def refuse (g : Group) : Group :=
  let waiting := g.narrows.filter fun n => n.st == .joinWait && !(g.lanesIn n.slices).isEmpty
  let all := g.narrows.all fun n => n.st == .joinWait || (g.lanesIn n.slices).isEmpty || routineEnd g n
  if !all || waiting.isEmpty then g
  else
    let least := minOr 0 (waiting.map g.issuePc)
    let here := waiting.filter fun n => g.issuePc n == least
    let rest := waiting.filter fun n => g.issuePc n != least
    let gone := if rest.isEmpty && !g.narrows.any (routineEnd g) then g.narrows else here
    let slices := maskOf ((List.range 8).filter fun k => gone.any fun n => tb n.slices k)
    let one := { Narrow.fresh slices with
      joined := true, yielded := here.any (·.yielded), last := (here.map (·.last)).foldl max 0 }
    { g with narrows := one :: g.narrows.filter fun n => !(gone.any fun m => m.slices == n.slices) }

/-! ### Arbitration (R124 to R128) -/

/-- The groups of a quarter of a core. -/
def quarterGroups (s : State) (core quarter : Nat) : List (Nat × Group) :=
  s.groups.filterMap fun e => match e.2 with
    | some g => if g.core == core && g.quarter == quarter then some (e.1, g) else none
    | none => none

/-- A narrow group holds its quarter's slot: it is inside a quire and waits for nothing. -/
def holdsSlot (s : State) (x : Nat × Group × Narrow) : Bool :=
  x.2.2.st == .ready && x.2.2.idx != 0 && eligible s x.1 x.2.1 x.2.2

/-- The eligible narrow groups of a quarter. -/
def candidates (s : State) (core quarter : Nat) : List (Nat × Group × Narrow) :=
  (quarterGroups s core quarter).flatMap fun e =>
    (e.2.narrows.filter (eligible s e.1 e.2)).map fun n => (e.1, e.2, n)

/-- The number of the arbitration in which a group last issued. -/
def Group.lastTurn (g : Group) : Nat := (g.narrows.map (·.last)).foldl max 0

/-- `a` is chosen before `b`: class, then the group that issued least recently, then its narrow group that did; among
equals one without YIELD-HINT, then the lower number (R125, R208). -/
def goesFirst (s : State) (a b : Nat × Group × Narrow) : Bool :=
  let key (x : Nat × Group × Narrow) : List Nat :=
    [classOf s x.2.1, x.2.1.lastTurn, x.2.2.last, b2n x.2.2.hint, x.1, x.2.2.slices]
  decide (key a < key b)

/-- The narrow group that wins the slot of a quarter: the one inside its quire, else the arbiter's choice (R125). -/
def winner (s : State) (core quarter : Nat) : Option (Nat × Nat) :=
  let l := candidates s core quarter
  let from_ := match l.filter (holdsSlot s) with
    | [] => l
    | held => held
  match from_ with
  | [] => none
  | x :: rest =>
    let w := rest.foldl (fun a b => if goesFirst s b a then b else a) x
    some (w.1, w.2.2.slices)

/-- The narrow groups of the quarter that can re-fuse do so (R185). -/
def refuseAll (s : State) (core quarter : Nat) : State :=
  (quarterGroups s core quarter).foldl (fun st e =>
    if e.2.narrows.any fun n => n.st == .joinWait then st.modGroup e.1 refuse else st) s

/-- ISSUE_ARBITRATION: the slot of a quarter goes to its winner, whose instructions the next steps are (R125, R185). -/
def execIssueArbitration (core quarter : Nat) (s : State) : Host.Outcome State Fault Refusal := working s <|
  let s1 := refuseAll s core quarter
  match winner s1 core quarter with
  | none => .next s1
  | some (gid, slices) =>
    let t := s1.turns + 1
    let s2 := s1.modGroup gid fun g => g.modNar slices fun n => { n with last := t, st := .ready }
    .next { s2 with turns := t, cur := some (gid, slices) }

/-- LOWER_CLASS_PARK: a group that stalls on an empty source gives its slot up where a group of a higher class could use it;
it is eligible again when the source is full (R126). -/
def execLowerClassPark (gid n : Nat) (s : State) : Host.Outcome State Fault Refusal := working s <|
  let g := s.g gid
  match g.narrow n with
  | none => .next s
  | some x =>
    match x.st, x.why with
    | .parked, .cells l =>
      let higher := (candidates s g.core g.quarter).any fun y => decide (classOf s y.2.1 < classOf s g)
      if higher then .next (s.modGroup gid fun g => g.modNar n fun x => { x with why := .lower l }) else .next s
    | _, _ => .next s

/-! ### The watchdog (R55, R129, R130, R184, R500) -/

/-- A cell that a wait is for: it is full, or a slot holds the access that fills it (R54, R55). -/
def cellHeld (s : State) (x : Nat × Cell) : Bool :=
  cellReady s x || (memHeld s && (s.g x.1).pend.any fun p => p.far && p.writes.any fun w => w.1 == x.2)

/-- A drain window or a slot holds the oldest outstanding operation of a class of a group, which the others complete after
(R53, R295). -/
def classHeld (s : State) (gid cls : Nat) : Bool :=
  match (s.g gid).ops.find? fun o => o.cls == cls && !o.complete with
  | some o => opHeld s gid o
  | none => false

/-- The operations under way on a core that a test takes, with their groups. -/
def opsOn (s : State) (core : Nat) (takes : AsyncOp → Bool) : List (Nat × AsyncOp) :=
  s.groups.flatMap fun e => match e.2 with
    | none => []
    | some g => if g.core == core then (g.ops.filter fun o => !o.complete && takes o).map fun o => (e.1, o) else []

/-- A WAITP waits only for bytes that held operations are to land: every arrival has come (R55, R300). -/
def barHeld (s : State) (core k : Nat) : Bool :=
  let b := s.bar core k
  let l := opsOn s core fun o => o.bar == some k
  b.acnt == b.aexp && !l.isEmpty && l.all fun x => opHeld s x.1 x.2

/-- A narrow group waits, and only on traffic that a drain window or a slot holds (R55). -/
def onHeld (s : State) (gid : Nat) (g : Group) (n : Narrow) : Bool :=
  match n.st with
  | .await => !awaitFull s gid n && (awaitCells g n).all fun c => cellHeld s (gid, c)
  | .parked =>
    !waitHolds s gid n.slices n.why &&
    match n.why with
    | .slot => true
    | .cells l => l.all (cellHeld s)
    | .lower l => l.all (cellHeld s)
    | .counter k cls _ => classHeld s k cls
    | .opRoom k cls => classHeld s k cls
    | .phase core k _ => barHeld s core k
    | .pairOps b => (groupsOf s b).all fun k => (s.g k).ops.all fun o => o.complete || (o.job.op != 0xD1 && o.job.op != 0xD3) || opHeld s k o
    | .producers l => memHeld s && l.all fun k => (s.g k).pend.all (·.far)
    | _ => false
  | _ => false

/-- A group is throttled, in a speed-change stop, stopped or pre-empted: its waits do not count. -/
def groupExempt (s : State) (g : Group) : Bool :=
  (s.cluster (clusterOf g.core)).stop != 0 || NSet.has (s.b g.bid).throttled (clusterOf g.core) || g.stop.isSome ||
    (s.b g.bid).st == .preempted || (s.b g.bid).st == .placed

/-- A narrow group with a thread waits, at no rendezvous, in a way that the watchdog counts. -/
def ownWait (s : State) (gid : Nat) (g : Group) (n : Narrow) : Bool :=
  !(g.lanesIn n.slices).isEmpty && !onHeld s gid g n &&
    match n.st with
    | .await => !awaitFull s gid n
    | .parked => n.why != .rendezvous && !waitHolds s gid n.slices n.why
    | _ => false

/-- The parties that a rendezvous still waits for: the narrow groups with a thread that have not arrived, and those of a
member in a handler (R176, R500). -/
def missingParties (s : State) (pc : Nat) (members : List Nat) (arrived : List (Nat × Nat)) : List (Nat × Narrow) :=
  members.flatMap fun m =>
    let g := s.g m
    (g.narrows.filter fun n => !(g.lanesIn n.slices).isEmpty && !hasArrived s pc arrived m n).map fun n => (m, n)

/-- A wait at an open rendezvous counts: a party that it waits for is held by nothing, or every party has arrived and the
narrow group that executes waits in a counted way (R129, R500). -/
def rendezvousCounts (s : State) (gid slices : Nat) : Bool :=
  [(Scope.group, false), (Scope.set, false), (Scope.block, false), (Scope.block, true)].any fun x =>
    match getRv s gid x.1 x.2 with
    | none => false
    | some r =>
      let members := wideMembers s gid x.1 x.2
      let counts (y : Nat × Narrow) : Bool := !groupExempt s (s.g y.1) && !onHeld s y.1 (s.g y.1) y.2
      r.arrived.contains (gid, slices) &&
        match missingParties s r.pc members r.arrived with
        | [] =>
          match (members.find? fun m => r.arrived.any fun a => a.1 == m).bind fun m => r.arrived.find? fun a => a.1 == m with
          | some a => a != (gid, slices) && !groupExempt s (s.g a.1) && ownWait s a.1 (s.g a.1) ((s.g a.1).nar a.2)
          | none => false
        | l => l.any counts

/-- A narrow group waits in a way that the watchdog counts. -/
def waitCounts (s : State) (gid : Nat) (g : Group) (n : Narrow) : Bool :=
  if n.st == .parked && n.why == .rendezvous then !(g.lanesIn n.slices).isEmpty && rendezvousCounts s gid n.slices
  else ownWait s gid g n

/-- A fc adds to the watchdog count of a group: none of its narrow groups issues, and one waits in a counted way. -/
def watchdogCounts (s : State) (gid : Nat) (g : Group) : Bool :=
  !groupExempt s g && g.susp.isEmpty && !g.halted && (s.cur.map (·.1)) != some gid && g.narrows.any (waitCounts s gid g)

/-- A wait for an empty source, or for room in a queue: an operation counter, or a cluster's event queue (R121, R202, R294). -/
def stallWait : Wait → Bool
  | .cells _ => true
  | .opRoom _ _ => true
  | .events _ => true
  | _ => false

/-- A fc is one in which a group stalls on an empty source or a full queue (R402). -/
def stallCounts (s : State) (gid : Nat) (g : Group) : Bool :=
  g.narrows.any fun n => n.st == .parked && stallWait n.why && !waitHolds s gid n.slices n.why

/-- The header of the instruction at a PC. -/
def hdrAt (s : State) (gid pc : Nat) : Hdr := decodeHdr (peekWord s gid pc)

/-- The narrow group of a group that waits, or its first with a thread. -/
def waitingNarrow (s : State) (gid : Nat) (g : Group) : Option Narrow :=
  match g.narrows.find? fun n => waitCounts s gid g n with
  | some n => some n
  | none => g.narrows.find? fun n => !(g.lanesIn n.slices).isEmpty

/-- WATCHDOG_EXPIRY: the count has reached its limit, and the group takes 9.2 at its next instruction, once nothing holds its frame (R54,
R130). -/
def execWatchdogExpiry (gid : Nat) (s : State) : Host.Outcome State Fault Refusal := working s <|
  let g := s.g gid
  if !watchDue s g || g.stop.isSome || !g.susp.isEmpty || trapHeld s gid then .next s
  else match waitingNarrow s gid g with
  | none => .next s
  | some n =>
    let h := hdrAt s gid (g.issuePc n)
    .next (takeTrap (s.modGroup gid fun g => { g with wdog := 0 }) (soloUnit s h gid n.slices) h false (watchTrap g))

end Sys2Proof.Machine
end

