-- ==== Sys2Proof/Machine/Slots.lean ====
section
/-!
DEFINITION. The maintenance calendar, the slots as the device and the clusters see them, the passing of fc, and the
control intervals of clusters (R38, R44 to R62, R102, R111 to R116).
-/

namespace Sys2Proof.Machine

/-! ### Bounds of class-0 launches (R111) -/

/-- The launches, by number. -/
def launchesOf (s : State) : List (Nat × Launch) := s.launches.filterMap fun e => e.2.map fun l => (e.1, l)

/-- An accepted class-0 launch that is not yet retired. -/
def Launch.accepted (l : Launch) : Bool := l.cls == 0 && l.draw.isNone && (l.st == .running || l.st == .draining)

/-- The bound of a launch is suspended, and the host receives a bound-suspended event: reason, and EVSEQ of the cause. -/
def tellSuspended (s : State) (lid reason : Nat) (cause : Word) : State :=
  let l := s.l lid
  sendModule s 4 (leBytes 4 l.q ++ leBytes 4 l.tag.toNat ++ leBytes 4 reason ++ leBytes 4 cause.toNat)

/-- Suspends the bounds of the accepted class-0 launches that a test takes, once each, with a report. -/
def suspendBounds (s : State) (hit : Nat → Bool) (reason : Nat) : State :=
  let cause := s.host.evseq
  (launchesOf s).foldl (fun st e =>
    if e.2.accepted && !e.2.suspended && hit e.1 then
      tellSuspended (st.setLaunch e.1 { st.l e.1 with suspended := true }) e.1 reason cause
    else st) s

/-! ### The calendar (R44 to R47) -/

/-- The C or S slot that a frame carries after its F slot: kind and length in ns (R45). -/
def fixedSlot (frame : Nat) : Option (Nat × Nat) :=
  if frame % 64 == 32 then some (1, 400) else if frame % 256 == 16 then some (2, 250) else none

/-- The slot that a frame carries after its F slot, announced L slots included. -/
def secondSlot (s : State) (frame : Nat) : Option (Nat × Nat) :=
  match fixedSlot frame with
  | some x => some x
  | none => (s.pkg.lslots.find? fun x => x.1 == frame).map fun x => (3, x.2)

/-- Frames from one to another, modulo 2^32. -/
def framesTo (a b : Nat) : Nat := (b + 2 ^ 32 - a % 2 ^ 32) % 2 ^ 32

/-- Number and kind of the next slot to open at the device. -/
def nextSlot (s : State) : Nat × Nat :=
  ((s.pkg.slotSeq + 1) % 65536, match s.pkg.toOpen with
    | [] => 0
    | x :: _ => x.1)

/-- An L slot is owed to a die that goes DARK, until one is announced, or to a module that went off (R29, R46). -/
def owedL (s : State) : Bool := (s.pkg.darkDue.isSome && s.pkg.lslots.isEmpty) || s.pkg.modDue

/-- The frame of an owed L slot: the first from the 16th on without C, S or L (R46). -/
def owedFrame (s : State) : Nat :=
  let now := s.pkg.frame.toNat
  ((List.range 300).map fun k => (now + 16 + k) % 2 ^ 32).find? (fun f => (secondSlot s f).isNone) |>.getD 0

/-- The frames of L slots, announced or opened, are at least 64 away (R46). -/
def spacedL (s : State) (frame : Nat) : Bool :=
  (s.pkg.lslots.map (·.1) ++ s.pkg.lastL.toList).all fun f =>
    decide (64 ≤ framesTo f frame) && decide (64 ≤ framesTo frame f)

/-- L_SLOT_ANNOUNCE: an L slot is announced at least 16 frames ahead; one that is owed takes the first frame that it can (R45,
R46). -/
def execLSlotAnnounce (frame lenNs : Nat) (s : State) : Host.Outcome State Fault Refusal :=
  let ahead := framesTo s.pkg.frame.toNat frame
  let owed := owedL s
  if 2 ^ 32 ≤ frame || ahead < 16 || 2 ^ 31 ≤ ahead || lenNs == 0 || 2000 < lenNs || (secondSlot s frame).isSome then .next s
  else if if owed then frame == owedFrame s else spacedL s frame then
    .next { s with pkg := { s.pkg with lslots := s.pkg.lslots ++ [(frame, lenNs)], modDue := s.pkg.modDue && !owed } }
  else .next s

/-! ### Die state changes (R27, R35) -/

/-- The running co-operative launches that could lie wholly on the online dies before a change, and cannot after it. -/
def strandedBy (old new : State) : List Launch :=
  ((launchesOf old).map (·.2)).filter fun l => l.coop && l.st == .running && couldHold old l && !couldHold new l

/-- A new DSTAT of a die: its event, with EVSEQ and the queues and tags of the co-operative launches that can no longer be
wholly co-resident, and the suspension of bounds on leaving ONLINE (R34, R35). -/
def setDieState (s : State) (d st reason : Nat) : State :=
  let old := s.die d
  let r := { old with st := st, prev := old.st, reason := reason, evseq := (s.host.evseq.toNat + 1) % 65536 }
  let s0 := s.setDie d r
  let ids := (strandedBy s s0).flatMap fun l => leBytes 4 l.q ++ leBytes 4 l.tag.toNat
  let s1 := sendModule s0 2 (leBytes 8 d ++ leBytes 8 (dstatWord r) ++ ids.take 40)
  if old.st == 0 && st != 0 then suspendBounds s1 (fun _ => true) 2 else s1

/-- A die goes dark: its stack is lost (R29, R30). -/
def goDark (s : State) (d : Nat) : State :=
  let inStack (pa : Nat) : Bool := d * 0x1000000000 ≤ pa && pa < (d + 1) * 0x1000000000
  let s1 := { s with
    mem := FMap.keep (fun pa => !inStack pa) s.mem
    poison := FMap.keep (fun n => !inStack (128 * n)) s.poison
    marks := s.marks.filter fun a => !inStack a
    pkg := { s.pkg with darkDue := none } }
  setDieState s1 d 4 (s.die d).reason

/-! ### Slots at the device (R50, R60, R61) -/

/-- A slot opens at the device; where an overrunning one is open the two merge, with a second report (R47, R61). The manual does
not say whose SEQ and KIND the second report carries, nor that it holds lengths or launches: it carries those of the slot that
opens, and nothing else (DESIGN CHOICE, log 145). -/
def openSlot (s : State) (kind len : Nat) : State :=
  let seq := (s.pkg.slotSeq + 1) % 65536
  let merged := s.pkg.slots.any (·.overran)
  let s1 := { s with pkg := { s.pkg with
    slotSeq := seq
    slots := s.pkg.slots ++ [{ seq := seq, kind := kind, len := len, overran := false, hit := [] }] } }
  if merged then suspendBounds (sendCheck s1 0x161 8 (leBytes 2 seq ++ leBytes 2 kind)) (fun _ => true) 3 else s1

/-- The modules of every link, by their keys (R20). -/
def allModules : List Nat :=
  ((List.range 8).flatMap fun a => (List.range 4).map fun m => 1000 * a + 800 + m) ++
    (List.range 8).flatMap fun a => (List.range 8).flatMap fun b =>
      if a < b && adjacentDies a b then [1000 * a + 100 * b, 1000 * a + 100 * b + 1] else []

/-- The widths that an L slot leaves: which of the modules that are on run at x32 is not given, so each is a free value (R21, R56,
log 131). -/
def widthsAnew (s : State) : State :=
  let half := (allModules.zipIdx.filter fun k => !NSet.has s.pkg.modsOff k.1 &&
    (Config.freeWord (s.free + k.2 / 32)).getLsbD (k.2 % 32)).map (·.1)
  { s with free := s.free + 2, pkg := { s.pkg with modsHalf := half.foldl NSet.add [] } }

/-- An L slot opens: links take their widths, and the die whose turn it is goes dark (R21, R29). -/
def openL (s : State) (len : Nat) : State :=
  let f := s.pkg.frame.toNat
  let s0 := widthsAnew { s with pkg := { s.pkg with lslots := s.pkg.lslots.filter (fun x => x.1 != f), lastL := some f } }
  let s1 := openSlot s0 3 len
  match s1.pkg.darkDue with
  | none => s1
  | some d => goDark s1 d

/-- FRAME_BOUNDARY: a new frame starts, and its F slot opens (R44, R45). -/
def execFrameBoundary (s : State) : Host.Outcome State Fault Refusal :=
  if s.pkg.ns < 3900 then .next s
  else
    let f := s.pkg.frame + 1
    let s1 := { s with pkg := { s.pkg with frame := f, ns := s.pkg.ns - 3900, toOpen := (secondSlot s f.toNat).toList } }
    .next (openSlot s1 0 160)

/-- The slot whose published end comes next: the last opened, unless its overrun is declared. -/
def runningSlot (s : State) : Option DevSlot := s.pkg.slots.find? fun x => !x.overran

/-- ns of the frame at which a slot's published end falls: F first, the other slot after it. -/
def publishedEnd (x : DevSlot) : Nat := if x.kind == 0 then 160 else 160 + x.len

/-- The bounds of launches suspended, with their reports still to come (R60, R111). -/
def flagSuspended (s : State) (ids : List Nat) : State :=
  ids.foldl (fun st lid => st.setLaunch lid { st.l lid with suspended := true }) s

/-- SLOT_PUBLISHED_END: the slot ends at the device, or its overrun is declared and every accepted class-0 launch loses its
bound; the slot that follows opens (R50, R60, R61, R111, log 86). -/
def execSlotPublishedEnd (done : Bool) (s : State) : Host.Outcome State Fault Refusal :=
  match runningSlot s with
  | none => .next s
  | some x =>
    if s.pkg.ns < publishedEnd x then .next s
    else
      let others := s.pkg.slots.filter fun y => y.seq != x.seq
      let hit := if done then [] else (launchesOf s).filterMap fun e => if e.2.accepted then some e.1 else none
      let told := hit.filter fun lid => !(s.l lid).suspended
      let s0 := flagSuspended s told
      let s1 := { s0 with pkg := { s.pkg with
        slots := if done then others else others ++ [{ x with overran := true, hit := hit, told := told }] } }
      let s2 := match s1.pkg.toOpen with
        | [] => s1
        | (k, len) :: rest =>
          let s3 := { s1 with pkg := { s1.pkg with toOpen := rest } }
          if k == 3 then openL s3 len else openSlot s3 k len
      .next s2

/-- SLOT_WORK_DONE: an overrunning slot ends. The report holds its number, kind, published and actual length, and the
class-0 launches; each of those whose bound the overrun suspended is told of with it (R60, R111, log 86). -/
def execSlotWorkDone (actualNs : Nat) (s : State) : Host.Outcome State Fault Refusal :=
  match s.pkg.slots.find? fun x => x.overran with
  | none => .next s
  | some x =>
    let ids := x.hit.flatMap fun lid => leBytes 4 (s.l lid).q ++ leBytes 4 (s.l lid).tag.toNat
    let content := (leBytes 2 x.seq ++ leBytes 2 x.kind ++ leBytes 4 x.len ++ leBytes 4 actualNs ++ ids).take 52
    let s1 := { s with pkg := { s.pkg with slots := s.pkg.slots.filter fun y => y.seq != x.seq } }
    let cause := s1.host.evseq
    .next (x.told.foldl (fun st lid => tellSuspended st lid 3 cause) (sendCheck s1 0x160 8 content))

/-! ### Slots at a cluster (R48, R49, R52, R57) -/

/-- The fc frequency of a cluster in MHz. -/
def clusterMHz (c : Cluster) : Nat := fcMHz c.ratio c.cls

/-- The slot view of a slot that is open at the device, as it opens at a cluster. -/
def viewOpen (s : State) (c : Cluster) (x : DevSlot) : SlotView :=
  { seq := x.seq, kind := x.kind, follow := b2n (x.kind == 0 && (secondSlot s s.pkg.frame.toNat).isSome)
    len := nsToFc x.len (clusterMHz c), opened := false, wait := 0, ns := x.len }

/-- The slot view of the next frame's F slot: the remaining reference time in fc, rounded down (R48). -/
def viewNext (s : State) (c : Cluster) : SlotView :=
  { seq := (s.pkg.slotSeq + 1) % 65536, kind := 0, follow := b2n (secondSlot s ((s.pkg.frame + 1).toNat)).isSome
    len := nsToFc 160 (clusterMHz c), opened := false, wait := (3900 - s.pkg.ns) * clusterMHz c / 1000 }

/-- The next slot as the herald announces it once slot `seq` has closed: the first later one that is open at the device, where an
overrun has merged with those that followed it, else the next frame's F slot (R48, R61). -/
def announced (s : State) (c : Cluster) (seq : Nat) : SlotView :=
  match s.pkg.slots.find? fun x => 0 < (x.seq + 65536 - seq) % 65536 && (x.seq + 65536 - seq) % 65536 < 32768 with
  | some x => viewOpen s c x
  | none => viewNext s c

/-- The slot view after a change of the fc frequency: lengths and countdown anew, and of an open slot the length less the fc that
have passed at the cluster (R48, R57). -/
def reviewed (s : State) (c : Cluster) : SlotView :=
  let v := c.slot
  let len := nsToFc v.ns (clusterMHz c)
  if v.opened then { v with len := len, wait := len - v.passed }
  else if s.pkg.slots.any fun x => x.seq == v.seq then { v with len := len, wait := 0 }
  else { v with len := len, wait := (3900 - s.pkg.ns) * clusterMHz c / 1000 }

/-- DRAIN_WINDOW_BEGIN: the countdown reads 512 (R52). -/
def execDrainWindowBegin (cl : Nat) (s : State) : Host.Outcome State Fault Refusal := working s <|
  let c := s.cluster cl
  if c.slot.opened || 512 < c.slot.wait then .next s else .next (s.setCluster cl { c with drain := true })

/-- CLUSTER_SLOT_OPEN: the countdown reaches zero (R49). -/
def execClusterSlotOpen (cl : Nat) (s : State) : Host.Outcome State Fault Refusal := working s <|
  let c := s.cluster cl
  if c.slot.opened || c.slot.wait != 0 then .next s
  else .next (s.setCluster cl { c with slot := { c.slot with opened := true, wait := c.slot.len }, drain := true })

/-- The slot of a number has opened at the device, at some time in the last 32,768 slots (R47). -/
def hasOpened (s : State) (seq : Nat) : Bool := (s.pkg.slotSeq + 65536 - seq) % 65536 < 32768

/-- The herald's close message for a slot is under way: the slot's published end has come, and where no other follows it at once
the device holds nothing more for it or for a slot that it merged with (R49, R61). -/
def closing (s : State) (v : SlotView) : Bool :=
  hasOpened s v.seq && !(s.pkg.slots.any fun x => if v.follow == 1 then x.seq == v.seq && !x.overran else x.seq == v.seq || x.overran)

/-- SLOT_CLOSE_MESSAGE: the slot closes at a cluster, and the next one is announced (R48, R49). -/
def execSlotCloseMessage (cl : Nat) (s : State) : Host.Outcome State Fault Refusal := working s <|
  let c := s.cluster cl
  if !c.slot.opened || !closing s c.slot then .next s
  else
    let v := announced s c c.slot.seq
    .next (s.setCluster cl { c with slot := v, drain := s.pkg.slots.any fun x => x.seq == v.seq })

/-! ### Time at a cluster (R38, R48, R58, R112, R129, R402) -/

/-- A group of a cluster after `n` fc: its watchdog and stall counts. -/
def elapseGroup (s : State) (cl n : Nat) (e : Nat × Option Group) : Nat × Option Group :=
  match e.2 with
  | none => e
  | some g =>
    if clusterOf g.core != cl || !(s.b g.bid).resident || g.alive == 0 then e
    else (e.1, some { g with
      wdog := if watchdogCounts s e.1 g then g.wdog + n else g.wdog
      stall := if stallCounts s e.1 g then g.stall + n else g.stall })

/-- A block after `n` fc at a cluster: those in which it stood throttled (R402). -/
def elapseBlock (cl n : Nat) (e : Nat × Option Block) : Nat × Option Block :=
  match e.2 with
  | none => e
  | some b => if NSet.has b.throttled cl then (e.1, some { b with throttledFc := b.throttledFc + n }) else e

/-- `n` fc pass at a cluster. A countdown stops where its event is due: a stop at 1, a claim at 0. -/
def elapse (cl n : Nat) (s : State) : State :=
  let c := s.cluster cl
  let c1 := { c with
    fc := c.fc + n
    ivl := c.ivl + n
    slot := { c.slot with wait := c.slot.wait - n, passed := if c.slot.opened then c.slot.passed + n else 0 }
    claims := c.claims.map fun k => k - n
    stop := if c.stop == 0 then 0 else Nat.max 1 (c.stop - n)
    slotFc := if c.slot.opened || c.drains then c.slotFc + n else c.slotFc }
  let s1 := { s with groups := s.groups.map (elapseGroup s cl n), blocks := s.blocks.map (elapseBlock cl n) }
  s1.setCluster cl c1

/-- MSWIN_CLAIM_EXPIRY: a claim's fc have passed (R58). -/
def execMswinClaimExpiry (cl : Nat) (s : State) : Host.Outcome State Fault Refusal := working s <|
  let c := s.cluster cl
  .next (s.setCluster cl { c with claims := c.claims.filter fun k => k != 0 })

/-- SPEED_CHANGE_STOP_END: the 96 fc of a class change are over (R38). -/
def execSpeedChangeStopEnd (cl : Nat) (s : State) : Host.Outcome State Fault Refusal := working s <|
  let c := s.cluster cl
  if c.stop == 1 then .next (s.setCluster cl { c with stop := 0 }) else .next s

/-- A cluster takes another speed class: issue stops for 96 fc, and the countdown is converted again (R38, R48). -/
def changeClass (s : State) (cl cls : Nat) : State :=
  let c := { s.cluster cl with cls := cls, stop := 97 }
  s.setCluster cl { c with slot := reviewed s c }

/-- The candidate class of a cluster (R116). -/
def candidateClass (s : State) (cl : Nat) : Nat :=
  let here := (blocksIn s cl).map (·.2)
  let asked := here.foldl (fun a b => Nat.max a b.speed) 0
  let floors := here.foldl (fun a b => let l := s.l b.lid
    if l.cls == 0 then Nat.max a l.floor else a) asked
  if here.isEmpty then 0 else Nat.min floors (capIn s cl)

/-- The class that a boundary adopts: a raise that the charges fit, a lowering while no claim is active (R116). -/
def adoptedClass (s : State) (cl : Nat) : Nat :=
  let c := s.cluster cl
  let k := candidateClass s cl
  let ch := chargedOn s cl
  if k < c.cls then (if c.claims.isEmpty then k else c.cls)
  else if decide (ch.1 ≤ 4 * ebudAt s cl k) && decide (ch.2 ≤ ibudNow s cl) then k else c.cls

/-- A block goes unthrottled at a cluster (R115). -/
def unthrottleBlock (cl : Nat) (b : Block) : Block := { b with throttled := b.throttled.filter fun x => x != cl }

/-- Every block goes unthrottled at a cluster. -/
def unthrottle (s : State) (cl : Nat) : State :=
  { s with blocks := s.blocks.map fun e => (e.1, e.2.map (unthrottleBlock cl)) }

/-- CONTROL_INTERVAL_BOUNDARY: a class is adopted, and the budgets of the new interval are computed (R112, R113, R116). -/
def execControlIntervalBoundary (cl : Nat) (s : State) : Host.Outcome State Fault Refusal := working s <|
  if (s.cluster cl).ivl < 4096 then .next s
  else
    let k := adoptedClass s cl
    let s1 := if k == (s.cluster cl).cls then s else changeClass s cl k
    let c := s1.cluster cl
    let s2 := unthrottle s1 cl
    .next (s2.setCluster cl { c with
      ivl := c.ivl - 4096, noTask := false, ebud := ebudAt s1 cl c.cls, ibud := ibudNow s1 cl })

/-- RATIO_CHANGE_APPLY: the cluster holds no block, and the written ratio takes effect, never inside a claim (R38, R59). -/
def execRatioChangeApply (cl : Nat) (s : State) : Host.Outcome State Fault Refusal := working s <|
  let c := s.cluster cl
  match c.ratioNext with
  | none => .next s
  | some r =>
    if !(blocksIn s cl).isEmpty || !c.claims.isEmpty then .next s
    else
      let c1 := { c with ratio := r, ratioNext := none }
      .next (s.setCluster cl { c1 with slot := reviewed s c1 })

/-- C0RSV_APPLY: the cluster holds no class-0 block, and the written reserve takes effect (R102). -/
def execC0rsvApply (cl : Nat) (s : State) : Host.Outcome State Fault Refusal := working s <|
  let c := s.cluster cl
  match c.c0next with
  | none => .next s
  | some v =>
    if (blocksIn s cl).any fun b => (s.l b.2.lid).cls == 0 then .next s
    else .next (s.setCluster cl { c with c0rsv := v, c0next := none })

end Sys2Proof.Machine
end

