-- ==== Sys2Proof/Machine/Save.lean ====
section
/-!
DEFINITION. Saved blocks: the record of a stopped group and the save area of a block (R166, R299, R323 to R327).
-/

namespace Sys2Proof.Machine

/-- The STATE code of a narrow group in a record. A narrow group that could issue stands at no safe point and waits for nothing: R327
has no code for it, and it is recorded as one in AWAIT whose list is full (R327; DESIGN CHOICE, log 158). -/
def narrowCode (s : State) (gid : Nat) (n : Narrow) : Nat :=
  let g := s.g gid
  let arrived := match g.rv with
    | some r => r.arrived.contains (gid, n.slices)
    | none => false
  if (g.lanesIn n.slices).isEmpty then 5
  else if n.st == .parked && arrived then 7
  else if g.sys && (g.susp.isEmpty || g.held.isSome) then 6
  else if !g.susp.isEmpty || g.halted then 4
  else match n.st with
  | .exited => 5
  | .joinWait => 3
  | .parked => 2
  | .await => if stopsAt s gid g n then 0 else 1
  | .ready => if stopsAt s gid g n then 0 else 1

/-- The frame that a record holds: the pending trap frame of a group with a fault, or the park stop of a parked one. -/
def savedFrame (s : State) (gid : Nat) : Option (List Byte) × Bool :=
  let g := s.g gid
  if g.held.isSome then (vRead s (s.launchOf g.bid).ctx sysRead (frameVa s g) 1152, false)
  else match g.narrows.find? fun n => n.st == .parked with
  | none => (none, false)
  | some n =>
    let h := hdrAt s gid (g.issuePc n)
    (some (frameBytes g n (soloUnit s h gid n.slices) h false { cause := 0 }), true)

/-- The record of a group in a STATE: with every register for a dump, else with those that a pre-emption saves (R83, R323, R324,
R327). -/
def groupRecord (s : State) (gid code idx : Nat) (whole : Bool) : List Byte :=
  let g := s.g gid
  let l := s.launchOf g.bid
  let p := (l.safes.drop idx).head?
  let safe := code == 0
  let routine := !whole && safe && ((p.map (·.save)).getD 0 != 0)
  let masked (f : SafePt → Nat) (n : Nat) : Bool :=
    if routine then false else if safe && !whole then tb ((p.map f).getD 0) n else true
  let fr := savedFrame s gid
  recordBytes l g g.quires {
    state := code, mode := g.sys, frame := fr.1, park := fr.2, routines := routine, safe := if safe then idx else 0
    pc := g.pc, narState := fun n => if safe then (if (g.lanesIn n.slices).isEmpty then 5 else 0) else narrowCode s gid n
    wdog := g.wdog, tscr := true, rvPc := g.rv.map (·.pc), full := false
    vlive := masked (·.vlive), slive := masked (·.slive), dlive := masked (·.dlive), clive := masked (·.clive) }

/-- The record of a group that has stopped for pre-emption with a STATE code, at a safe point where the code is 0 (R323,
R324, R327). -/
def stoppedRecord (s : State) (gid code idx : Nat) : List Byte := groupRecord s gid code idx false

/-- The STATE code of a group in a dump, with its safe point: that with which it has stopped, else that of the first of its narrow
groups; one that has arrived at a rendezvous is parked (R83, R164, R327). -/
def dumpState (s : State) (gid : Nat) : Nat × Nat :=
  let g := s.g gid
  let codes := (liveNarrows g).map (narrowCode s gid)
  match g.stop with
  | some x => x
  | none => (match codes with
    | [] => 5
    | c :: _ => if c == 7 then 2 else c, 0)

/-- The address, from the start of a block's save area, of the record of the group with an index (R326). -/
def recordAt (l : Launch) (idx : Nat) : Nat :=
  let part := 2048 + l.tileb
  64 + idx / l.perCore * (part + l.perCore * recordSize l) + part + idx % l.perCore * recordSize l

/-- Poison marks stand on the registers with an uncorrectable error in the record at an address (R319). -/
def markRecord (l : Launch) (pa : Nat) (frame : Bool) (keys : List Nat) (s : State) : State :=
  { s with marks := (keys.filterMap (recordPlace l frame)).foldl (fun m k => NSet.add m (pa + k)) s.marks }

/-- A barrier object as its 16 bytes (R299). -/
def barBytes (b : Bar) : List Byte :=
  leBytes 16 (b.phase.toNat * 2 ^ 112 + b.aexp.toNat * 2 ^ 96 + b.acnt.toNat * 2 ^ 80 + b.bexp.toNat * 2 ^ 52 +
    b.bcnt.toNat * 2 ^ 24 + b2n b.blk * 2 + b2n b.act)

/-- The barrier kilobyte of a core (R299). -/
def barKilobyte (c : Core) : List Byte :=
  (List.range 64).flatMap fun k =>
    barBytes (FMap.get { phase := 0, aexp := 0, acnt := 0, bexp := 0, bcnt := 0, blk := false, act := false } c.bars k)

/-- A saved ring: the payloads, the ring word and zeros; 48 bytes (R326). -/
def ringBytes (r : Option Ring) : List Byte :=
  match r with
  | none => leBytes 48 0
  | some r =>
    let sl := r.slots.zipIdx
    let w := r.xix * 2 ^ 32 + r.glap * 2 ^ 31 + r.gix * 2 ^ 28 + r.plap * 2 ^ 27 + r.pix * 2 ^ 24 +
      (sl.map fun x => x.1.ph * 2 ^ (16 + x.2) + x.1.st * 4 ^ x.2).foldl (· + ·) 0
    ((List.range 8).flatMap fun k => leBytes 4 (r.slots.getD k { pay := 0, st := 0, ph := 0 }).pay.toNat) ++ leBytes 8 w ++ leBytes 8 0

/-- The PC of an open rendezvous, all ones for none, and the members of a group list that have arrived, as 64 bits: R326 gives a width for
sets alone (R326; DESIGN CHOICE, log 165). -/
def rvBytes (r : Option Rendezvous) (members : List Nat) : List Byte :=
  leBytes 8 ((r.map (·.pc)).getD (2 ^ 64 - 1)) ++
    leBytes 8 (maskOf ((members.zipIdx.filter fun m => match r with
      | some r => r.arrived.any fun a => a.1 == m.1
      | none => false).map (·.2)))

/-- The tile allocation of a block core as bytes. -/
def tileBytes (c : BCore) (n : Nat) : List Byte := (List.range n).map fun k => FMap.get (0 : Byte) c.tile k

/-- The section of a core of a block's save area (R326). -/
def coreSection (s : State) (bid c : Nat) (record : Nat → List Byte) : List Byte :=
  let b := s.b bid
  let l := s.l b.lid
  let k := s.bc bid c
  let mine := (List.range l.perCore).map fun g => gidOf bid (c * l.perCore + g)
  let sets := (List.range 8).flatMap fun n =>
    rvBytes (FMap.get none k.rvs n) (mine.filter fun m => match (s.g m).set with
      | some (x, _) => x == n
      | none => false)
  barKilobyte (s.core k.core) ++ ((List.range 7).flatMap fun st => ringBytes (FMap.get none k.rings st)) ++ leBytes 48 0 ++
    sets ++ leBytes 512 0 ++ tileBytes k l.tileb ++ mine.flatMap record

/-- The save area of a block. R326 lists the fields of its header without their places; they stand in the order of the rule, with the
widths given here (R326; DESIGN CHOICE, log 165). -/
def saveArea (s : State) (bid : Nat) (record : Nat → List Byte) : List Byte :=
  let b := s.b bid
  let l := s.l b.lid
  let head := leBytes 4 l.q ++ leBytes 4 l.tag.toNat ++ leBytes 4 b.lin ++ leBytes 2 l.coresCode ++ leBytes 2 b.ps ++
    leBytes 2 l.vregs ++ leBytes 2 l.sregs ++ leBytes 2 l.dregs ++ leBytes 2 l.tileu ++ leBytes 4 l.perCore ++
    leBytes 4 (recordSize l) ++ rvBytes b.rv (groupsOf s bid)
  head ++ leBytes (64 - head.length) 0 ++ (List.range b.cores.length).flatMap fun c => coreSection s bid c record

end Sys2Proof.Machine
end

