-- ==== Sys2Proof/Machine/System.lean ====
section
/-!
DEFINITION. Row 0xF of the opcode map: system registers, context switch, caches, queries and debug (R395 to R404).
-/

namespace Sys2Proof.Machine

/-- Destination classes of the row: v or s (R395); a special is refused as read-only (R193). -/
def sysDst : Acc := { v := true, s := true, sp := true }

/-- A query: DST holds `n` registers, SA is unused, the immediate is legal (R395). -/
def shapeQuery (f : FmtI) (acc : Acc) (n : Nat) (imm : Option Nat) : Shape :=
  { enc := [dstChk acc f.dst, cwChk false f.cw, unusedSrc 10 f.sa, imm, need 8 (f.fn == 0)]
    dsts := [{ o := f.dst, n := n }], once := isScalar f.dst }

/-- An operation on a source: DST is unused (R395). -/
def shapeUse (f : FmtI) (acc : Acc) (n : Nat) (imm : Option Nat) (sys : Bool) : Shape :=
  { sys := sys
    enc := [unusedReg 9 f.dst, cwChk false f.cw, srcChk 10 acc true f.sa, imm, need 8 (f.fn == 0)]
    srcs := [useOf f.sa n], once := true }

/-- An s source alone. -/
def sOnly : Acc := { s := true }

/-- A value read for the unit, written to every active lane or once (R395). -/
def answer (f : FmtI) (n : Nat) (u : Ux) (s : State) (x : Nat) : Res :=
  .ok { st := writeLanes s u f.dst (32 * n) 0 fun _ => (x, 0) }

/-- An operation that executes only when a lane is active (R395). -/
def ifActive (u : Ux) (s : State) (e : Res) : Res := if u.active.isEmpty then .ok { st := s } else e

/-! ### System registers (R198, R199, R328) -/

/-- A system register: width in registers, and who may read and write it. -/
structure SysReg where
  n : Nat
  userRead : Bool
  userWrite : Bool
  sysWrite : Bool
deriving DecidableEq, Repr

/-- The system register of a number (R198, R328); every other number is reserved. -/
def sysReg (k : Nat) : Option SysReg :=
  if k == 0 then some ⟨1, true, false, true⟩
  else if k == 1 then some ⟨2, false, false, true⟩
  else if k == 2 then some ⟨1, true, false, false⟩
  else if k == 3 then some ⟨1, true, true, true⟩
  else if k == 4 || k == 5 then some ⟨1, true, false, false⟩
  else if 0x10 ≤ k && k ≤ 0x29 then some ⟨1, false, false, true⟩
  else if k == 0x100 || k == 0x101 then some ⟨2, false, false, true⟩
  else if k == 0x102 then some ⟨2, false, false, false⟩
  else if k == 0x103 then some ⟨1, true, true, true⟩
  else if k == 0x104 then some ⟨2, false, false, false⟩
  else if 0x108 ≤ k && k ≤ 0x10F then some ⟨2, false, false, true⟩
  else none

/-- Registers that an operand of a number takes; a reserved number takes one. -/
def sysRegN (k : Nat) : Nat := ((sysReg k).map (·.n)).getD 1

/-- CCLK as a word (R37). -/
def cclkWord (c : Cluster) : Nat := c.ratio + c.cls * 16 + b2n c.ratioNext.isSome * 256

/-- What a system register reads for a group (R198, R328). -/
def readSysReg (s : State) (gid k : Nat) : Nat :=
  let g := s.g gid
  let c := s.core g.core
  let cl := s.cluster (clusterOf g.core)
  if k == 0 then cclkWord cl
  else if k == 1 then cl.c0rsv.toNat
  else if k == 2 then c.opth.toNat
  else if k == 4 then b2n g.sys
  else if k == 5 then g.slot
  else if 0x10 ≤ k && k ≤ 0x29 then railWord s (k - 0x10)
  else if k == 0x100 then c.tvec.toNat
  else if k == 0x101 then c.tfarea.toNat
  else if k == 0x102 then frameVa s g
  else if k == 0x103 then g.ftrap.toNat
  else if k == 0x104 then c.ecclog.toNat
  else if 0x108 ≤ k && k ≤ 0x10F then (FMap.get 0 g.tscr (k - 0x108)).toNat
  else 0

/-- C0RSV as written: fields over their range are written as the largest value (R102). -/
def c0Written (v : Nat) : DWord :=
  BitVec.ofNat 64 (min (bits v 55 48) 31 * 2 ^ 48 + min (bits v 39 32) 128 * 2 ^ 32 + min (bits v 23 16) 64 * 2 ^ 16 +
    min (bits v 12 8) 16 * 2 ^ 8)

/-- Blocks that occupy a cluster: resident, whatever their class. -/
def clusterBlocks (s : State) (cl : Nat) : List Nat :=
  (s.blocks.filter fun e => match e.2 with
    | some b => b.st != .retired && b.st != .preempted && b.cores.any fun c => clusterOf c.core == cl
    | none => false).map (·.1)

/-- The cluster holds a class-0 block. -/
def holdsClass0 (s : State) (cl : Nat) : Bool := (clusterBlocks s cl).any fun b => (s.launchOf b).cls == 0

/-- The effect of a write of a system register by a group (R10, R37, R38, R102, R197, R328). Bits of TVEC and TFAREA
below the alignment, and of TVEC above a virtual address, are not held (log 23). -/
def writeSysReg (s : State) (gid k v : Nat) : State :=
  let g := s.g gid
  let cl := clusterOf g.core
  let c := s.cluster cl
  if k == 0 then
    if v % 4 == 3 then s
    else if (clusterBlocks s cl).isEmpty then s.setCluster cl { c with ratio := v % 4, ratioNext := none }
    else s.setCluster cl { c with ratioNext := some (v % 4) }
  else if k == 1 then
    if holdsClass0 s cl then s.setCluster cl { c with c0next := some (c0Written v) }
    else s.setCluster cl { c with c0rsv := c0Written v, c0next := none }
  else if k == 3 then s.modGroup gid fun g => { g with fst := g.fst &&& ~~~ (BitVec.ofNat 6 v) }
  else if 0x10 ≤ k && k ≤ 0x29 then (if tb v 31 then clearDrt s (k - 0x10) else s)
  else if k == 0x100 then s.setCore g.core { s.core g.core with tvec := BitVec.ofNat 64 (v % 2 ^ 57 / 64 * 64) }
  else if k == 0x101 then s.setCore g.core { s.core g.core with tfarea := BitVec.ofNat 64 (v / 64 * 64) }
  else if k == 0x103 then s.modGroup gid fun g => { g with ftrap := BitVec.ofNat 6 v }
  else if 0x108 ≤ k && k ≤ 0x10F then
    s.modGroup gid fun g => { g with tscr := FMap.set 0 g.tscr (k - 0x108) (BitVec.ofNat 64 v) }
  else s

/-- The check of the register number: IMM[31:12] is 0, and the number is not reserved, 0.7 (R198). -/
def sysNumChk (imm : BitVec 32) : Option Nat :=
  if imm.toNat ≥ 4096 then some 13 else if (sysReg imm.toNat).isNone then some 7 else none

/-- A pair starts at an even register; another start is a reserved code for its field (R396). -/
def pairChk (cause : Nat) (o : Opnd) (n : Nat) : Option Nat :=
  match o with
  | .v k => need cause (n < 2 || k % 2 == 0)
  | .s k => need cause (n < 2 || k % 2 == 0)
  | _ => none

/-- RDSR: the width of the register decides the destination; a mode that may not read it is refused (R199, R396). -/
def shapeRdsr (f : FmtI) : Shape :=
  let n := sysRegN f.imm.toNat
  { shapeQuery f sysDst n (sysNumChk f.imm) with
    sys := !(((sysReg f.imm.toNat).map (·.userRead)).getD true)
    enc := [firstSome [dstChk sysDst f.dst, pairChk 9 f.dst n], cwChk false f.cw, unusedSrc 10 f.sa, sysNumChk f.imm,
      need 8 (f.fn == 0)] }

/-- RDSR: the register (R396). -/
def execRdsr (h : Hdr) (f : FmtI) (s : State) : Host.Outcome State Fault Refusal :=
  issue h (shapeRdsr f) s fun u s => ifActive u s <|
    answer f (sysRegN f.imm.toNat) u s (readSysReg s u.gid f.imm.toNat)

/-- WRSR: SA is s, a constant or the zero code; a pair for a 64-bit register. A mode that may not write the
register, or a read-only number, is refused (R199, R396). -/
def shapeWrsr (f : FmtI) : Shape :=
  let n := sysRegN f.imm.toNat
  let acc : Acc := { s := true, k := true, z := true }
  { shapeUse f acc n (sysNumChk f.imm) (!(((sysReg f.imm.toNat).map (·.userWrite)).getD true)) with
    barred := !(((sysReg f.imm.toNat).map (·.sysWrite)).getD true)
    enc := [unusedReg 9 f.dst, cwChk false f.cw, firstSome [srcChk 10 acc true f.sa, pairChk 10 f.sa.reg n],
      sysNumChk f.imm, need 8 (f.fn == 0)] }

/-- WRSR: the write (R396). -/
def execWrsr (h : Hdr) (f : FmtI) (s : State) : Host.Outcome State Fault Refusal :=
  issue h (shapeWrsr f) s fun u s => ifActive u s <|
    let x := if sysRegN f.imm.toNat == 2 then (rdU64 s u f.sa.reg).toNat else (rdU s u f.sa.reg).toNat
    .ok { st := writeSysReg s u.gid f.imm.toNat x }

/-! ### SAVE, REST and CTXSW (R397, R398) -/

/-- SAVE and REST: group scope; SA an s pair; IMM 0. -/
def shapeRecord (f : FmtI) (sys : Bool) : Shape :=
  let sh := shapeUse f sOnly 2 (need 13 (f.imm == 0)) sys
  { sh with scopes := [.group] }

/-- The fault of a record's address: misaligned, out of form, or a page that refuses the access, the lowest first. -/
def recordFault (s : State) (gid : Nat) (write : Bool) (va n : Nat) : Option Trap :=
  let g := s.g gid
  if va % 64 != 0 then some { cause := memCause 1 3, faddr := va }
  else if va ≥ 2 ^ 57 then some { cause := memCause 1 2, faddr := va }
  else firstSome ((List.range (cdiv (va % 4096 + n) 4096)).map fun k =>
    let a := if k == 0 then va else va / 4096 * 4096 + 4096 * k
    match reach s (s.launchOf g.bid).ctx (!g.sys) write 1 a with
    | .error c => some { cause := c, faddr := a }
    | .ok _ => none)

/-- The class-1 fault of a register with an uncorrectable error that a save meets; t registers are not saved (R319, R397). -/
def saveEcc (g : Group) : Option Trap :=
  match g.ecc.filter fun k => k / 32 < 512 || 528 ≤ k / 32 with
  | [] => none
  | k :: _ =>
    let code := k / 32
    let rc := if code < 256 then 0 else if code < 416 then 1 else if code < 528 then 3 else if code < 544 then 2 else 3
    some { cause := 32 + 12 + rc, info := code + k % 32 * 2 ^ 16 }

/-- Rights of the group's own mode. -/
def ownWant (s : State) (gid : Nat) (write : Bool) : Want := { write := write, fetch := false, user := !(s.g gid).sys }

/-- The head of the record that SAVE and CTXSW write. -/
def saveHead (u : Ux) (sys tscr : Bool) : RecordHead :=
  { state := 0, mode := sys, frame := none, park := false, routines := false, safe := 0
    pc := fun _ => nextPc u.pc, narState := fun _ => 0, wdog := 0, tscr := tscr, rvPc := none, full := true
    vlive := fun _ => true, slive := fun _ => true, dlive := fun _ => true, clive := fun _ => true }

/-- The wait of SAVE, REST and CTXSW for the group's long-latency producers. -/
def producersWait (s : State) (u : Ux) : Option Stop :=
  let all := u.gid :: hitGroupsOf s u.gid
  if all.all fun g => (s.g g).pend.isEmpty then none else some (.wait (.producers all))

/-- SAVE. -/
def shapeSave (f : FmtI) : Shape := shapeRecord f false

/-- SAVE: the group's record at A (R397); it waits while a slot or another transaction holds the record's lines (R54, R307). -/
def execSave (h : Hdr) (f : FmtI) (s : State) : Host.Outcome State Fault Refusal :=
  issue h (shapeSave f) s fun u s => ifActive u s <|
    match producersWait s u with
    | some w => .error w
    | none => ordered s u fun s0 =>
      let g := s0.g u.gid
      let l := s0.launchOf g.bid
      let va := (rdU64 s u f.sa.reg).toNat
      match firstSome [saveEcc g, recordFault s0 u.gid true va (recordSize l)] with
      | some t => .error (.trap t)
      | none => vFree s0 u.gid true va (recordSize l) <|
        let bs := recordBytes l g (quiresNow g (g.nar u.slices)) (saveHead u false false)
        .ok { st := (vWrite s0 l.ctx (ownWant s0 u.gid true) va bs g.bid g.bcore).getD s0 }

/-- REST. -/
def shapeRest (f : FmtI) : Shape := shapeRecord f false

/-- REST: registers, FST and FTRAP from the record at A, every register full (R397); it waits while a slot holds the record (R54). -/
def execRest (h : Hdr) (f : FmtI) (s : State) : Host.Outcome State Fault Refusal :=
  issue h (shapeRest f) s fun u s => ifActive u s <|
    match producersWait s u with
    | some w => .error w
    | none => ordered s u fun s0 =>
      let g := s0.g u.gid
      let l := s0.launchOf g.bid
      let va := (rdU64 s u f.sa.reg).toNat
      match recordFault s0 u.gid false va (recordSize l) with
      | some t => .error (.trap t)
      | none => vFree s0 u.gid false va (recordSize l) <|
        match vRead s0 l.ctx (ownWant s0 u.gid false) va (recordSize l) with
        | none => .ok { st := s0 }
        | some bs => .ok { st := s0.modGroup u.gid fun g => restoreRegs l g bs }

/-- CTXSW. -/
def shapeCtxsw (f : FmtI) : Shape := shapeRecord f true

/-- The group as CTXSW takes it from a record: the PCs, the split and the mode read, lanes exited now or by the record
(R398). -/
def switchTo (l : Launch) (g : Group) (bs : List Byte) : Group :=
  let at_ (off n : Nat) : Nat := leVal ((bs.drop off).take n)
  let pc (k : Nat) : Nat := at_ (0x40 + 8 * k) 8
  let gone := maskOf ((List.range 32).filter fun k => pc k == 2 ^ 64 - 1)
  let g1 := restoreRegs l g bs
  { g1 with
    quires := at_ 0x10 4
    wdog := at_ 0x14 4
    pcs := (List.range 32).foldl (fun m k => FMap.set 0 m k (pc k)) []
    alive := g.alive &&& ~~~ (BitVec.ofNat 32 gone)
    narrows := recordNarrows bs
    t := []
    tscr := (List.range 8).foldl (fun m k => FMap.set 0 m k (BitVec.ofNat 64 (at_ (0x920 + 8 * k) 8))) []
    sys := tb (at_ 0 1) 3
    instrs := g.instrs + 1
    rv := none }

/-- CTXSW: the group's state exchanged with the record at A (R398); it waits while a slot or another transaction holds the record's
lines (R54, R307). -/
def execCtxsw (h : Hdr) (f : FmtI) (s : State) : Host.Outcome State Fault Refusal :=
  issue h (shapeCtxsw f) s fun u s => ifActive u s <|
    match producersWait s u with
    | some w => .error w
    | none => ordered s u fun s0 =>
      let g := s0.g u.gid
      let l := s0.launchOf g.bid
      let va := (rdU64 s u f.sa.reg).toNat
      match firstSome [saveEcc g, recordFault s0 u.gid true va (recordSize l)] with
      | some t => .error (.trap t)
      | none => vFree s0 u.gid true va (recordSize l) <|
        match vRead s0 l.ctx (ownWant s0 u.gid false) va (recordSize l) with
        | none => .ok { st := s0 }
        | some bs =>
          let st := leVal (bs.take 1) % 8
          if st != 0 && st != 6 then .error (.trap { cause := memCause 1 3, faddr := va })
          else
            let out := recordBytes l g (quiresNow g (g.nar u.slices)) { saveHead u true true with wdog := g.wdog }
            match vWrite s0 l.ctx (ownWant s0 u.gid true) va out g.bid g.bcore with
            | none => .ok { st := s0 }
            | some s1 => .ok { st := s1.modGroup u.gid fun g => switchTo l g bs, jumped := true }

/-! ### Translations and caches (R399, R400) -/

/-- TLBI: SA an s pair for kind 0 and unused otherwise; IMM[1:0] kind, [15:8] context (R399). -/
def shapeTlbi (f : FmtI) : Shape :=
  let kind := f.imm.toNat % 4
  let imm := need 13 (kind != 3 && f.imm.toNat &&& 0xFF03 == f.imm.toNat)
  if kind == 0 then shapeUse f sOnly 2 imm true
  else { sys := true, enc := [unusedReg 9 f.dst, cwChk false f.cw, unusedSrc 10 f.sa, imm, need 8 (f.fn == 0)],
         once := true }

/-- The TLB less the entries that a kind of TLBI drops (R399). -/
def tlbDrop (s : State) (kind ctx va : Nat) : State :=
  { s with tlb := s.tlb.filter fun e =>
      if kind == 0 then !(e.ctx == ctx && e.vpn ≤ va / 4096 && va / 4096 < e.vpn + e.pages)
      else if kind == 1 then e.ctx != ctx else false }

/-- TLBI: earlier accesses are performed, then the entries are gone (R399). -/
def execTlbi (h : Hdr) (f : FmtI) (s : State) : Host.Outcome State Fault Refusal :=
  issue h (shapeTlbi f) s fun u s => ifActive u s <|
    ordered s u fun s1 =>
      .ok { st := tlbDrop s1 (f.imm.toNat % 4) (bits f.imm.toNat 15 8) (rdU64 s u f.sa.reg).toNat }

/-- CFLUSH: SA an s pair for kinds 0 and 1 and unused otherwise; IMM[1:0] kind (R400). -/
def shapeCflush (f : FmtI) : Shape :=
  let imm := need 13 (f.imm.toNat < 4)
  if f.imm.toNat % 4 < 2 then shapeUse f sOnly 2 imm true
  else { sys := true, enc := [unusedReg 9 f.dst, cwChk false f.cw, unusedSrc 10 f.sa, imm, need 8 (f.fn == 0)],
         once := true }

/-- Every stash copy of a line is written back, CLEAN, or INVALID with `inv` (R264, R400). -/
def cleanStashes (s : State) (pa : Nat) (inv : Bool) : State :=
  let one (m : Stash) : Stash :=
    { m with st := (stashLinesOfPa m pa).foldl (fun f i => FMap.set 0 f i (if inv then 0 else 1)) m.st }
  let core (c : BCore) : BCore := { c with stashes := c.stashes.map one }
  { s with blocks := s.blocks.map fun e => (e.1, e.2.map fun b => { b with cores := b.cores.map core }) }

/-- A stash copy of a line is DIRTY, or a die owns the line: a flush writes it back. -/
def lineDirty (s : State) (pa : Nat) : Bool :=
  let l := s.line (lineOf pa)
  l.st == 2 || l.st == 3 || s.blocks.any fun e => match e.2 with
    | none => false
    | some b => b.cores.any fun k => k.stashes.any fun m => (stashLinesOfPa m pa).any fun i => m.line i == 2

/-- The line after a write-back: memory is current, and the old owner keeps a copy; with `inv` no die holds it (R307, R400). -/
def flushLine (l : DirLine) (inv : Bool) : DirLine :=
  if 4 ≤ l.st then l else if inv then dropCopies l
  else if l.st == 2 || l.st == 3 then { l with st := 1, owner := 0, sharers := NSet.add l.sharers l.owner } else l

/-- CFLUSH: a line written back, and with kind 1 invalidated everywhere; kind 2 every line of the L2; kind 3 the
constant cache, of which nothing is held here. Write-backs are held during slots, and a line with a transaction at hand is flushed after
it (R50, R307, R400, log 10). -/
def execCflush (h : Hdr) (f : FmtI) (s : State) : Host.Outcome State Fault Refusal :=
  issue h (shapeCflush f) s fun u s => ifActive u s <| ordered s u fun s0 =>
    let g := s0.g u.gid
    let kind := f.imm.toNat % 4
    if kind == 3 then .ok { st := s0 }
    else if kind == 2 then
      writesBack s0 (s0.dir.any fun e => e.2.st == 2 || e.2.st == 3) <|
        if linesBusy s0 then .error (.wait .slot) else
        .ok { st := s0.dir.foldl (fun st e => st.setLine e.1 (flushLine e.2 true)) s0 }
    else
      let va := (rdU64 s u f.sa.reg).toNat
      if va ≥ 2 ^ 57 then .error (.trap { cause := memCause 1 2, faddr := va })
      else match reach s0 (s0.launchOf g.bid).ctx (!g.sys) false 1 va with
      | .error c => .error (.trap { cause := c, faddr := va })
      | .ok x =>
        match x.loc with
        | .tile _ _ _ => .ok { st := s0 }
        | .phys pa =>
          let s1 := cleanStashes s0 pa (kind == 1)
          writesBack s0 (lineDirty s0 pa) <|
            if (s0.line (lineOf pa)).busy then .error (.wait .slot) else
            .ok { st := s1.setLine (lineOf pa) (flushLine (s1.line (lineOf pa)) (kind == 1)) }

/-! ### Queries (R401, R402) -/

/-- WAKE: DST v, s or the zero code; n from 0 to 16. -/
def shapeWake (f : FmtI) : Shape := shapeQuery f { sysDst with z := true } 1 (need 13 (f.imm.toNat ≤ 16))

/-- Rows of a core's tile memory that blocks hold (R252). -/
def rowsHeld (s : State) (core : Nat) : Nat :=
  (s.blocks.map fun e => match e.2 with
    | some b => if b.st != .retired && b.st != .preempted && b.cores.any fun c => c.core == core
        then (s.l b.lid).tileu else 0
    | none => 0).foldl (· + ·) 0

/-- Segments that hold no allocated row, with rows packed from row 0 on (R254, log 21). -/
def freeSegments (s : State) (core : Nat) : Nat := 16 - cdiv (rowsHeld s core) 256

/-- Awake segments of a core that hold no allocated row: those awake, and the segment of the barrier rows. -/
def awakeFree (s : State) (core : Nat) : Nat := min (freeSegments s core) ((s.core core).awake + 1)

/-- WAKE: the request of the block on the core, and the count of awake segments without rows (R401). -/
def execWake (h : Hdr) (f : FmtI) (s : State) : Host.Outcome State Fault Refusal :=
  issue h (shapeWake f) s fun u s => ifActive u s <|
    let g := s.g u.gid
    answer f 1 u (s.modBc g.bid g.bcore fun c => { c with wake := max c.wake (f.imm.toNat % 32) }) (awakeFree s g.core)

/-- DIEQ: a pair; selectors 0 to 8. -/
def shapeDieq (f : FmtI) : Shape := shapeQuery f sysDst 2 (need 13 (f.imm.toNat ≤ 8))

/-- The mask of online shader dies (R402). -/
def onlineMask (s : State) : Nat := maskOf ((List.range 8).filter fun d => (s.die d).st == 0)

/-- DIEQ: DSTAT of a die, or the online mask (R402). -/
def execDieq (h : Hdr) (f : FmtI) (s : State) : Host.Outcome State Fault Refusal :=
  issue h (shapeDieq f) s fun u s => ifActive u s <|
    answer f 2 u s (if f.imm.toNat == 8 then onlineMask s else dstatWord (s.die f.imm.toNat))

/-- LOGR: selectors 0 to 3. -/
def shapeLogr (f : FmtI) : Shape := shapeQuery f sysDst 1 (need 13 (f.imm.toNat < 4))

/-- LOGR: an error counter of the core (R402). -/
def execLogr (h : Hdr) (f : FmtI) (s : State) : Host.Outcome State Fault Refusal :=
  issue h (shapeLogr f) s fun u s => ifActive u s <|
    answer f 1 u s (FMap.get 0 (s.core (s.g u.gid).core).errs f.imm.toNat)

/-- PERF: selectors 0 to 7; a pair for 0 and 5. -/
def shapePerf (f : FmtI) : Shape :=
  shapeQuery f sysDst (if f.imm.toNat == 0 || f.imm.toNat == 5 then 2 else 1) (need 13 (f.imm.toNat < 8))

/-- The counter of a PERF selector (R402). -/
def perfValue (s : State) (u : Ux) (sel : Nat) : Nat :=
  let g := s.g u.gid
  let cl := s.cluster (clusterOf g.core)
  match sel with
  | 0 => cl.fc
  | 1 => quiresNow g (g.nar u.slices)
  | 2 => g.instrs
  | 3 => g.stall
  | 4 => g.wdog
  | 5 => (s.b g.bid).abytes
  | 6 => cl.slotFc
  | _ => (s.b g.bid).throttledFc

/-- PERF (R402). -/
def execPerf (h : Hdr) (f : FmtI) (s : State) : Host.Outcome State Fault Refusal :=
  issue h (shapePerf f) s fun u s => ifActive u s <|
    answer f (if f.imm.toNat == 0 || f.imm.toNat == 5 then 2 else 1) u s (perfValue s u f.imm.toNat)

/-- BUD: selector 0 or 1; a pair for 1. -/
def shapeBud (f : FmtI) : Shape := shapeQuery f sysDst (if f.imm.toNat == 1 then 2 else 1) (need 13 (f.imm.toNat < 2))

/-- BUD: what is left of the budgets, all ones for classes 1 to 3 (R402). -/
def execBud (h : Hdr) (f : FmtI) (s : State) : Host.Outcome State Fault Refusal :=
  issue h (shapeBud f) s fun u s => ifActive u s <|
    let g := s.g u.gid
    let l := s.launchOf g.bid
    if f.imm.toNat == 0 then
      answer f 1 u s (if l.cls != 0 then 2 ^ 32 - 1 else l.qmax - quiresNow g (g.nar u.slices))
    else answer f 2 u s (if l.cls != 0 then 2 ^ 64 - 1 else l.abytes - (s.b g.bid).abytes)

/-! ### Debug (R403, R404) -/

/-- HALT: system mode, no operand. -/
def shapeHalt (f : FmtI) : Shape :=
  { sys := true, once := true
    enc := [unusedReg 9 f.dst, cwChk false f.cw, unusedSrc 10 f.sa, need 13 (f.imm == 0), need 8 (f.fn == 0)] }

/-- HALT: the group halts once the instruction retires (R403). -/
def execHalt (h : Hdr) (f : FmtI) (s : State) : Host.Outcome State Fault Refusal :=
  issue h (shapeHalt f) s fun u s => ifActive u s <| .ok { st := s, halts := true }

/-- DBG: SA an s register; op 0 to 2. -/
def shapeDbg (f : FmtI) : Shape := shapeUse f sOnly 1 (need 13 (f.imm.toNat < 3)) true

/-- The groups in a core slot (R162). -/
def inSlot (s : State) (core slot : Nat) : List Nat :=
  (s.groups.filter fun e => match e.2 with
    | some g => g.core == core && g.slot == slot && (s.b g.bid).st != .retired && (s.b g.bid).st != .preempted
    | none => false).map (·.1)

/-- DBG: release from a halt, or single step on or off, of the group in a slot (R403). -/
def execDbg (h : Hdr) (f : FmtI) (s : State) : Host.Outcome State Fault Refusal :=
  issue h (shapeDbg f) s fun u s => ifActive u s <|
    let slot := (rdU s u f.sa.reg).toNat % 64
    .ok { st := (inSlot s (s.g u.gid).core slot).foldl (fun st x => st.modGroup x fun g =>
      match f.imm.toNat with
      | 0 => { g with halted := false }
      | 1 => { g with step := true }
      | _ => { g with step := false, stepDue := false }) s }

/-- BRKS: SA an s pair; IMM[1:0] kind, [4:2] lg. -/
def shapeBrks (f : FmtI) : Shape := shapeUse f sOnly 2 (need 13 (f.imm.toNat < 32)) false

/-- BRKS: the group's data breakpoint (R404). -/
def execBrks (h : Hdr) (f : FmtI) (s : State) : Host.Outcome State Fault Refusal :=
  issue h (shapeBrks f) s fun u s => ifActive u s <|
    let kind := f.imm.toNat % 4
    let lg := f.imm.toNat / 4
    .ok { st := s.modGroup u.gid fun g =>
      { g with brk := if kind == 0 then none
          else some { kind := kind, base := (rdU64 s u f.sa.reg).toNat / 2 ^ lg * 2 ^ lg, lg := lg } } }

/-- ILL: raises 0.0 whatever its other bits hold, at every scope and under every guard (R358). -/
def execIll (h : Hdr) (_ : FmtI) (s : State) : Host.Outcome State Fault Refusal :=
  match s.cur with
  | none => .refused .noIssuingUnit
  | some (gid, slices) => .next (takeTrap s (soloUnit s h gid slices) h false { cause := 0 })

end Sys2Proof.Machine
end

