-- ==== Sys2Proof/Machine/Host.lean ====
section
/-!
DEFINITION. The host side: the register window, queues, commands and their completion records, RDMA accesses, RESYNC, the
fatal error and its dump, measured boot and the sideband (R63 to R88, R95).
-/

namespace Sys2Proof.Machine

/-! ### Completion records (R77 to R79) -/

/-- A queue-error event: queue, RIDX, WIDX. -/
def tellQueueError (s : State) (n : Nat) : State :=
  let q := s.queue n
  sendModule s 7 (leBytes 4 n ++ leBytes 4 q.ridx.toNat ++ leBytes 4 q.widx.toNat)

/-- A queue goes into ERROR, with its event. -/
def queueError (s : State) (n : Nat) : State :=
  tellQueueError (s.setQueue n { s.queue n with err := true }) n

/-- The completion ring has room for a record (R78). -/
def hasRoom (q : Queue) : Bool := decide ((q.cqidx - q.cqack).toNat < 2 ^ q.cqlog)

/-- A slot, or a line with a transaction at hand, holds what the command processors read and write in memory, and earlier RDMA requests
go before it (R50, R72, R307). -/
def hostHeld (s : State) : Bool := memBusy s || !s.host.inbound.isEmpty

/-- A record is written at CQIDX; where it cannot be written the queue enters ERROR (R33, R77). -/
def putRecord (s : State) (n : Nat) (r : DWord × DWord) : State :=
  let q := s.queue n
  let va := (q.cqbase.toNat + q.cqidx.toNat % 2 ^ q.cqlog * 16) % 2 ^ 64
  match vWrite s q.ctx sysWrite va (recordRow r) noBlock 0 with
  | none => queueError (checkDark s q.ctx sysWrite va 16) n
  | some s1 => s1.setQueue n { s1.queue n with cqidx := q.cqidx + 1 }

/-- The records that wait are written while there is room, oldest first (R78). -/
def flushRecords (s : State) (n : Nat) : List (DWord × DWord) → State
  | [] => s
  | r :: rest =>
    let q := s.queue n
    if inError s q || !hasRoom q then s
    else flushRecords (putRecord (s.setQueue n { q with records := rest }) n r) n rest

/-- The records of a queue that wait are written, unless a slot holds them (R50, R78). -/
def flushQueue (n : Nat) (s : State) : Host.Outcome State Fault Refusal :=
  .next (if hostHeld s then s else flushRecords s n (s.queue n).records)

/-- A record is written, waits behind others, for room or for the end of a slot, or in ERROR is not written (R50, R77, R78). -/
def postRecord (s : State) (n : Nat) (r : DWord × DWord) : State :=
  let q := s.queue n
  if inError s q then s
  else if !q.records.isEmpty || !hasRoom q || hostHeld s then s.setQueue n { q with records := q.records ++ [r] }
  else putRecord s n r

/-- The completion of a command: its record, and with NOTIFY and EVEN its event (R77, R79). -/
def complete (s : State) (n : Nat) (tag : Word) (notify : Bool) (status value : Nat) : State :=
  let r := doneWords n tag status value false
  tellDone (postRecord s n r) n notify r

/-- The acceptance record of a class-0 launch (R77). -/
def acceptRecord (s : State) (n : Nat) (tag : Word) (bound : Nat) : State :=
  postRecord s n (doneWords n tag 0 bound true)

/-! ### Commands (R71, R73, R75, R95) -/

/-- Bits that a payload word may set, by kind and, for CTX, operation (R73). -/
def payloadMask (kind op k : Nat) : Nat :=
  let all := 2 ^ 64 - 1
  let row := match kind with
    | 1 => [all]
    | 2 => [all, all, all, 0xFF]
    | 3 => [all, all, 1]
    | 4 => [all, all, 1]
    | 5 => 0xFF03 :: (match op with
      | 0 => [all]
      | 1 => []
      | 2 => [all, all, 3]
      | _ => [2 ^ 32 - 1])
    | 6 => [all, all]
    | 7 => [1, all]
    | 8 => [all, all, all, all, all]
    | _ => []
  row.getD (k - 1) 0

/-- A reserved header bit or a payload byte that must be 0 is set. -/
def badPayload (w : List DWord) : Bool :=
  entReserved w != 0 || (List.range 7).any fun k =>
    entW w (k + 1) ||| payloadMask (entKind w) (entW w 1 % 4) (k + 1) != payloadMask (entKind w) (entW w 1 % 4) (k + 1)

/-- The command waits for nothing and holds nothing back: RESYNC, DUMP, ATTEST (R75). -/
def entFree (w : List DWord) : Bool := entKind w == 6 || entKind w == 7 || entKind w == 8

/-- It starts only when every earlier command has completed. -/
def entWaits (w : List DWord) : Bool := !entFree w && (entSer w || entKind w == 3)

/-- While it has not completed, no later entry is read. -/
def entHolds (w : List DWord) : Bool := entWaits w || entKind w == 4

/-- The launches of a queue that have not retired. -/
def queueLaunches (s : State) (n : Nat) : List (Nat × Launch) :=
  (launchesOf s).filter fun e => e.2.q == n && e.2.draw.isNone && e.2.st != .retired

/-- Commands of a queue have started and not completed. -/
def outstanding (s : State) (n : Nat) : Bool := !(s.queue n).copies.isEmpty || !(queueLaunches s n).isEmpty

/-- A queue is a candidate for its processor; a slot holds the reading of its entry (R50, R78, R95). -/
def isCandidate (s : State) (n : Nat) : Bool :=
  let q := s.queue n
  !hostHeld s && q.en && q.ridx != q.widx && q.records.isEmpty && hasRoom q && (s.host.fatal.isSome || (!q.err && q.waiting.isNone))

/-- Places from the queue last served in a class to queue `n`, upward with wrapping. -/
def serviceDistance (s : State) (n : Nat) : Nat :=
  let p := n / 32
  let c := (s.queue n).cls
  match FMap.get none s.host.lastQueue (4 * p + c) with
  | none => n % 32
  | some last => (n + 31 - last % 32) % 32

/-- The queue whose command a processor reads next (R95). -/
def nextQueue (s : State) (p : Nat) : Option Nat :=
  let l := ((List.range 32).map fun k => 32 * p + k).filter (isCandidate s)
  let c := minOr 4 (l.map fun n => (s.queue n).cls)
  let l1 := l.filter fun n => (s.queue n).cls == c
  let d := minOr 32 (l1.map (serviceDistance s))
  l1.find? fun n => serviceDistance s n == d

/-- The address of a queue's next entry (R70). -/
def entryAddr (q : Queue) : Nat := (q.base.toNat + q.ridx.toNat % 2 ^ q.logsz * 64) % 2 ^ 64

/-- The words of a queue's next entry. -/
def peekEntry (s : State) (n : Nat) : Option (List DWord) :=
  let q := s.queue n
  (vRead s q.ctx sysRead (entryAddr q) 64).map fun bs => (List.range 8).map fun k => BitVec.ofNat 64 (field bs (8 * k) 8)

/-- The processor has served a queue. -/
def served (s : State) (n : Nat) : State :=
  { s with host := { s.host with
      lastQueue := FMap.set none s.host.lastQueue (4 * (n / 32) + (s.queue n).cls) (some n) } }

/-- The processor has read the next entry of a queue: the place of the entry among all those read counts (R71, R81). -/
def readEntry (s : State) (n : Nat) : State :=
  let s1 := served s n
  let q := s1.queue n
  let s2 := s1.setQueue n { q with ridx := q.ridx + 1, readNo := s1.host.reads }
  { s2 with host := { s2.host with reads := s2.host.reads + 1 } }

/-- A command starts: after a fatal error DEAD, with a bad payload BADFIELD, else its effect (R73, R77, R82). -/
def startCommand (s : State) (n : Nat) (w : List DWord) (act : State → State) : State :=
  if s.host.fatal.isSome && !entFree w then complete s n (entTag w) (entNotify w) 9 0
  else if entKind w != 0 && entKind w ≤ 8 && badPayload w then complete s n (entTag w) (entNotify w) 3 0
  else act s

/-- A queue is no longer held by a command, if it was. -/
def release (s : State) (n : Nat) : State := s.setQueue n { s.queue n with waiting := none }

/-- A command of a queue, if the step names it: read where its queue is the processor's choice, held back where earlier
commands have not completed, started where nothing holds it (R71, R75, R95). `goesOn` says that the effect does not
complete it. -/
def runCommand (s : State) (n : Nat) (names : List DWord → Bool) (goesOn : State → List DWord → Bool)
    (act : List DWord → State → State) : Host.Outcome State Fault Refusal :=
  let begin_ (s : State) (w : List DWord) : State :=
    let stays := s.host.fatal.isNone && entHolds w && !badPayload w && goesOn s w
    let s1 := if stays then s.setQueue n { s.queue n with waiting := some (true, w) }
      else if s.host.fatal.isSome then s else release s n
    startCommand s1 n w (act w)
  match (if s.host.fatal.isSome then none else (s.queue n).waiting) with
  | some (false, w) =>
    if names w && !outstanding s n && !hostHeld s then .next (begin_ s w)
    else .next s
  | _ =>
    if 128 ≤ n || nextQueue s (n / 32) != some n then .next s
    else match peekEntry s n with
    | none => .next s
    | some w =>
      if !names w then .next s
      else
        let s2 := readEntry s n
        if s.host.fatal.isNone && entWaits w && outstanding s n then
          .next (s2.setQueue n { s2.queue n with waiting := some (false, w) })
        else if entFree w then .next (startCommand s2 n w (act w))
        else .next (begin_ s2 w)

/-- A command of a queue that its kind and operation name, and that completes at once. -/
def runAtOnce (s : State) (n : Nat) (names : List DWord → Bool) (act : List DWord → State → State) :
    Host.Outcome State Fault Refusal :=
  runCommand s n names (fun _ _ => false) act

/-- The completion of a command from its entry. -/
def finish (n : Nat) (w : List DWord) (status value : Nat) (s : State) : State :=
  complete s n (entTag w) (entNotify w) status value

/-- ENTRY_TRANSLATION_FAULT: the next entry cannot be read; the queue enters ERROR at that index (R71). -/
def execEntryTranslationFault (n : Nat) (s : State) : Host.Outcome State Fault Refusal :=
  if 128 ≤ n || nextQueue s (n / 32) != some n || (peekEntry s n).isSome then .next s
  else
    let q := s.queue n
    .next (queueError (checkDark (served s n) q.ctx sysRead (entryAddr q) 64) n)

/-! ### Doorbells and descriptors (R67, R68, R70, R78) -/

/-- A doorbell write (R70). -/
def ringDoorbell (s : State) (n : Nat) (v : DWord) : State :=
  let q := s.queue n
  let x : Word := BitVec.ofNat 32 v.toNat
  let d := (x - q.widx).toNat
  if 2 ^ 32 ≤ v.toNat || !q.en || inError s q || d == 0 || 2 ^ 31 ≤ d then s
  else if 2 ^ q.logsz < (x - q.ridx).toNat then queueError s n
  else s.setQueue n { q with widx := x }

/-- DOORBELL. -/
def execDoorbell (n : Nat) (v : BitVec 64) (s : State) : Host.Outcome State Fault Refusal :=
  if 128 ≤ n || !anyPort s then .next s else .next (ringDoorbell s n v)

/-- A completion acknowledgement (R78). -/
def ackRecords (s : State) (n : Nat) (v : DWord) : State :=
  let q := s.queue n
  let c : Word := BitVec.ofNat 32 v.toNat
  let d := (c - q.cqack).toNat
  if 2 ^ 32 ≤ v.toNat || d == 0 || 2 ^ 31 ≤ d || (q.cqidx - q.cqack).toNat < d then s
  else
    let s1 := s.setQueue n { q with cqack := c }
    if hostHeld s then s1 else flushRecords s1 n q.records

/-- COMPLETION_ACKNOWLEDGEMENT. -/
def execCompletionAcknowledgement (n : Nat) (v : BitVec 64) (s : State) : Host.Outcome State Fault Refusal :=
  if 128 ≤ n || !anyPort s then .next s else .next (ackRecords s n v)

/-- QUEUE_ENABLE: a write of 1 to EN; records that wait are written (R68, R78). -/
def execQueueEnable (n : Nat) (s : State) : Host.Outcome State Fault Refusal :=
  if 128 ≤ n || (s.queue n).en || !anyPort s then .next s else flushQueue n (enableQueue s n)

/-- QUEUE_DISABLE: a write of 0 to EN (R68). -/
def execQueueDisable (n : Nat) (s : State) : Host.Outcome State Fault Refusal :=
  if 128 ≤ n || !anyPort s then .next s else flushQueue n (abortWait (s.setQueue n { s.queue n with en := false }) n)

/-- Bytes of a host write to the window: a doorbell page takes whole writes of 8 bytes at 0 and 8 (R67, R70, R78). -/
def hostWindow (s : State) (off : Nat) (data : List Byte) : State :=
  if 0x1000000 ≤ off then
    let n := (off - 0x1000000) / 4096
    let at_ := off % 4096
    if 128 ≤ n || data.length != 8 then s
    else if at_ == 0 then ringDoorbell s n (BitVec.ofNat 64 (leVal data))
    else if at_ == 8 then ackRecords s n (BitVec.ofNat 64 (leVal data))
    else s
  else windowWrite s off data

/-- REGISTER_WRITE: a write to a register of the window that has no row of its own (R67). -/
def execRegisterWrite (off size : Nat) (v : BitVec 64) (s : State) : Host.Outcome State Fault Refusal :=
  if 8 < size || 0x1000000 ≤ off || !anyPort s then .next s else .next (hostWindow s off (leBytes size v.toNat))

/-! ### LAUNCH (R93, R98) -/

/-- The statuses of R77 for a launch that has ended. -/
def Launch.status (l : Launch) : Nat := if l.aborted then 5 else if l.xlate then 4 else if l.faulted then 7 else 0

/-- A launch that places no further block. One that issued a draw which ended by fault is marked faulted and goes on (R509). -/
def Launch.ending (l : Launch) : Bool := l.aborted || l.xlate || l.stopped

/-- The SER launch that held its queue is complete. -/
def releaseLaunch (s : State) (n : Nat) : State :=
  match (s.queue n).waiting with
  | some (true, w) => if entKind w == 1 then release s n else s
  | _ => s

/-- Completed-tag tables of clusters that hold no TASK launch are cleared (R119). -/
def clearTags (s : State) : State :=
  { s with clusters := s.clusters.map fun e =>
      if e.2.tasks.isEmpty && !(blocksIn s e.1).any (fun b => (s.l b.2.lid).task) then (e.1, { e.2 with tags := [] })
      else e }

/-- A launch retires; one that a LAUNCH command started writes its record (R97, R509). -/
def retireLaunch (s : State) (lid : Nat) : State :=
  let l := s.l lid
  let s1 := s.setLaunch lid { l with st := .retired }
  if l.draw.isSome then s1
  else releaseLaunch (complete s1 l.q l.tag l.notify l.status 0) l.q

/-- The draw that a launch serves has ended. -/
def drawEnded (s : State) (l : Launch) : Bool :=
  match l.draw with
  | none => false
  | some k => match s.draw k with
    | none => true
    | some d => d.ended != 0

/-- A launch is the fragment launch of its draw: the broker places its blocks (R146). -/
def isFragment (s : State) (lid : Nat) : Bool :=
  match (s.l lid).draw with
  | none => false
  | some k => match s.draw k with
    | none => false
    | some d => d.frag == lid

/-- A launch retires once every block it has placed has retired and it places no more. -/
def settleLaunch (s : State) (lid : Nat) : State :=
  let l := s.l lid
  let last := l.ending || drawEnded s l || (l.placed == l.blocks && !isFragment s lid)
  if l.st != .retired && l.placed == l.retired && last then retireLaunch s lid else s

/-- The pending tasks of a launch that ends are dropped: they count as placed and retired. -/
def dropTasks (s : State) (lid : Nat) : State :=
  let mine (c : Cluster) : Nat := (c.tasks.filter fun t => t.lid == lid && !t.held).length
  let n := (s.clusters.map fun e => mine e.2).foldl (· + ·) 0
  let l := s.l lid
  let s1 := if n == 0 then s else s.setLaunch lid { l with retired := l.retired + n }
  { s1 with clusters := s1.clusters.map fun e => (e.1, { e.2 with tasks := e.2.tasks.filter fun t => t.lid != lid }) }

/-- The machine check of a launch record, kernel header or safe-point row that lies in a dark stack (R33, R93). -/
def launchDark (s : State) (ctx va : Nat) : State :=
  match vRead s ctx sysRead va 256 with
  | none => checkDark s ctx sysRead va 256
  | some bs =>
    let khdr := field bs 8 8
    match vRead s ctx sysRead khdr 0xC0 with
    | none => checkDark s ctx sysRead khdr 0xC0
    | some head =>
      let rows := 16 * (field head 0 8 % 8192)
      match vRead s ctx sysRead (khdr + 0xC0) rows with
      | none => checkDark s ctx sysRead (khdr + 0xC0) rows
      | some t =>
        match (List.range (rows / 16)).find? fun k => (vRead s ctx sysRead (khdr + field t (16 * k + 8) 4) 80).isNone with
        | none => s
        | some k => checkDark s ctx sysRead (khdr + field t (16 * k + 8) 4) 80

/-- A launch enters the launch queue, or completes by a check of R93 that it fails. -/
def submitLaunch (n : Nat) (w : List DWord) (s : State) : State :=
  let q := s.queue n
  match fetchLaunch s q.ctx (entW w 1) with
  | .error st => finish n w st 0 (release (launchDark s q.ctx (entW w 1)) n)
  | .ok l =>
    if l.cls != q.cls then finish n w 6 0 (release s n)
    else if l.coop && !couldHold s l then finish n w 1 2 (release s n)
    else
      { s.setLaunch s.nextLaunch { l with q := n, tag := entTag w, notify := entNotify w, st := .waiting, order := q.readNo } with
        nextLaunch := s.nextLaunch + 1 }

/-- LAUNCH_COMMAND. -/
def execLaunchCommand (n : Nat) (s : State) : Host.Outcome State Fault Refusal :=
  runCommand s n (fun w => entKind w == 1) (fun _ _ => true) (submitLaunch n)

/-- HOST_ABORT: a launch that is not yet retired ends ABORTED (R34, R77). -/
def execHostAbort (n : Nat) (tag : BitVec 32) (s : State) : Host.Outcome State Fault Refusal := working s <|
  match (queueLaunches s n).find? fun e => e.2.tag == tag && !e.2.ending with
  | none => .next s
  | some e =>
    let s1 := s.setLaunch e.1 { e.2 with aborted := true }
    .next (settleLaunch (clearTags (stopLaunchGroups (dropTasks s1 e.1) e.1)) e.1)

/-! ### COPY, SIGNAL, WAIT (R73, R76, R306) -/

/-- COPY_COMMAND: the copy starts. -/
def execCopyCommand (n : Nat) (s : State) : Host.Outcome State Fault Refusal :=
  let inRange (w : List DWord) : Bool := within 1 (2 ^ 40) (entW w 3)
  runCommand s n (fun w => entKind w == 2) (fun _ w => inRange w) fun w s =>
    if inRange w then s.setQueue n { s.queue n with copies := (s.queue n).copies ++ [((s.queue n).seq, w)], seq := (s.queue n).seq + 1 }
    else finish n w 3 0 s

/-- A copy by pages: the state with the part done, and the bytes copied. `fuel` bounds the pages. -/
def copyPages (s : State) (ctx dctx src dst len : Nat) : Nat → Nat → State × Nat
  | 0, pos => (s, pos)
  | fuel + 1, pos =>
    if len ≤ pos then (s, pos)
    else
      let k := Nat.min (len - pos) (Nat.min (4096 - (src + pos) % 4096) (4096 - (dst + pos) % 4096))
      match vRead s ctx sysRead ((src + pos) % 2 ^ 64) k with
      | none => (checkDark s ctx sysRead ((src + pos) % 2 ^ 64) k, pos)
      | some bs =>
        match vWrite s dctx sysWrite ((dst + pos) % 2 ^ 64) bs noBlock 0 with
        | none => (checkDark s dctx sysWrite ((dst + pos) % 2 ^ 64) k, pos)
        | some s1 => copyPages s1 ctx dctx src dst len fuel (pos + k)

/-- COPY_COMMAND_COMPLETE: the bytes are copied, and the record carries how many; a slot holds the copy, and after a fatal error it
stands still (R50, R77, R82). -/
def execCopyCommandComplete (n k : Nat) (s : State) : Host.Outcome State Fault Refusal :=
  let q := s.queue n
  if hostHeld s || s.host.fatal.isSome then .next s
  else match q.copies.find? fun c => c.1 == k with
  | none => .next s
  | some (_, w) =>
    let len := entW w 3
    let r := copyPages s q.ctx (entW w 4) (entW w 1) (entW w 2) len (2 * len / 4096 + 4) 0
    let s1 := r.1.setQueue n { r.1.queue n with copies := q.copies.filter fun c => c.1 != k }
    let s2 := match (s1.queue n).waiting with
      | some (true, x) => if entKind x == 2 then release s1 n else s1
      | _ => s1
    .next (finish n w (if r.2 == len then 0 else 4) r.2 s2)

/-- SIGNAL_COMMAND: one 64-bit write or add with release order at system scope (R76). -/
def execSignalCommand (n : Nat) (s : State) : Host.Outcome State Fault Refusal :=
  runAtOnce s n (fun w => entKind w == 3) fun w s =>
    let ctx := (s.queue n).ctx
    if entW w 1 % 8 != 0 then finish n w 3 0 s
    else match vRead s ctx sysRead (entW w 1) 8 with
    | none => finish n w 4 0 (checkDark s ctx sysRead (entW w 1) 8)
    | some old =>
      let v := if entW w 3 == 1 then (leVal old + entW w 2) % 2 ^ 64 else entW w 2
      match vWrite s ctx sysWrite (entW w 1) (leBytes 8 v) noBlock 0 with
      | none => finish n w 4 0 (checkDark s ctx sysWrite (entW w 1) 8)
      | some s1 => finish n w 0 0 s1

/-- WAIT_COMMAND: the queue is held in WAITING (R75, R76). -/
def execWaitCommand (n : Nat) (s : State) : Host.Outcome State Fault Refusal :=
  runCommand s n (fun w => entKind w == 4) (fun _ w => entW w 1 % 8 == 0) fun w s =>
    if entW w 1 % 8 != 0 then finish n w 3 0 s else s

/-- The condition of a WAIT on a word. -/
def waitMet (w : List DWord) (x : Nat) : Bool := if entW w 3 == 1 then x == entW w 2 else decide (entW w 2 ≤ x)

/-- WAIT_SATISFIED: the sampled word meets the condition, or the WAIT ends otherwise; a slot holds the sample (R50, R68, R76). -/
def execWaitSatisfied (n : Nat) (s : State) : Host.Outcome State Fault Refusal :=
  match (s.queue n).waiting with
  | some (true, w) =>
    if entKind w != 4 || s.host.fatal.isSome then .next s
    else if !(s.queue n).en then .next (abortWait s n)
    else if hostHeld s then .next s
    else match vRead s (s.queue n).ctx sysRead (entW w 1) 8 with
    | none => .next (finish n w 4 0 (release (checkDark s (s.queue n).ctx sysRead (entW w 1) 8) n))
    | some bs => if waitMet w (leVal bs) then .next (finish n w 0 0 (release s n)) else .next s
  | _ => .next s

/-! ### CTX (R74) -/

/-- The context of a CTX command. -/
def ctxOf (w : List DWord) : Nat := bits (entW w 1) 15 8

/-- CTX_CREATE. -/
def execCtxCreate (n : Nat) (s : State) : Host.Outcome State Fault Refusal :=
  runAtOnce s n (fun w => entKind w == 5 && entW w 1 % 4 == 0) fun w s =>
    let c := ctxOf w
    let root := entW w 2
    if (FMap.get none s.ctxs c).isSome || root % 4096 != 0 || !(isHbm root || isLp root) || isFirmware root then finish n w 3 0 s
    else finish n w 0 0 { s with ctxs := FMap.set none s.ctxs c (some root), tlb := s.tlb.filter fun e => e.ctx != c }

/-- Something of the machine names a context. -/
def ctxInUse (s : State) (c : Nat) : Bool :=
  ((List.range 128).any fun k => (s.queue k).en && (s.queue k).ctx == c) ||
    ((launchesOf s).any fun e => e.2.st != .retired && e.2.ctx == c) ||
    s.draws.any fun e => match e.2 with
      | some d => d.ended == 0 && (s.l d.lid).ctx == c
      | none => false

/-- CTX_DESTROY: keys revoked, translations dropped, the context gone. A revoked key keeps its number with no rights. -/
def execCtxDestroy (n : Nat) (s : State) : Host.Outcome State Fault Refusal :=
  runAtOnce s n (fun w => entKind w == 5 && entW w 1 % 4 == 1) fun w s =>
    let c := ctxOf w
    if (FMap.get none s.ctxs c).isNone || ctxInUse s c then finish n w 3 0 s
    else finish n w 0 0 { s with
      ctxs := FMap.set none s.ctxs c none
      tlb := s.tlb.filter fun e => e.ctx != c
      host := { s.host with keys := s.host.keys.map fun k => if k.ctx == c then { k with rights := 0 } else k } }

/-- A key that no region has had since module reset and that is not 0. -/
def freshKey (s : State) : Word :=
  let used := Config.windowKey :: 0 :: s.host.keys.map (·.key)
  let c := Config.newKey s.host.keyCount
  if !used.contains c then c
  else (((List.range (used.length + 1)).map (BitVec.ofNat 32)).find? fun k => !used.contains k).getD c

/-- CTX_REGISTER. The keys in force are those that CTX has given: the firmware's own, for the window and the dump, do not count
(DESIGN CHOICE, log 136: R74 does not say). -/
def execCtxRegister (n : Nat) (s : State) : Host.Outcome State Fault Refusal :=
  runAtOnce s n (fun w => entKind w == 5 && entW w 1 % 4 == 2) fun w s =>
    let c := ctxOf w
    if (FMap.get none s.ctxs c).isNone || !within 1 (2 ^ 48) (entW w 3) || 2 ^ 57 < entW w 2 + entW w 3 || entW w 4 == 0 ||
        65536 ≤ (s.host.keys.filter fun k => k.rights != 0).length then finish n w 3 0 s
    else
      let k := freshKey s
      finish n w 0 k.toNat { s with host := { s.host with
        keys := s.host.keys ++ [{ key := k, ctx := c, va := entW w 2, len := entW w 3, rights := entW w 4 }]
        keyCount := s.host.keyCount + 1 } }

/-- CTX_REVOKE. -/
def execCtxRevoke (n : Nat) (s : State) : Host.Outcome State Fault Refusal :=
  runAtOnce s n (fun w => entKind w == 5 && entW w 1 % 4 == 3) fun w s =>
    let key : Word := BitVec.ofNat 32 (entW w 2)
    if !s.host.keys.any fun k => k.key == key && k.rights != 0 then finish n w 3 0 s
    else finish n w 0 0 { s with host := { s.host with
      keys := s.host.keys.map fun k => if k.key == key then { k with rights := 0 } else k } }

/-- BADKIND (R77). -/
def execBadkind (n : Nat) (s : State) : Host.Outcome State Fault Refusal :=
  runAtOnce s n (fun w => entKind w == 0 || 8 < entKind w) fun w s => finish n w 2 0 s

/-! ### RDMA (R64 to R66, R306, R466) -/

/-- Where an RDMA access of a length through a key goes: the physical address of each page's part with its length, or none
for a NAK (R65, R66). -/
def rdmaTarget (s : State) (key : Word) (addr len : Nat) (write : Bool) : Option (List (Nat × Nat)) :=
  let inDump := match s.host.dump with
    | some (size, k) => k == key && 0x1FF00000000 ≤ addr && addr + len ≤ 0x1FF00000000 + size
    | none => false
  if key == Config.windowKey then
    if isWindow addr && (len == 0 || isWindow (addr + len - 1)) then some [(addr, len)] else none
  else if inDump then (if write then none else some [(addr, len)])
  else match s.host.keys.find? fun k => k.key == key && k.rights != 0 with
  | none => none
  | some k =>
    if !tb k.rights (b2n write) || addr < k.va || k.va + k.len < addr + len then none
    else
      let want : Want := { write := write, fetch := false, user := false }
      let parts := (List.range (cdiv (addr % 4096 + len) 4096)).map fun i =>
        let lo := if i == 0 then addr else addr / 4096 * 4096 + 4096 * i
        (vAddr s k.ctx want lo, Nat.min (addr + len - lo) (4096 - lo % 4096))
      if parts.any fun p => match p.1 with
        | some pa => isDark s pa
        | none => true
      then none else some (parts.map fun p => (p.1.getD 0, p.2))

/-- An sendReply goes to the requester. -/
def sendReply (s : State) (r : Reply) : State := { s with host := { s.host with replies := s.host.replies ++ [r] } }

/-- Bytes written at physical parts, in order. -/
def writeParts (s : State) : List (Nat × Nat) → List Byte → State
  | [], _ => s
  | p :: rest, bs =>
    let now := bs.take p.2
    let s1 := if isWindow p.1 then hostWindow s (p.1 - 0xFFF0000000000) now else writePhys s p.1 now noBlock 0
    writeParts s1 rest (bs.drop p.2)

/-- An RDMA request is performed as plain accesses at system scope and answered; a NAK changes no memory (R66, R306). -/
def performRdma (s : State) (r : RdmaIn) : State :=
  match r.parts with
  | none => sendReply s (.nak r.conn)
  | some l =>
    if l.any fun p => isDark s p.1 then sendReply s (.nak r.conn)
    else match r.data with
    | some bs => sendReply (writeParts s l bs) (.ack r.conn)
    | none => sendReply s (.data r.conn (l.flatMap fun p => physBytes s p.1 p.2))

/-- An RDMA request comes in: it is checked and performed, or waits in its engine for memory that a slot holds or a line with a
transaction at hand, as later ones of its connection do behind it (R50, R51, R66, R307). -/
def takeRdma (s : State) (r : RdmaIn) : State :=
  let memory := match r.parts with
    | none => false
    | some l => l.any fun p => !isWindow p.1
  if (memBusy s && memory) || s.host.inbound.any (fun x => x.conn == r.conn) then
    { s with host := { s.host with inbound := s.host.inbound ++ [r] } }
  else performRdma s r

/-- The oldest RDMA request that waits is performed once nothing holds it (R50, R307). -/
def serveInbound (s : State) : Host.Outcome State Fault Refusal :=
  match s.host.inbound with
  | [] => .next s
  | r :: rest => if memBusy s then .next s else .next (performRdma { s with host := { s.host with inbound := rest } } r)

/-- RDMA_WRITE, with or without immediate. -/
def execRdmaWrite (conn : Nat) (key : BitVec 32) (addr : BitVec 64) (data : List (BitVec 8)) (s : State) :
    Host.Outcome State Fault Refusal :=
  if !portUp s conn then .next s
  else .next (takeRdma s { conn := conn, parts := rdmaTarget s key addr.toNat data.length true, data := some data })

/-- READs of a connection that wait for their answer. -/
def readsWaiting (s : State) (conn : Nat) : Nat := (s.host.inbound.filter fun r => r.conn == conn && r.data.isNone).length

/-- RDMA_READ; a requester holds back a 17th outstanding one of its connection (R64, log 144). -/
def execRdmaRead (conn : Nat) (key : BitVec 32) (addr : BitVec 64) (len : Nat) (s : State) :
    Host.Outcome State Fault Refusal :=
  if !portUp s conn || 16 ≤ readsWaiting s conn then .next s
  else .next (takeRdma s { conn := conn, parts := rdmaTarget s key addr.toNat len false, data := none })

/-- SEND: the message is received on its reliable connection and acknowledged; the device gives it no other effect. -/
def execSend (conn : Nat) (_data : List (BitVec 8)) (s : State) : Host.Outcome State Fault Refusal :=
  if portUp s conn then .next (sendReply s (.ack conn)) else .next s

/-- CE_MARK_RECEIVED: a congestion notification goes out, and the connection's send rate is lowered by the firmware's rule (R64,
log 142). -/
def execCeMarkReceived (conn : Nat) (s : State) : Host.Outcome State Fault Refusal :=
  if !portUp s conn then .next s
  else
    let now := FMap.get 0 s.host.slowed conn
    .next { s with host := { s.host with
      cnps := s.host.cnps ++ [conn], slowed := FMap.set 0 s.host.slowed conn (now + 1 + Config.rateStep now) } }

/-! ### RESYNC, DUMP, ATTEST (R81, R84, R87) -/

/-- The pending faults: those that have ended a launch or a draw and whose launch is not yet retired. R81 does not define them; a fault
whose handler is at work has ended nothing and is not listed (R81, R315, R509; DESIGN CHOICE, log 159). -/
def pendingFaults (s : State) : List FaultRow := s.host.faults.filter fun f => (s.l f.lid).st != .retired

/-- The state code of a launch in RESYNC. -/
def resyncState (s : State) (lid : Nat) (l : Launch) : Nat :=
  let mine := (blocksOf s).filter fun b => b.2.lid == lid
  if l.st == .waiting then 0
  else if mine.any fun b => b.2.st == .admitted || b.2.st == .preempting then 2
  else if mine.any fun b => b.2.st == .preempted then (if l.coop && !couldHold s l then 4 else 3)
  else if l.cls == 0 then 1 else 2

/-- A launch as RESYNC lists it, with the place of its command among the entries read. -/
structure ListedLaunch where
  order : Nat
  q : Nat
  tag : Nat
  cls : Nat
  st : Nat
  bound : Nat := 0
  suspended : Bool := false
deriving DecidableEq, Repr

/-- A LAUNCH command that has been read and waits for earlier commands of its queue: it is queued, of its queue's class (R75, R81). -/
def heldLaunch (n : Nat) (q : Queue) : Option ListedLaunch :=
  match q.waiting with
  | some (false, w) =>
    if entKind w == 1 then some { order := q.readNo, q := n, tag := (entTag w).toNat, cls := q.cls, st := 0 } else none
  | _ => none

/-- The launches that RESYNC lists, in the order in which their commands were read (R81). -/
def listedLaunches (s : State) : List ListedLaunch :=
  let started := ((launchesOf s).filter fun e => e.2.draw.isNone && e.2.st != .retired).map fun e =>
    ({ order := e.2.order, q := e.2.q, tag := e.2.tag.toNat, cls := e.2.cls, st := resyncState s e.1 e.2
       bound := e.2.bound, suspended := e.2.suspended } : ListedLaunch)
  sortBy (fun a b => decide (a.order ≤ b.order)) (started ++ s.host.queues.filterMap fun e => heldLaunch e.1 e.2)

/-- The bytes of a snapshot. -/
def snapshot (s : State) : List Byte :=
  let ls := listedLaunches s
  let fs := pendingFaults s
  let size := 2320 + 32 * ls.length + 16 * fs.length
  let nx := nextSlot s
  leBytes 4 0x53594E43 ++ leBytes 4 1 ++ leBytes 4 size ++ leBytes 4 s.host.evseq.toNat ++ leBytes 4 s.pkg.frame.toNat ++
    leBytes 2 nx.1 ++ leBytes 1 nx.2 ++ leBytes 1 (onlineMask s) ++ leBytes 1 (b2n s.host.fatal.isSome) ++ leBytes 39 0 ++
    ((List.range 128).flatMap fun n =>
      let q := s.queue n
      leBytes 4 q.ridx.toNat ++ leBytes 4 q.widx.toNat ++ leBytes 4 q.cqidx.toNat ++ leBytes 1 (queueState s q) ++
        leBytes 1 q.cls ++ leBytes 1 q.ctx ++ leBytes 1 0) ++
    ((List.range 8).flatMap fun d => leBytes 8 (dstatWord (s.die d))) ++
    ((List.range 26).flatMap fun k => leBytes 4 (railWord s k)) ++ leBytes 24 0 ++
    leBytes 8 ls.length ++
    (ls.flatMap fun e => leBytes 4 e.q ++ leBytes 4 e.tag ++ leBytes 4 e.cls ++ leBytes 4 e.st ++
      leBytes 8 e.bound ++ leBytes 8 (b2n e.suspended)) ++
    leBytes 8 fs.length ++
    fs.flatMap fun f => leBytes 4 f.cause ++ leBytes 4 (f.core.getD 0xFFFFFFFF) ++ leBytes 4 f.q ++ leBytes 4 f.tag.toNat

/-- A result written in the queue's context: DONE, or XLATE. -/
def writeResult (n : Nat) (w : List DWord) (va : Nat) (bs : List Byte) (s : State) : State :=
  match vWrite s (s.queue n).ctx sysWrite va bs noBlock 0 with
  | none => finish n w 4 0 (checkDark s (s.queue n).ctx sysWrite va bs.length)
  | some s1 => finish n w 0 0 s1

/-- RESYNC: one snapshot, or SHORT with the size needed. -/
def execResync (n : Nat) (s : State) : Host.Outcome State Fault Refusal :=
  runAtOnce s n (fun w => entKind w == 6) fun w s =>
    let bs := snapshot s
    if entW w 2 < bs.length then finish n w 8 bs.length s else writeResult n w (entW w 1) bs s

/-- The 32-byte status record (R84). -/
def dumpRecord (s : State) : List Byte :=
  let h := s.host
  leBytes 4 0x44535441 ++ leBytes 4 1 ++ leBytes 4 (b2n h.dump.isSome + 2 * b2n h.released) ++
    leBytes 4 (match h.fatal with
      | some f => f.1 + 512
      | none => 0) ++
    leBytes 8 ((h.dump.map (·.1)).getD 0) ++ leBytes 4 ((h.dump.map fun d => d.2.toNat).getD 0) ++
    leBytes 4 ((h.fatal.map fun f => f.2.toNat).getD 0)

/-- DUMP_STATUS. -/
def execDumpStatus (n : Nat) (s : State) : Host.Outcome State Fault Refusal :=
  runAtOnce s n (fun w => entKind w == 7 && entW w 1 % 2 == 0) fun w s =>
    if entW w 2 % 16 != 0 then finish n w 3 0 s else writeResult n w (entW w 2) (dumpRecord s) s

/-- DUMP_RELEASE: the image is free and its key revoked. -/
def execDumpRelease (n : Nat) (s : State) : Host.Outcome State Fault Refusal :=
  runAtOnce s n (fun w => entKind w == 7 && entW w 1 % 2 == 1) fun w s =>
    finish n w 0 0 (if s.host.dump.isNone then s else { s with host := { s.host with dump := none, released := true } })

/-- A measurement register as its 32 bytes, the digest's first byte first. -/
def measureBytes (s : State) (k : Nat) : List Byte := (leBytes 32 (FMap.get 0 s.host.measure k).toNat).reverse

/-- The report but its signature: 0x170 bytes (R87). -/
def attestBody (s : State) (nonce : List Byte) : List Byte :=
  leBytes 4 0x41545354 ++ leBytes 4 1 ++ leBytes 8 0 ++ nonce ++ ((List.range 8).flatMap (measureBytes s)) ++
    ((List.range 32).map Config.identityKeyByte) ++ ((List.range 16).map fun k => Config.identityByte (16 + k)) ++
    leBytes 4 (onlineMask s) ++ leBytes 4 s.host.evseq.toNat ++ leBytes 8 0

/-- ATTEST. -/
def execAttest (n : Nat) (s : State) : Host.Outcome State Fault Refusal :=
  runAtOnce s n (fun w => entKind w == 8) fun w s =>
    let body := attestBody s ((List.range 4).flatMap fun k => leBytes 8 (entW w (k + 1)))
    writeResult n w (entW w 5) (body ++ (List.range 7856).map (Config.reportSignatureByte body)) s

/-! ### Fatal errors (R82, R83) -/

/-- The section of a dump image: type, die, index, bytes. -/
structure DumpSection where
  ty : Nat
  die : Nat
  idx : Nat
  bytes : List Byte
deriving DecidableEq, Repr

/-- The record of a group as a dump takes it: every register, whatever it would save for pre-emption (R83, R327). -/
def dumpGroup (s : State) (gid : Nat) : List Byte := groupRecord s gid (dumpState s gid).1 (dumpState s gid).2 true

/-- The resident groups of a core. -/
def coreGroups (s : State) (core : Nat) : List Nat :=
  s.groups.filterMap fun e => match e.2 with
    | some g => if g.core == core && (s.b g.bid).resident then some e.1 else none
    | none => none

/-- Tile memory of a core as the dump lays it out: the allocations one after another, zeros, and the barrier kilobyte. -/
def coreTile (s : State) (core : Nat) : List Byte :=
  let l := (blocksOn s core).flatMap fun b =>
    (b.2.cores.filter fun k => k.core == core).flatMap fun k => tileBytes k (s.l b.2.lid).tileb
  l ++ leBytes (2096128 - l.length) 0 ++ barKilobyte (s.core core)

/-- Numbers as words of eight bytes, after their count. -/
def dumpList (l : List Nat) : List Byte := leBytes 8 l.length ++ l.flatMap (leBytes 8)

/-- What a command processor holds of a queue: the command that holds it back, its copies, and the records that wait (R83). -/
def dumpQueue (q : Queue) : List Byte :=
  (match q.waiting with
    | none => dumpList []
    | some (started, w) => dumpList (b2n started :: w.map (·.toNat))) ++
    leBytes 8 q.copies.length ++ (q.copies.flatMap fun c => dumpList (c.1 :: c.2.map (·.toNat))) ++
    leBytes 8 q.records.length ++ (q.records.flatMap recordRow) ++ leBytes 8 q.seq ++ leBytes 8 q.readNo

/-- What a cluster's sequencer holds: CCLK, its clocks, budgets and reserve, the slot as it sees it, claims, tasks, completed tags
and the event queue (R83). -/
def dumpCluster (c : Cluster) : List Byte :=
  leBytes 8 (c.ratio + c.cls * 16 + b2n c.ratioNext.isSome * 256) ++ leBytes 8 c.fc ++ leBytes 8 c.ivl ++ leBytes 8 c.c0rsv.toNat ++
    dumpList (c.ratioNext.toList ++ c.c0next.toList.map (·.toNat)) ++
    dumpList [c.slot.seq, c.slot.kind, c.slot.follow, c.slot.len, b2n c.slot.opened, c.slot.wait, c.slot.ns, c.slot.passed] ++
    dumpList [b2n c.drain, c.stop, c.ebud, c.ibud, b2n c.noTask, c.slotFc] ++ dumpList c.claims ++
    dumpList (c.tasks.flatMap fun t => [t.lid, t.lin, (t.order.map (· + 1)).getD 0]) ++ dumpList c.tags ++
    dumpList (c.eq.map (·.toNat)) ++ dumpList (c.eqWait.map (·.toNat))

/-- The sections of the dump image; the pending frames of a core are those its groups hold and those of double faults, which
outlive their launches (R83, R315). No L2 line is dirty in the model: memory holds every write. -/
def dumpSections (s : State) : List DumpSection :=
  let core (c : Nat) (ty : Nat) (bs : List Byte) : DumpSection := { ty := ty, die := dieOf c, idx := c, bytes := bs }
  ((List.range 128).map fun q =>
    { ty := 1, die := 8, idx := q
      bytes := ((List.range 64).map fun k => windowByte s (0x100000 + 64 * q + k)) ++ dumpQueue (s.queue q) }) ++
  ((List.range 4).map fun p =>
    { ty := 1, die := 8, idx := 128 + p
      bytes := (List.range 4).flatMap fun c => dumpList (FMap.get none s.host.lastQueue (4 * p + c)).toList }) ++
  [{ ty := 2, die := 8, idx := 0
     bytes := ((List.range 64).map fun k => windowByte s (0x10000 + k)) ++
       ((List.range 104).map fun k => windowByte s (0x20000 + k)) ++ leBytes 4 s.pkg.frame.toNat ++ leBytes 4 s.pkg.ns }] ++
  ((List.range 96).map fun cl => { ty := 3, die := dieOfCluster cl, idx := cl, bytes := dumpCluster (s.cluster cl) }) ++
  ((List.range 384).map fun c => core c 4 ((coreGroups s c).flatMap (dumpGroup s))) ++
  ((List.range 384).map fun c => core c 5 (coreTile s c)) ++
  ((List.range 384).map fun c => core c 6 ((((coreGroups s c).filter fun g => (s.g g).held.isSome).flatMap fun g =>
    ((savedFrame s g).1).getD []) ++ ((s.host.frames.filter fun f => f.1 == c).flatMap fun f => f.2))) ++
  (List.range 96).map fun k => { ty := 7, die := dieOfCluster k, idx := k, bytes := [] }

/-- The section table: an entry of 32 bytes each, the offsets from the start of the image. -/
def dumpTable : Nat → List DumpSection → List Byte
  | _, [] => []
  | off, x :: rest =>
    leBytes 4 x.ty ++ leBytes 4 x.die ++ leBytes 8 x.idx ++ leBytes 8 off ++ leBytes 8 x.bytes.length ++
      dumpTable (off + x.bytes.length) rest

/-- The dump image (R83). -/
def dumpImage (s : State) (cause : Nat) : List Byte :=
  let secs := dumpSections s
  let body := dumpTable (4096 + 32 * secs.length) secs ++ secs.flatMap (·.bytes)
  let head := leBytes 4 0x44554D50 ++ leBytes 4 1 ++ leBytes 4 cause ++ leBytes 4 s.pkg.frame.toNat ++
    leBytes 8 (4096 + body.length) ++ leBytes 8 secs.length ++ sha256 body
  head ++ leBytes (4096 - head.length) 0 ++ body

/-- A fatal error: issue and engines stop, the image is written and its key registered, the dump event goes out, and every
queue is HALTED (R82). -/
def fatalError (s : State) (cause : Nat) : State :=
  if s.host.fatal.isSome then s
  else
    let img := dumpImage s cause
    let key := freshKey s
    let s1 := putMems { s with cur := none } 0x1FF00000000 img
    let s2 := { s1 with host := { s1.host with
      fatal := some (cause, s.pkg.frame), dump := some (img.length, key), keyCount := s.host.keyCount + 1 } }
    sendModule s2 6 (leBytes 8 img.length ++ leBytes 4 key.toNat ++ leBytes 4 cause)

/-- FATAL_ERROR: a machine check that firmware classes as fatal; a cause field holds none but the raised codes of class 11 (R82,
R310, R311). -/
def execFatalError (cause : BitVec 9) (s : State) : Host.Outcome State Fault Refusal :=
  .next (if within 0x160 0x16B cause.toNat then fatalError s cause.toNat else s)

/-- The place of an uncorrectable error, a line of 128 bytes within a unit: a unit is 2 MiB of memory, or one core's part of a
block's tile allocation, numbered 16 times the block number plus the core index (log 123). -/
def errorPlace (unit line : Nat) : Nat := unit * 2 ^ 14 + line

/-- The die of an uncorrectable error, or none where no memory of its kind stands at the place: the home agent's of an
HBM4E or LPDDR6 line, the slice's of an L2 line, the core's of tile memory, the FE die's of a save area or of command
processor and scheduler state (R13, R17, R19, R267, R311). -/
def errorDie (s : State) (detail place : Nat) : Option Nat :=
  let pa := 128 * place
  let tile := (s.b (place / 2 ^ 18)).cores[place / 2 ^ 14 % 16]?
  match detail with
  | 4 => if isHbm pa then some (homeDie pa) else none
  | 5 => if isLp pa then some (homeDie pa) else none
  | 6 => if isHbm pa || isLp pa then some (sliceOfPa s pa / 12) else none
  | 7 => tile.map fun k => dieOf k.core
  | 10 => if isFirmware pa then some (homeDie pa) else none
  | 11 => some 8
  | _ => none

/-- What an uncorrectable error leaves behind: a poisoned line, or a line of tile memory that cannot be read (R311, R312). -/
def poisonPlace (s : State) (detail place : Nat) : State :=
  match detail with
  | 7 => s.modBc (place / 2 ^ 18) (place / 2 ^ 14 % 16) fun k => { k with bad := NSet.add k.bad (place % 2 ^ 14) }
  | 11 => s
  | _ => { s with poison := FMap.set 0 s.poison place detail }

/-- UNCORRECTABLE_MEMORY_ERROR: the data is poisoned, and one machine check tells of it; firmware may class it as fatal (R82,
R311, R510). -/
def execUncorrectableMemoryError (detail unit line : Nat) (s : State) : Host.Outcome State Fault Refusal :=
  let place := errorPlace unit line
  match errorDie s detail place with
  | none => .next s
  | some die =>
    let s2 := sendCheck (poisonPlace s detail place) (352 + detail) die (leBytes 8 (128 * place))
    .next (if detail == 11 || Config.checkIsFatal (352 + detail) then fatalError s2 (352 + detail) else s2)

/-! ### Boot and sideband (R85, R86, R88) -/

/-- BOOT_STAGE_VERIFY: a verified stage extends its register; one that fails halts the boot, and the ports stay down. -/
def execBootStageVerify (stage : Nat) (image sig : List (BitVec 8)) (s : State) : Host.Outcome State Fault Refusal :=
  if 4 < stage || s.host.bootHalt.isSome then .next s
  else if Config.signatureValid image sig then
    let m := sha256 (measureBytes s stage ++ sha256 image)
    .next { s with host := { s.host with
      measure := FMap.set 0 s.host.measure stage (BitVec.ofNat 256 (leVal m.reverse)), booted := NSet.add s.host.booted stage } }
  else .next { s with host := { s.host with bootHalt := some stage } }

/-- PORT_ENABLE_MASK_WRITE. -/
def execPortEnableMaskWrite (mask : BitVec 8) (s : State) : Host.Outcome State Fault Refusal :=
  .next { s with host := { s.host with ports := mask } }

/-- What the sideband reads: the rail currents and temperatures, the DSTAT records, the boot status and the fatal flag (R82, R85,
R88). -/
structure SidebandView where
  currents : List Nat
  temperatures : List Nat
  dstat : List Nat
  /-- The stage that failed verification and halted the boot. -/
  failed : Option Nat
  verified : List Nat
  fatal : Bool
deriving DecidableEq, Repr

/-- A read of the sideband (R88; the bytes of its SMBus transfers are not given, log 141). -/
def sideband (s : State) : SidebandView :=
  { currents := (List.range 26).map (FMap.get 0 s.pkg.currents)
    temperatures := (List.range 9).map (FMap.get 0 s.pkg.temps)
    dstat := (List.range 8).map fun d => dstatWord (s.die d)
    failed := s.host.bootHalt
    verified := s.host.booted
    fatal := s.host.fatal.isSome }

/-- MODULE_RESET: the machine as reset leaves it; what is still to come from outside stays to come. -/
def execModuleReset (s : State) : Host.Outcome State Fault Refusal :=
  .next { State.reset with inbox := s.inbox, free := s.free }

end Sys2Proof.Machine
end

