-- ==== Sys2Proof/Machine/Blocks.lean ====
section
/-!
DEFINITION. The life of blocks: acceptance, placing, tile tasks, admission, throttling and retirement, and the event queues
(R92 to R98, R104, R105, R114, R115, R117 to R120, R298, R502).
-/

namespace Sys2Proof.Machine

/-! ### The launch queue (R96, R98) -/

/-- A launch has blocks that the distributors still place; a class-0 LAUNCH command is decided whole (R104). -/
def placesMore (s : State) (lid : Nat) (l : Launch) : Bool :=
  (l.st == .waiting || l.st == .running) && !l.ending && l.placed < l.blocks && !drawEnded s l && !isFragment s lid &&
    (l.cls != 0 || l.draw.isSome)

/-- The launch of a class whose blocks come next. -/
def classHead (s : State) (cls : Nat) : Option Nat :=
  (launchesOf s).find? (fun e => e.2.cls == cls && placesMore s e.1 e.2) |>.map (·.1)

/-- The clusters whose pending-task table may take the next task of a launch (R117). -/
def taskClusters (s : State) (l : Launch) : List Nat :=
  let named := if l.pin ≤ 95 then [l.pin] else if l.pin == 0xFE then [l.placed % 96] else List.range 96
  named.filter fun cl => (s.cluster cl).tasks.length < 64

/-- A position that a block takes: R99 to R103, and for class 0 the quarters. -/
def goodPosition (s : State) (l : Launch) (p : List Nat) : Bool := posFits s l p && p.all (quarterOk s l)

/-- A position that the next block of a launch takes now, with a private slot. -/
def takesNow (s : State) (l : Launch) (p : List Nat) : Bool := goodPosition s l p && (freePrivate s).isSome

/-- Blocks of a launch placed at some positions, in order; none where one does not qualify. -/
def placeMany (s : State) (lid : Nat) : List (List Nat) → Option State
  | [] => some s
  | p :: rest =>
    let l := s.l lid
    if (l.spots l.placed).contains p && takesNow s l p then placeMany (placeBlock s lid l.placed p) lid rest else none

/-- The positions that a distributor takes for the next `n` blocks of a launch: the first that a test lets each take. Fewer where
a block finds none. -/
def planPlaces (test : State → Launch → List Nat → Bool) (s : State) (lid : Nat) : Nat → List (List Nat)
  | 0 => []
  | n + 1 =>
    let l := s.l lid
    match (l.spots l.placed).find? (test s l) with
    | none => []
    | some p => p :: planPlaces test (placeBlock s lid l.placed p) lid n

/-- The blocks of a launch that are placed in one step: the next one, or the whole COOP grid (R98). -/
def placedAtOnce (l : Launch) : Nat := if l.coop then l.blocks - l.placed else 1

/-- The blocks of a launch enter pending-task tables (R117). -/
def Launch.tabled (l : Launch) : Bool := l.task

/-- The next block of a launch, or its whole COOP grid, can be placed now. -/
def canPlace (s : State) (lid : Nat) : Bool :=
  let l := s.l lid
  if l.tabled then !(taskClusters s l).isEmpty else (planPlaces takesNow s lid (placedAtOnce l)).length == placedAtOnce l

/-- The pending task of a cluster whose turn it is: its place in the table. -/
def nextTask (c : Cluster) : Option Nat :=
  let orders := c.tasks.filterMap (·.order)
  c.tasks.findIdx? fun t => t.order.isSome && t.order == some (minOr 0 orders)

/-- The clusters with a task whose turn it is, and the task. -/
def headTasks (s : State) : List (Nat × Task) :=
  s.clusters.filterMap fun e => (nextTask e.2).bind fun n => (e.2.tasks[n]?).map fun t => (e.1, t)

/-- The positions that a pending task of a cluster can take now. -/
def taskSpots (s : State) (cl : Nat) (t : Task) : List (List Nat) :=
  (s.l t.lid).positions.filter fun p => p.any (fun k => clusterOf k == cl) && goodPosition s (s.l t.lid) p

/-- A pending task of a cluster at some cores. -/
def standTask (s : State) (t : Task) (cores : List Nat) : State :=
  let s1 := placeBlock s t.lid t.lin cores
  s1.setLaunch t.lid { s1.l t.lid with placed := (s.l t.lid).placed }

/-- Pending tasks placed one after another, each at the first position that it finds; none where one finds none, or a private slot is
missing. -/
def standTasks (s : State) : List (Nat × Task) → Option State
  | [] => some s
  | x :: rest =>
    match taskSpots s x.1 x.2 with
    | [] => none
    | p :: _ => if (freePrivate s).isNone then none else standTasks (standTask s x.2 p) rest

/-- The pending tasks of a launch with their clusters, by block index. -/
def tasksOf (s : State) (lid : Nat) : List (Nat × Task) :=
  sortBy (fun a b => decide (a.2.lin ≤ b.2.lin)) (s.clusters.flatMap fun e => (e.2.tasks.filter fun t => t.lid == lid).map fun t => (e.1, t))

/-- The task of a COOP launch has its turn in every cluster in which the launch has one, and the whole grid finds its places: the state
with them taken (R98, R117; DEDUCED, log 133). -/
def standCoop (s : State) (lid : Nat) : Option State :=
  if s.clusters.all fun e => (e.2.tasks.all fun t => t.lid != lid) ||
      (((nextTask e.2).bind fun n => e.2.tasks[n]?).map (·.lid)) == some lid then
    let s1 := { s with clusters := s.clusters.map fun e => (e.1, { e.2 with tasks := e.2.tasks.filter fun t => t.lid != lid }) }
    standTasks s1 (tasksOf s lid)
  else none

/-- A pending task whose turn it is can be placed now; one of a COOP launch with the whole grid (R98, R117). -/
def taskFits (s : State) (cl : Nat) (t : Task) : Bool :=
  if (s.l t.lid).coop then (standCoop s t.lid).isSome else !(taskSpots s cl t).isEmpty && (freePrivate s).isSome

/-- A class-0 launch of a command that is still to be decided (R104). -/
def zeroWaits (s : State) : Bool := (launchesOf s).any fun e => e.2.cls == 0 && e.2.st == .waiting && e.2.draw.isNone

/-- No launch and no pending task of a class of lower number can place a block now, and no class-0 launch is still to be decided
(R96). -/
def noneHigher (s : State) (cls : Nat) : Bool :=
  ((cls == 0 || !zeroWaits s) && (List.range cls).all fun c => match classHead s c with
      | none => true
      | some lid => !canPlace s lid) &&
    (headTasks s).all fun x => decide (cls ≤ (s.l x.2.lid).cls) || !taskFits s x.1 x.2

/-- A launch or a pending task of a class waits for room, and for nothing else: this is what pre-empts a block of a lower class
(R166). Class-0 work never does (R103). -/
def needsRoom (s : State) (cls : Nat) : Bool :=
  cls != 0 &&
    ((match classHead s cls with
      | none => false
      | some lid =>
        let l := s.l lid
        !l.tabled && (planPlaces goodPosition s lid (placedAtOnce l)).length != placedAtOnce l) ||
      (headTasks s).any fun x => (s.l x.2.lid).cls == cls && (freePrivate s).isSome && !taskFits s x.1 x.2)

/-- The next order number of the placeable tasks of a cluster. -/
def nextOrder (l : List Task) : Nat := (l.map fun t => (t.order.map (· + 1)).getD 0).foldl max 0

/-- A task is placeable: every predecessor tag is in its cluster's table. The tasks of a COOP launch, which are placed in one step, become
so together: once the whole grid stands in the tables, and each of them has its tags (R98, R117; DEDUCED, log 133). -/
def taskReady (s : State) (c : Cluster) (t : Task) : Bool :=
  let l := s.l t.lid
  !t.held &&
    if l.coop then l.placed == l.blocks && s.clusters.all fun e => e.2.tasks.all fun x => x.lid != t.lid || tagsReady e.2.tags l x.lin
    else tagsReady c.tags l t.lin

/-- The tasks of a cluster that have become placeable take their turns; those that become so at once by launch and index (R117). -/
def orderCluster (s : State) (c : Cluster) : Cluster :=
  let new := sortBy (fun a b => decide (a.lid < b.lid) || (a.lid == b.lid && decide (a.lin ≤ b.lin)))
    (c.tasks.filter fun t => t.order.isNone && taskReady s c t)
  { c with tasks := c.tasks.map fun t => match new.findIdx? fun x => x == t with
      | none => t
      | some k => { t with order := some (nextOrder c.tasks + k) } }

/-- The tasks of every cluster that have become placeable take their turns. -/
def orderTasks (s : State) : State := { s with clusters := s.clusters.map fun e => (e.1, orderCluster s e.2) }

/-- A task enters the pending-task table of a cluster. It counts as placed, in the order of its launch and class, when it enters, since
R96 does not say whether that is when it takes its cores (DESIGN CHOICE, log 154). -/
def enterTask (s : State) (lid cl : Nat) : State :=
  let l := s.l lid
  let c := s.cluster cl
  let s1 := s.setCluster cl { c with tasks := c.tasks ++ [{ lid := lid, lin := l.placed, order := none }] }
  orderTasks (s1.setLaunch lid { l with placed := l.placed + 1, st := .running })

/-- BLOCK_PLACE: the next block of a launch, or its whole COOP grid, takes its place; a tile task is entered for a cluster,
which its one position names (R96 to R103, R117). -/
def execBlockPlace (lid : Nat) (places : List (List Nat)) (s : State) : Host.Outcome State Fault Refusal := working s <|
  let l := s.l lid
  if classHead s l.cls != some lid || !noneHigher s l.cls then .next s
  else if l.tabled then
    match places with
    | [[cl]] => if (taskClusters s l).contains cl then .next (enterTask s lid cl) else .next s
    | _ => .next s
  else if places.length != placedAtOnce l then .next s
  else .next ((placeMany s lid places).getD s)

/-- TASK_PLACE: the first placeable task of a cluster takes its cores there, one of a COOP launch with its whole grid (R98, R117). -/
def execTaskPlace (cl : Nat) (n : Nat) (cores : List Nat) (s : State) : Host.Outcome State Fault Refusal := working s <|
  let c := s.cluster cl
  match c.tasks[n]? with
  | none => .next s
  | some t =>
    let l := s.l t.lid
    if nextTask c != some n || !noneHigher s l.cls then .next s
    else if l.coop then .next ((standCoop s t.lid).getD s)
    else if !(taskSpots s cl t).contains cores || (freePrivate s).isNone then .next s
    else .next (standTask (s.setCluster cl { c with tasks := c.tasks.eraseIdx n }) t cores)

/-- EVENT_QUEUE_DEQUEUE: the oldest entry leaves the queue; with STAT 0 its tag's bit is set (R119, R120). -/
def execEventQueueDequeue (cl : Nat) (s : State) : Host.Outcome State Fault Refusal := working s <|
  let c := s.cluster cl
  match c.eq with
  | [] => .next s
  | e :: rest =>
    let tags := if bits e.toNat 35 34 == 0 then NSet.add c.tags (bits e.toNat 63 48) else c.tags
    let c1 := { c with eq := rest ++ c.eqWait.take 1, eqWait := c.eqWait.drop 1, tags := tags }
    .next (clearTags (orderTasks (s.setCluster cl c1)))

/-! ### Admission (R93, R94, R105, R114, R115, R502) -/

/-- A group without a thread, until it receives a wave (R502). -/
def dormant (g : Group) : Group :=
  { g with alive := 0, narrows := g.narrows.map fun n => { n with st := .exited } }

/-- The groups of a fragment block that run waves stand dormant: those of the last stage (R502). -/
def fragmentReady (s : State) (bid : Nat) : State :=
  let lid := (s.b bid).lid
  if !isFragment s lid then s
  else (groupsOf s bid).foldl (fun st gid => st.modGroup gid fun g => if g.stage + 1 == (s.l lid).nstage then dormant g else g) s

/-- The end of a launch whose argument words cannot be read (R94); a draw ends by fault with it, reported as a page fault of a
read without a core: R509 names no cause for words that no instruction reads (DESIGN CHOICE, log 139). -/
def endUnread (s : State) (lid : Nat) : State :=
  let l := s.l lid
  match l.draw with
  | some d => endDraw s d 0x64 none
  | none => stopLaunchGroups ((checkDark s l.ctx sysRead l.args (4 * l.argn)).setLaunch lid { l with xlate := true }) lid

/-- CLASS0_ADMISSION: the oldest waiting class-0 launch is accepted, with every block placed and admitted, or refused with a
reason; it stalls while a pending-task table has no room for its tasks (R104 to R106, R117). -/
def execClass0Admission (lid : Nat) (places : List (List Nat)) (s : State) : Host.Outcome State Fault Refusal := working s <|
  let l := s.l lid
  let oldest := (launchesOf s).find? fun e => e.2.cls == 0 && e.2.st == .waiting && e.2.draw.isNone
  if oldest.map (·.1) != some lid || (memHeld s && l.argn != 0) then .next s
  else
    let args := argWords s l
    match decide0 s lid (args.getD []) places with
    | none => .next s
    | some (.error r) =>
      .next (releaseLaunch (complete (s.setLaunch lid { l with st := .retired }) l.q l.tag l.notify 1 r) l.q)
    | some (.ok (s1, b)) =>
      if s1.clusters.any fun e => 64 < e.2.tasks.length then .next s
      else if args.isNone then
        .next (settleLaunch (acceptRecord ((checkDark s l.ctx sysRead l.args (4 * l.argn)).setLaunch lid { l with bound := b, st := .running, xlate := true }) l.q l.tag b) lid)
      else .next (acceptRecord (s1.setLaunch lid { s1.l lid with bound := b, st := .running }) l.q l.tag b)

/-- BLOCK_ADMIT: a placed block that fits the budgets is admitted, and its groups come to be, those of a fragment block also once its
draw has ended normally, for its earlier stages run once for the block (R502); no tile task in an interval
in which a rail of the cluster lost a phase, and none of class 0 before its predecessor tags (R41, R94, R114, R117, R163). -/
def execBlockAdmit (bid : Nat) (s : State) : Host.Outcome State Fault Refusal := working s <|
  let b := s.b bid
  let l := s.l b.lid
  let cores := b.cores.map (·.core)
  if b.st != .placed || l.ending || !powerOk s (chargesDue s b) then .next s
  else if tasksBarred s l cores then .next s
  else if (s.group (gidOf bid 0)).isSome then .next (admitBlock s bid [])
  else if l.cls == 0 && tagsMissing s l b.lin cores then .next s
  else if memHeld s && l.argn != 0 then .next s
  else match argWords s l with
  | none => .next (endUnread s b.lid)
  | some args => .next (fragmentReady (leaveTable (admitBlock s bid args) b.lid b.lin) bid)

/-- BLOCK_THROTTLE: the activity monitor finds a block above its charge; blocks of the default charge never are (R115). -/
def execBlockThrottle (bid : Nat) (s : State) : Host.Outcome State Fault Refusal := working s <|
  let b := s.b bid
  if (b.st != .admitted && b.st != .preempting) || (s.l b.lid).energy == 0 then .next s
  else .next (s.setBlock bid { b with
    throttled := b.cores.foldl (fun m k => NSet.add m (clusterOf k.core)) b.throttled })

/-! ### Retirement (R97, R118, R298, R474) -/

/-- The groups of a block, dispatched ones included. -/
def allGroups (s : State) (bid : Nat) : List (Nat × Group) :=
  s.groups.filterMap fun e => match e.2 with
    | some g => if g.bid == bid then some (e.1, g) else none
    | none => none

/-- A fragment block still has work: a tile of its draw that is not retired, or, with several stages, its tile (R502,
R503). -/
def fragmentBusy (s : State) (b : Block) : Bool :=
  match b.draw with
  | none => false
  | some k => match s.draw k with
    | none => false
    | some d =>
      d.frag == b.lid && d.ended == 0 &&
        (if (s.l b.lid).nstage == 1 then !d.binned || d.tiles.any fun e => e.2.st != .retired && e.2.st != .empty
         else d.tiles.any fun e => b.cores.any fun c => e.2.owner == some c.core)

/-- A block meets the conditions of R97. -/
def blockDone (s : State) (bid : Nat) (b : Block) : Bool :=
  ((allGroups s bid).all fun e => e.2.alive == 0 && e.2.pend.isEmpty && e.2.rays.isEmpty && e.2.ops.all (·.complete)) &&
    (s.draws.all fun e => match e.2 with
      | some d => d.issuer != bid || d.ended != 0
      | none => true) && !fragmentBusy s b

/-- The faults of a block's operations that no WAITC has covered, with their core (R298). -/
def uncovered (s : State) (bid : Nat) : List (Nat × Trap) :=
  (allGroups s bid).flatMap fun e => e.2.ops.filterMap fun o => o.fault.map fun t => (e.2.core, t)

/-- What a block must do before it leaves its cores is held: a queued store whose line has not come, or behind a slot a queued store, a
load that has still to land, or a DIRTY stash line (R50, R54, R264, R308). -/
def blockHeld (s : State) (bid : Nat) : Bool :=
  (allGroups s bid).any (fun e => groupHeld s e.1) || (memHeld s && (s.b bid).cores.any fun k => k.stashes.any (·.dirty))

/-- The launch of a block is marked with the faults that its operations leave. -/
def reportUncovered (s : State) (lid : Nat) (l : List (Nat × Trap)) : State :=
  l.foldl (fun st x =>
    let k := st.l lid
    let s1 := markFaulted st lid x.2.cause x.2.faddr
    { s1 with host := { s1.host with faults := s1.host.faults ++
      [{ cause := x.2.cause, core := some x.1, q := k.q, tag := k.tag, lid := lid }] } }) s

/-- Nothing of a block stands on its cores any more: its groups are gone, its pairings released. -/
def clearBlock (s : State) (bid : Nat) : State :=
  let b := s.b bid
  let gone := (allGroups s bid).map (·.1)
  let s1 := b.cores.foldl (fun st k =>
    let c := st.core k.core
    st.setCore k.core { c with
      bound := if c.bound == some bid then none else c.bound
      array := c.array.filter fun x => !gone.contains x.1
      accEcc := if c.bound == some bid then [] else c.accEcc }) s
  gone.foldl (fun st g => { st with groups := FMap.set none st.groups g none }) s1

/-- The event entry of a retired tile task, in the queue of its leader core's cluster, whose CORE it carries: R118 does not name the
queue of a block that spans clusters (DESIGN CHOICE, log 155). -/
def taskEvent (s : State) (b : Block) : State :=
  let l := s.l b.lid
  let core := (b.cores.getD 0 BCore.blank).core
  if !l.task || !l.doneValid then s
  else
    let stat := if l.aborted then 2 else if l.faulted || l.xlate then 1 else 0
    pushEvent s (clusterOf core) (eqEntry (l.doneTag + if l.doneIdx then b.lin else 0) core 5 stat)

/-- The launch of a block ends, or the draw that it serves has ended. -/
def launchOver (s : State) (lid : Nat) : Bool := (s.l lid).ending || drawEnded s (s.l lid)

/-- A block retires. A fault of an operation that no WAITC covered ends its launch: the launch's other groups stop (R298,
R331). -/
def retireBlock (s : State) (bid : Nat) : State :=
  let b := s.b bid
  let s1 := (allGroups s bid).foldl (fun st e => drainAll st e.1) s
  let left := uncovered s1 bid
  let s2 := match left, (s1.l b.lid).draw.bind s1.draw with
    | [], _ => s1
    | _, none => stopLaunch (reportUncovered s1 b.lid left) b.lid
    | x :: _, some d =>
      if d.ended == 0 then endDraw s1 ((s1.l b.lid).draw.getD 0) x.2.cause (some x.1) else reportUncovered s1 d.lid left
  let s3 := clearBlock s2 bid
  let s4 := s3.setBlock bid { b with
    st := .retired, cores := b.cores.map (fun k => { BCore.blank with core := k.core }), seats := [], charge := []
    throttled := [], rv := none }
  let s5 := taskEvent s4 b
  let l := s5.l b.lid
  let s6 := dropTasks (s5.setLaunch b.lid { l with retired := l.retired + 1 }) (if l.ending then b.lid else s.nextLaunch)
  settleLaunch (clearTags s6) b.lid

/-- BLOCK_RETIRE: a block that meets every condition retires, and with the last one its launch; a block of a launch that
ends retires from wherever it stands, and one of a draw that has ended normally once it has been admitted (R502). A slot holds its
write-backs (R50, R97, R331). -/
def execBlockRetire (bid : Nat) (s : State) : Host.Outcome State Fault Refusal := working s <|
  match s.block bid with
  | none => .next s
  | some b =>
    let runs := b.st == .admitted || b.st == .preempting
    let came := (s.l b.lid).ending || (launchOver s b.lid && (s.group (gidOf bid 0)).isSome)
    if b.st == .retired || !(runs || came) || !blockDone s bid b || blockHeld s bid then .next s
    else .next (retireBlock s bid)

end Sys2Proof.Machine
end

