-- ==== Sys2Proof/Machine/Control.lean ====
section
/-!
DEFINITION. Row 0x0 of the opcode map: control flow (R206 to R208, R316, R374 to R383).
-/

namespace Sys2Proof.Machine

/-- A branch's encoding checks after its target field: four await slots, then FN (R351, R356). -/
def tailB (f : FmtB) (fnOk : Bool) : List (Option Nat) := f.await.map awaitChk ++ [need 8 fnOk]

/-- The encoding checks of an immediate-target branch: SLOT, await slots, FN (R351). -/
def encImmB (f : FmtB) (fnOk : Bool) : List (Option Nat) := need 23 (f.tgt.toNat % 8 < 5) :: tailB f fnOk

/-- The source field of a register target, bits [78:67] of the word (R352). -/
def tgtSrc (f : FmtB) : Src := decodeSrc (f.tgt.extractLsb' 14 12)

/-- The encoding checks of a register-target branch: the field names v or s, [66:53] is 0 (R352). -/
def encRegB (f : FmtB) (fnOk : Bool) : List (Option Nat) :=
  need 21 (({ v := true, s := true } : Acc).takes (tgtSrc f).reg) :: need 21 (f.tgt.toNat % 2 ^ 14 == 0) ::
    tailB f fnOk

/-- The target PC of an immediate-target branch (R375). -/
def immTarget (u : Ux) (f : FmtB) : Nat :=
  let foff : Int := (f.tgt.extractLsb' 3 23).toInt
  wrap 57 ((u.pc / 64 * 64 : Nat) + foff * 64) + f.tgt.toNat % 8

/-- The effect of a branch that takes some lanes to their targets, with its terminator fields (R183, R207, R375). -/
def branchEff (st : State) (f : FmtB) (moves : List (Pos × Nat)) : Eff :=
  { st := st, moves := moves, ends := true, splits := true, await := f.await, safe := f.safe }

/-- The fault of a register target of a lane (R376), or none. -/
def targetFault (s : State) (gid t : Nat) : Option Nat :=
  if t / 2 ^ 57 != 0 || bits t 5 3 != 0 then some 22
  else if 4 < t % 8 then some 23
  else if !targetOk s gid t then some 22 else none

/-- The moves of lanes that a branch takes to one target, or 0.22 when its TGT bit is clear (R336). -/
def takeTo (s : State) (l : List Pos) (t : Nat) : Except Stop (List (Pos × Nat)) :=
  match l with
  | [] => .ok []
  | p :: _ => if targetOk s p.gid t then .ok (l.map fun q => (q, t)) else trapOf 22

/-- The moves of lanes that name their own targets, the lowest failing lane deciding (R376). -/
def takeOwn (s : State) (l : List Pos) (t : Pos → Nat) : Except Stop (List (Pos × Nat)) :=
  match firstSome (l.map fun p => targetFault s p.gid (t p)) with
  | some c => trapOf c
  | none => .ok (l.map fun p => (p, t p))

/-- NOP: unused fields hold 0x3FF (R374, R345). -/
def shapeNop (f : FmtA) : Shape :=
  { enc := [unusedReg 9 f.dst, cwChk false f.cw, unusedSrc 10 f.sa, unusedSrc 11 f.sb, unusedSrc 12 f.sc,
      need 8 (f.fn == 0)] }

/-- NOP: nothing beyond what every instruction does (R381). -/
def execNop (h : Hdr) (f : FmtA) (s : State) : Host.Outcome State Fault Refusal :=
  issue h (shapeNop f) s fun _ s => .ok { st := s }

/-- COLO: END is 1, await codes, [6:0] zero (R207, R353). -/
def shapeColo (h : Hdr) (f : FmtC) : Shape :=
  { enc := need 20 h.fin :: f.await.map awaitChk ++ [need 20 (f.rsv == 0)] }

/-- COLO: ends the quire under its await list (R207, R208). -/
def execColo (h : Hdr) (f : FmtC) (s : State) : Host.Outcome State Fault Refusal :=
  issue h (shapeColo h f) s fun _ s =>
    .ok { st := s, ends := true, await := f.await, safe := f.safe, hint := f.yieldHint }

/-- BRA. -/
def shapeBra (f : FmtB) : Shape := { enc := encImmB f (f.fn == 0) }

/-- BRA takes its active lanes (R375). -/
def execBra (h : Hdr) (f : FmtB) (s : State) : Host.Outcome State Fault Refusal :=
  issue h (shapeBra f) s fun u s =>
    match takeTo s u.active (immTarget u f) with
    | .error e => .error e
    | .ok m => .ok (branchEff s f m)

/-- BRX and RET: a pair holds the target (R376). -/
def shapeRegB (f : FmtB) : Shape := { enc := encRegB f (f.fn == 0), srcs := [useOf (tgtSrc f) 2] }

/-- A branch to the lanes' own targets (R376). -/
def branchOwn (f : FmtB) (u : Ux) (s : State) : Res :=
  match takeOwn s u.active fun p => (rd64 s u (tgtSrc f).reg p).toNat with
  | .error e => .error e
  | .ok m => .ok (branchEff s f m)

/-- BRX. -/
def shapeBrx (f : FmtB) : Shape := shapeRegB f

/-- BRX (R376). -/
def execBrx (h : Hdr) (f : FmtB) (s : State) : Host.Outcome State Fault Refusal :=
  issue h (shapeBrx f) s fun u s => branchOwn f u s

/-- RET. -/
def shapeRet (f : FmtB) : Shape := shapeRegB f

/-- RET: as BRX (R376). -/
def execRet (h : Hdr) (f : FmtB) (s : State) : Host.Outcome State Fault Refusal :=
  issue h (shapeRet f) s fun u s => branchOwn f u s

/-- The register that FN[8:0] names: its class in FN[8], its number in FN[7:0]; s160 to s191 are specials (R193, R377,
R378). -/
def fnReg (f : FmtB) : Opnd :=
  let n := f.fn.toNat % 256
  if !f.fn.getLsbD 8 then .v n
  else if 160 ≤ n && n < 192 then .spec (n - 160)
  else .s n

/-- The return link written to the active lanes, or once for an s pair (R377). -/
def writeLink (s : State) (u : Ux) (f : FmtB) : State :=
  (workLanes u (isScalar (fnReg f))).foldl (fun st p => wr64 st (fnReg f) p (BitVec.ofNat 64 (nextPc u.pc))) s

/-- CALL: FN[10:9] is 0; the link is a pair (R377). -/
def shapeCall (f : FmtB) : Shape :=
  { enc := encImmB f (f.fn.toNat < 512), dsts := [{ o := fnReg f, n := 2 }] }

/-- CALL: the link, then the branch of BRA (R377). -/
def execCall (h : Hdr) (f : FmtB) (s : State) : Host.Outcome State Fault Refusal :=
  issue h (shapeCall f) s fun u s =>
    match takeTo s u.active (immTarget u f) with
    | .error e => .error e
    | .ok m => .ok (branchEff (writeLink s u f) f m)

/-- CALLX: FN[10:9] is 0; the link and the target are pairs (R377). -/
def shapeCallx (f : FmtB) : Shape :=
  { enc := encRegB f (f.fn.toNat < 512), srcs := [useOf (tgtSrc f) 2], dsts := [{ o := fnReg f, n := 2 }] }

/-- CALLX: the link, then the branch of BRX; the target is read before the link is written (R377). -/
def execCallx (h : Hdr) (f : FmtB) (s : State) : Host.Outcome State Fault Refusal :=
  issue h (shapeCallx f) s fun u s =>
    match takeOwn s u.active fun p => (rd64 s u (tgtSrc f).reg p).toNat with
    | .error e => .error e
    | .ok m => .ok (branchEff (writeLink s u f) f m)

/-- LOOP: FN[10:9] is 0; the counter is read and written (R378). -/
def shapeLoop (f : FmtB) : Shape :=
  { enc := encImmB f (f.fn.toNat < 512), srcs := [{ o := fnReg f }], dsts := [{ o := fnReg f }] }

/-- LOOP: the counter less one, and the branch of the lanes whose counter is not 0 (R378). -/
def execLoop (h : Hdr) (f : FmtB) (s : State) : Host.Outcome State Fault Refusal :=
  issue h (shapeLoop f) s fun u s =>
    let o := fnReg f
    let st := (workLanes u (isScalar o)).foldl (fun st p => wr st o p (rd s u o p - 1)) s
    match takeTo s (u.active.filter fun p => rd s u o p - 1 != 0) (immTarget u f) with
    | .error e => .error e
    | .ok m => .ok (branchEff st f m)

/-- JMPT: the index is one register v or s; FN[10:8] is 0 (R380). -/
def shapeJmpt (f : FmtB) : Shape := { enc := encRegB f (f.fn.toNat < 256), srcs := [useOf (tgtSrc f) 1] }

/-- JMPT: each active lane goes to the entry folio of its index, the last one for an index out of the table (R380). -/
def execJmpt (h : Hdr) (f : FmtB) (s : State) : Host.Outcome State Fault Refusal :=
  issue h (shapeJmpt f) s fun u s =>
    let entry (p : Pos) : Nat :=
      (u.pc / 64 * 64 + 64 * (1 + min (rd s u (tgtSrc f).reg p).toNat (f.fn.toNat % 256 + 1))) % 2 ^ 57
    match takeOwn s u.active entry with
    | .error e => .error e
    | .ok m => .ok (branchEff s f m)

/-- BANY and BALL: lane, group or set scope (R379). -/
def shapeVote (f : FmtB) : Shape := { scopes := [.lane, .group, .set], enc := encImmB f (f.fn == 0) }

/-- A vote: every issuing lane of the unit moves to the target, or every one to the next instruction (R379). -/
def vote (f : FmtB) (u : Ux) (s : State) (taken : Bool) : Res :=
  if taken && !u.issuing.isEmpty then
    match takeTo s u.issuing (immTarget u f) with
    | .error e => .error e
    | .ok m => .ok (branchEff s f m)
  else .ok (branchEff s f [])

/-- BANY. -/
def shapeBany (f : FmtB) : Shape := shapeVote f

/-- BANY: taken when at least one vote is true (R379). -/
def execBany (h : Hdr) (f : FmtB) (s : State) : Host.Outcome State Fault Refusal :=
  issue h (shapeBany f) s fun u s => vote f u s (!u.active.isEmpty)

/-- BALL. -/
def shapeBall (f : FmtB) : Shape := shapeVote f

/-- BALL: taken when every vote is true (R379). -/
def execBall (h : Hdr) (f : FmtB) (s : State) : Host.Outcome State Fault Refusal :=
  issue h (shapeBall f) s fun u s => vote f u s (u.active.length == u.issuing.length)

/-- EXIT. -/
def shapeExit (f : FmtA) : Shape := shapeNop f

/-- EXIT: the active threads leave for good (R165, R381). -/
def execExit (h : Hdr) (f : FmtA) (s : State) : Host.Outcome State Fault Refusal :=
  issue h (shapeExit f) s fun u s => .ok { st := s, exits := u.active }

/-- YIELD. -/
def shapeYield (f : FmtA) : Shape := shapeNop f

/-- YIELD: ends the quire; with an active lane, the next quire goes to the next-lowest PC (R187, R381). -/
def execYield (h : Hdr) (f : FmtA) (s : State) : Host.Outcome State Fault Refusal :=
  issue h (shapeYield f) s fun u s => .ok { st := s, ends := true, yields := !u.active.isEmpty }

/-- A format I instruction without operands: unused fields hold 0x3FF, and IMM is legal (R345, R374). -/
def shapeBare (f : FmtI) (immOk : Bool) : Shape :=
  { enc := [unusedReg 9 f.dst, cwChk false f.cw, unusedSrc 10 f.sa, need 13 immOk, need 8 (f.fn == 0)] }

/-- TRAP: IMM[31:5] is 0 (R382). -/
def shapeTrap (f : FmtI) : Shape := shapeBare f (f.imm.toNat < 32)

/-- TRAP n: raises 10.n with SRC set, in an active lane (R382). -/
def execTrap (h : Hdr) (f : FmtI) (s : State) : Host.Outcome State Fault Refusal :=
  issue h (shapeTrap f) s fun u s =>
    if u.active.isEmpty then .ok { st := s }
    else .error (.trap { cause := 0x140 + f.imm.toNat % 32, src := true })

/-- BKPT: IMM[31:16] is 0 (R382). -/
def shapeBkpt (f : FmtI) : Shape := shapeBare f (f.imm.toNat < 65536)

/-- BKPT: raises 10.1 in an active lane (R382). -/
def execBkpt (h : Hdr) (f : FmtI) (s : State) : Host.Outcome State Fault Refusal :=
  issue h (shapeBkpt f) s fun u s => if u.active.isEmpty then .ok { st := s } else trapOf 0x141

/-- RFT: system mode; no IMM bit (R383). -/
def shapeRft (f : FmtI) : Shape := { shapeBare f (f.imm == 0) with sys := true }

/-- What RFT returns to when nothing is held aside: the group as it stands. -/
def heldOf (g : Group) (u : Ux) : Held :=
  match g.held with
  | some x => x
  | none => { pcs := g.pcs, narrows := g.narrows, members := [], trap := { cause := 0 }, wide := false,
              scope := .lane, slices := u.slices }

/-- The PC of the faulting instruction as the core holds it. -/
def heldPc (g : Group) (x : Held) : Nat :=
  let g0 := { g with pcs := x.pcs, narrows := x.narrows }
  g0.issuePc (g0.nar x.slices)

/-- RFT: the group returns with its frame; a cause that is not resumable ends the launch FAULTED (R316, R329, R383). It waits while a
slot holds the frame or an older store (R54). -/
def execRft (h : Hdr) (f : FmtI) (s : State) : Host.Outcome State Fault Refusal :=
  issue h (shapeRft f) s fun u s => ordered s u fun s0 =>
    let g := s0.g u.gid
    let x := heldOf g u
    if vHeld s0 g.core (s0.launchOf g.bid).ctx sysRead (frameVa s0 g) 1152 then .error (.wait .slot)
    else match vRead s0 (s0.launchOf g.bid).ctx sysRead (frameVa s0 g) 1152 with
    | none => .error (.trap { cause := memCause 1 0, faddr := frameVa s0 g })
    | some bs =>
      let fr := readFrame bs
      if !resumable x.trap.cause then .ok { st := endLaunch s0 u.gid x.trap.cause x.trap.faddr, jumped := true }
      else
        let reord := (peekWord s0 u.gid (heldPc g x)).toNat / 2 ^ 88 == 0x78 && x.scope == .block
        .ok { st := resumeGroup s0 u.gid x fr (wordEnds (peekWord s0 u.gid fr.pc)) reord, jumped := true }

end Sys2Proof.Machine
end

