-- ==== Sys2Proof/Machine/Preempt.lean ====
section
/-!
DEFINITION. Pre-emption: how the groups of a block stop, SAVE and RESTORE routines, the save, and the resumption elsewhere
(R34, R166, R167, R264, R319, R322 to R330, R470, R503).
-/

namespace Sys2Proof.Machine

/-! ### Stopping (R166, R322 to R325) -/

/-- The STATE code with which a narrow group would stop now, if it stops (R166, R325, R327). -/
def narrowStop (s : State) (gid : Nat) (g : Group) (n : Narrow) : Option Nat :=
  if (g.lanesIn n.slices).isEmpty then some 5
  else if g.sys && (g.susp.isEmpty || g.held.isSome) then (if stopsAt s gid g n then some 6 else none)
  else if !g.susp.isEmpty || g.halted then some 4
  else if routineEnd g n then some 1
  else match n.st with
  | .joinWait => some 3
  | .parked => if waitHolds s gid n.slices n.why then none else some 2
  | .await => if stopsAt s gid g n then some 0 else if awaitFull s gid n then none else some 1
  | .ready => if stopsAt s gid g n then some 0 else none
  | .exited => some 5

/-- Every lane of a group at a PC, with one narrow group at the start of its quire. -/
def jumpTo (g : Group) (pc : Nat) : Group :=
  { g with
    pcs := (List.range 32).foldl (fun m k => if g.alive.getLsbD k then FMap.set 0 m k pc else m) g.pcs
    narrows := g.narrows.map fun n =>
      { n with idx := 0, st := if n.st == .exited then .exited else .ready, why := .idle, await := [], safe := false, colo := false } }

/-- The index of the safe point that a group stands at. -/
def safeIndex (s : State) (g : Group) : Nat :=
  let pc := ((g.narrows.find? fun n => !(g.lanesIn n.slices).isEmpty).map g.issuePc).getD 0
  ((s.launchOf g.bid).safes.findIdx? fun p => p.pc == pc).getD 0

/-- A routine of a group has ended: every narrow group stands after its first COLO with SAFE = 1 (R323). -/
def routineOver (g : Group) : Bool := !g.sys && (liveNarrows g).all (routineEnd g)

/-- A group whose routine has ended: its threads stand at the safe point again as the one unit that they were there (R323, R324). -/
def leaveRoutine (pcs : FMap Nat) (g : Group) : Group :=
  { g with
    pcs := pcs, routine := none, stop := none
    narrows := [{ Narrow.fresh 255 with
      st := if g.alive == 0 then .exited else .ready, last := (g.narrows.map (·.last)).foldl max 0 }] }

/-- A group stops for pre-emption where every narrow group does: at a lone safe point through its SAVE routine, if there is
one. A stopped group that another member's execution has set going inside a quire goes on (R166, R323). -/
def stopGroup (s : State) (gid : Nat) (g : Group) : Group :=
  let live := liveNarrows g
  match g.stop with
  | some _ => if live.any fun n => n.st == .ready && n.idx != 0 then { g with stop := none } else g
  | none =>
    let codes := live.map (narrowStop s gid g)
    if codes.any Option.isNone then g
    else
      let l := codes.filterMap id
      let idx := safeIndex s g
      let save := (((s.launchOf g.bid).safes[idx]?).map (·.save)).getD 0
      if l == [0] then
        if save == 0 then { g with stop := some (0, idx) } else { jumpTo g save with routine := some (true, g.pcs) }
      else { g with stop := some ((l.find? fun c => c != 0).getD (if l.isEmpty then 5 else 1), 0) }

/-- Registers of a set of numbers that a test keeps; the others read 0 and are full. -/
def keepRegs {α : Type} (live : Nat → Bool) (m : FMap α) : FMap α := FMap.keep (fun k => live (k / 32)) m

/-- The same of d registers: 96 zero bits read as the invalid code (R213, R324). -/
def keepDirs (n : Nat) (live : Nat → Bool) (m : FMap Word96) : FMap Word96 :=
  ((List.range n).filter fun k => !live k).foldl (fun m k =>
    (List.range 32).foldl (fun m j => FMap.set 0x800000 m (32 * k + j) (restoredD 0)) m) (keepRegs live m)

/-- The registers of a saved group: at a safe point the live ones, with a routine none, elsewhere all; the temporaries of a
safe point are 0; breakpoints and step enables are cleared (R323, R324, R403, R404). -/
def savedGroup (s : State) (g : Group) : Group :=
  let g1 := { g with brk := none, step := false, stepDue := false, pend := [],
                     eccDue := if g.eccDue.isSome then g.eccDue else g.ecc.head? }
  match g.stop with
  | some (0, idx) =>
    let p := (s.launchOf g.bid).safes[idx]?
    let routine := ((p.map (·.save)).getD 0) != 0
    let live (f : SafePt → Nat) (n : Nat) : Bool := !routine && tb ((p.map f).getD 0) n
    let ecc := g.ecc.filter fun k =>
      let n := k / 32
      if n < 256 then live (·.vlive) n else if n < 512 then live (·.slive) (n - 256)
      else if 528 ≤ n && n < 544 then live (·.dlive) (n - 528) else 544 ≤ n && live (·.clive) (n - 544)
    { g1 with
      v := keepRegs (live (·.vlive)) g.v, d := keepDirs (s.launchOf g.bid).dregs (live (·.dlive)) g.d, c := keepRegs (live (·.clive)) g.c
      s := FMap.keep (live (·.slive)) g.s, t := []
      vEmpty := g.vEmpty.filter fun k => live (·.vlive) (k / 32)
      dEmpty := g.dEmpty.filter fun k => live (·.dlive) (k / 32)
      sEmpty := g.sEmpty.filter (live (·.slive))
      ecc := ecc, eccDue := if g.eccDue.isSome then g.eccDue else ecc.head? }
  | _ => g1

/-- A group that begins again at a safe point: first through its RESTORE routine, if there is one (R324). -/
def restart (s : State) (idx : Nat) (g : Group) : Group :=
  let restore := (((s.launchOf g.bid).safes[idx]?).map (·.restore)).getD 0
  if restore == 0 then g else { jumpTo g restore with routine := some (false, g.pcs) }

/-- A group in a SAVE routine after a step. A fault of its own there runs its handler first; one that another group's fault suspends
is saved in place. A routine that ends is followed by the save, or where the pre-emption is over by the restart (R323, R324). -/
def settleSave (s : State) (pcs : FMap Nat) (g : Group) : Group :=
  let leaving := (s.b g.bid).st == .preempting
  if !g.sys && !g.susp.isEmpty then { g with stop := if leaving then some (4, 0) else none }
  else if !routineOver g then { g with stop := none }
  else
    let g1 := leaveRoutine pcs g
    let idx := safeIndex s g1
    if leaving then { g1 with stop := some (0, idx) }
    else restart s idx { savedGroup s { g1 with stop := some (0, idx) } with stop := none }

/-- A group after a step: its routine goes on or ends, or it stops where its block is being pre-empted. In a RESTORE routine it
stops as elsewhere, but at no safe point, and its handler there at the next quire start (R166, R323 to R325). -/
def settleGroup (s : State) (gid : Nat) (g : Group) : Group :=
  match g.routine with
  | some (true, pcs) => settleSave s pcs g
  | some (false, pcs) =>
    if routineOver g then leaveRoutine pcs g else if stopping s gid g then stopGroup s gid g else { g with stop := none }
  | none => if stopping s gid g then stopGroup s gid g else g

/-- Waves whose groups hold no thread any more have ended (R148, R502). -/
def settleDraw (s : State) (d : Draw) : Draw :=
  { d with waves := d.waves.map fun w => if (s.g w.gid).alive == 0 then { w with ended := true } else w }

/-- The entries of a map of groups after a step. -/
def settleEntry (s : State) (e : Nat × Option Group) : Nat × Option Group := (e.1, e.2.map (settleGroup s e.1))

/-- The waves of the draws after a step. -/
def settleDraws (s : State) : State :=
  if s.draws.isEmpty then s
  else { s with draws := s.draws.map fun (e : Nat × Option Draw) => (e.1, e.2.map (settleDraw s)) }

/-- Resident blocks of a die. -/
def blocksLeft (s : State) (die : Nat) : Nat :=
  ((blocksOf s).filter fun b => b.2.resident && b.2.cores.any fun k => dieOf k.core == die).length

/-- 2 MiB granules of a die's stack that hold a table or a page of a context: those still to be evacuated. -/
def granulesLeft (s : State) (die : Nat) : Nat :=
  ((stackFrames s die).flatMap fun x => (List.range (cdiv (x.1 % 512 + x.2) 512)).map fun k => x.1 / 512 + k).eraseDups.length

/-- A die's counts of the work left before it is dark, as they are in a state: from PREEMPT to REMAP, else 0 (R27, log 130). -/
def recount (s : State) (die st : Nat) : State :=
  let r := s.die die
  let busy := within 1 3 st
  s.setDie die { r with pgleft := if busy then granulesLeft s die else 0, blkleft := if busy then blocksLeft s die else 0 }

/-- The counts of every die on its way to DARK, as they are now (R27). -/
def recountAll (s : State) : State :=
  s.pkg.dies.foldl (fun st e => if within 1 3 e.2.st then recount st e.1 e.2.st else st) s

/-- What follows at once from a step: routines that end, groups that stop, launches that are over and have no block left,
waves that end, the counts of departing dies, and after a fatal error no unit holds the issue slot (R27, R82). -/
def settle (s : State) : State :=
  let s1 := { s with groups := s.groups.map (settleEntry s) }
  let s2 := ((launchesOf s1).map (·.1)).foldl (fun st lid => if launchOver st lid then settleLaunch st lid else st) s1
  let s3 := recountAll (settleDraws s2)
  if s3.host.fatal.isSome then { s3 with cur := none } else s3

/-! ### Starting and saving -/

/-- A core of the block lies on a die in PREEMPT. -/
def onLeavingDie (s : State) (b : Block) : Bool := b.cores.any fun k => (s.die (dieOf k.core)).st == 1

/-- BLOCK_PREEMPT: its die departs, or work of a class of lower number, but not class 0, needs room (R103, R166). -/
def execBlockPreempt (bid : Nat) (s : State) : Host.Outcome State Fault Refusal := working s <|
  match s.block bid with
  | none => .next s
  | some b =>
    let wanted := (List.range (s.l b.lid).cls).any (needsRoom s)
    if (b.st == .admitted || b.st == .placed) && (onLeavingDie s b || (wanted && !ownsTile s b)) then
      .next (settle (s.setBlock bid { b with st := .preempting }))
    else .next s

/-- Every group of a block has stopped, with every producer's write landed, every operation complete and no queued store that waits for
its line. -/
def readyToSave (s : State) (bid : Nat) : Bool :=
  (allGroups s bid).all fun e => !groupHeld s e.1 && (e.2.stop.isSome || (liveNarrows e.2).isEmpty) && e.2.pend.isEmpty &&
    e.2.rays.isEmpty && e.2.ops.all (·.complete)

/-- Where firmware puts a save area of some bytes: an address of its region that the spec leaves open (R326, log 38). -/
def saveAddr (s : State) (n : Nat) : Nat :=
  0x1FC00000000 + (Config.freeWord s.free).toNat % ((0x300000000 - Nat.min n 0x2FFFFFFC0) / 64) * 64

/-- A core of a saved block gives back what it held for it: the barrier objects go with the block. Where another block is resident on the
core too, the spec does not say what the 64 objects hold for it; the save clears them all, and a resumption writes them all (R166, R470;
DESIGN CHOICE, log 161). -/
def leaveCore (bid : Nat) (gone : List Nat) (c : Core) : Core :=
  { c with bars := [], bound := if c.bound == some bid then none else c.bound
           array := c.array.filter fun x => !gone.contains x.1
           accEcc := if c.bound == some bid then [] else c.accEcc }

/-- PREEMPT_SAVE: every group has stopped; the block is saved and leaves its cores. Every mapping of the stash is written
back and holds no line; accumulators are lost; a register with an uncorrectable error is stored with its poison mark. A slot
holds the writes of the save area (R50, R166, R264, R319, R326, R470). -/
def execPreemptSave (bid : Nat) (s : State) : Host.Outcome State Fault Refusal := working s <|
  let b := s.b bid
  if b.st != .preempting || !readyToSave s bid || ownsTile s b || memHeld s then .next s
  else
    let s0 := (allGroups s bid).foldl (fun st e => drainAll st e.1) s
    let l := s0.l b.lid
    let code (gid : Nat) : Nat × Nat := ((s0.g gid).stop).getD (5, 0)
    let area := saveArea s0 bid fun gid => stoppedRecord s0 gid (code gid).1 (code gid).2
    let s1 := (allGroups s0 bid).foldl (fun st e => markRecord l (saveAddr s0 area.length + recordAt l e.2.idx)
      ((code e.1).1 != 0) (savedGroup s0 e.2).ecc st) (putMems { s0 with free := s0.free + 1 } (saveAddr s0 area.length) area)
    let s2 := (allGroups s1 bid).foldl (fun st e => st.setGroup e.1
      { savedGroup s1 e.2 with
        frame := if e.2.held.isSome then vRead s1 l.ctx sysRead (frameVa s1 e.2) 1152 else none
        stop := some (code e.1) }) s1
    let gone := (allGroups s2 bid).map (·.1)
    let b2 := s2.b bid
    let kept := b2.cores.map fun k =>
      { k with bars := (s2.core k.core).bars, stashes := k.stashes.map fun m => { m with st := [], asked := [] } }
    let s3 := b2.cores.foldl (fun st k => st.setCore k.core (leaveCore bid gone (st.core k.core))) s2
    .next (clearTags (s3.setBlock bid { b2 with st := .preempted, cores := kept, seats := [], charge := [], throttled := [] }))

/-! ### Resuming (R34, R167, R324, R330) -/

/-- A group of a resumed block on its new core and seat (R167, R324, R402). -/
def resumedGroup (s : State) (cores : List Nat) (seats : List (Nat × Nat)) (g : Group) : Group :=
  let seat := seats.getD g.idx (0, 0)
  let g1 := { g with
    core := cores.getD g.bcore 0, slot := seat.1, quarter := seat.2, stop := none, instrs := 0, stall := 0 }
  match g.stop with
  | some (0, idx) => restart s idx g1
  | _ => g1

/-- A resumed group takes its pending fault again: its frame goes into its new slot, and a handler that has not begun runs from
the new core's TVEC; with TVEC = 0 the fault is unhandled, and a frame that cannot be written is a double fault (R315, R330). -/
def retakeFault (s : State) (gid : Nat) : State :=
  let g := s.g gid
  match g.held, g.frame with
  | some x, some bs =>
    let s1 := s.modGroup gid fun g => { g with frame := none }
    let tvec := (s.core g.core).tvec
    if !g.handling && tvec == 0 then endLaunch s1 gid x.trap.cause x.trap.faddr
    else match vWrite s1 (s1.launchOf g.bid).ctx sysWrite (frameVa s1 g) bs g.bid g.bcore with
    | none => doubleFault s1 gid
    | some s2 => if g.handling then s2 else s2.modGroup gid fun g => jumpTo g tvec.toNat
  | _, _ => s

/-- BLOCK_RESUME: a saved block takes cores in its old shape; its admission follows (R34, R114, R167). So does a fragment block of
several stages whose tile has retired, also once its draw has ended: what is left of it runs to its end (R502, R503). -/
def execBlockResume (bid : Nat) (cores : List Nat) (s : State) : Host.Outcome State Fault Refusal := working s <|
  let b := s.b bid
  let l := s.l b.lid
  if b.st != .preempted || l.ending || !l.positions.contains cores || !goodPosition s l cores ||
      (l.coop && !couldHold s l) then .next s
  else
    let seats := cores.flatMap fun c => (coreSeats s l c).map fun x => (x.1, x.2.1)
    let s1 := (b.cores.zip cores).foldl (fun st x =>
      let c := st.core x.2
      st.setCore x.2 { c with bars := x.1.bars, acc := if l.hasMatrix then [] else c.acc
                              bound := if l.hasMatrix then none else c.bound }) s
    let s2 := s1.setBlock bid { b with
      st := .placed, seats := seats, cores := b.cores.zipIdx.map fun k => { k.1 with core := cores.getD k.2 0, bars := [] } }
    let ids := (allGroups s2 bid).map (·.1)
    let s3 := ids.foldl (fun st g => st.modGroup g (resumedGroup s2 cores seats)) s2
    .next (settle (ids.foldl retakeFault s3))

end Sys2Proof.Machine
end

