-- ==== Sys2Proof/Machine/DrawEvents.lean ====
section
/-!
DEFINITION. The draw engines' own steps: reading emit buffers, binning, the parameter region, partial flushes, the tile
broker, fragment waves, compositing and the end of a draw (R133, R135 to R149, R152, R160, R502, R503, R505, R509).
-/

namespace Sys2Proof.Machine

/-! ### Reading the emit buffers (R135) -/

/-- The records of a block in submission order: by group, then lane, then the lane's own count. -/
def submitted (l : List (Nat × Nat × Prim)) : List Prim :=
  (sortBy (fun a b => decide (a.1 < b.1) || (a.1 == b.1 && decide (a.2.1 ≤ b.2.1))) l).map (·.2.2)

/-- Primitives with their sequence indices, from `n` on. -/
def numbered (n : Nat) (l : List Prim) : List Prim := l.zipIdx.map fun x => { x.1 with seq := n + x.2 }

/-- A block of a launch with a linear index, if it has retired. -/
def retiredBlock (s : State) (lid lin : Nat) : Bool :=
  (blocksOf s).any fun e => e.2.lid == lid && e.2.lin == lin && e.2.st == .retired

/-- EMIT_BUFFER_READ: the next mesh block in submission order has retired; its buffer is read and its tile memory released
(R135). -/
def execEmitBufferRead (k : Nat) (s : State) : Host.Outcome State Fault Refusal := working s <|
  match s.draw k with
  | none => .next s
  | some d =>
    if d.ended != 0 || !retiredBlock s d.mesh d.nextBlock then .next s
    else
      let l := submitted (FMap.get [] d.emitted d.nextBlock)
      .next (s.setDraw k { d with
        queue := d.queue ++ numbered d.nextSeq l, nextSeq := d.nextSeq + l.length, nextBlock := d.nextBlock + 1
        emitted := FMap.set [] d.emitted d.nextBlock [] })

/-! ### Binning and the parameter region (R136 to R142) -/

/-- The words of a primitive. -/
def Prim.nats (p : Prim) : List Nat := p.words.map BitVec.toNat

/-- The tiles that a primitive is binned to; none where it is culled (R136, R137). -/
def primTiles (d : Draw) (p : Prim) : List Nat :=
  if p.gauss then
    if gaussCulled p.nats || !d.spl then [] else d.tilesWhere (gaussReaches p.nats)
  else if triCulled d p.nats then [] else d.tilesWhere (triOf d.attr p.nats).reaches

/-- Bytes of an unsigned LEB128 number (R139). -/
def lebLength (n : Nat) : Nat := 1 + Nat.log2 n / 7

/-- Bytes of the reference to a sequence index at the end of a list; the previous value of an empty list counts as -1. -/
def refLength (l : RefList) (seq : Nat) : Nat :=
  match l.seqs.getLast? with
  | none => lebLength (seq + 1)
  | some q => lebLength (seq - q)

/-- A new reference needs a new chunk: there is none, or its tail chunk has too little room of its 60 bytes (R139, R140). -/
def needsChunk (l : RefList) (seq : Nat) : Bool := l.chunks.isEmpty || 60 < l.fill + refLength l seq

/-- A list with a reference added, in a new chunk in `unit` where it needs one. -/
def addRef (l : RefList) (seq unit : Nat) : RefList :=
  let n := refLength l seq
  if needsChunk l seq then { seqs := l.seqs ++ [seq], chunks := l.chunks ++ [unit], fill := n }
  else { l with seqs := l.seqs ++ [seq], fill := l.fill + n }

/-- The list of a tile that takes a primitive. -/
def listFor (t : TileRec) (p : Prim) : RefList := if p.gauss then t.gauss else t.tris

/-- Units that a primitive needs: its record, and a chunk for each list without room (R140). -/
def unitsFor (d : Draw) (p : Prim) (tiles : List Nat) : Nat :=
  (if p.gauss then 1 else d.triUnits) + (tiles.filter fun k => needsChunk (listFor (d.tile k) p) p.seq).length

/-- A tile that receives a primitive (R145). -/
def receive (p : Prim) (unit : Nat) (t : TileRec) : TileRec :=
  let st : TileState := if t.st == TileState.empty then .listed else t.st
  let t1 := { t with st := st, added := true }
  if p.gauss then { t1 with gauss := addRef t.gauss p.seq unit } else { t1 with tris := addRef t.tris p.seq unit }

/-- The units of a region that hold nothing, `n` of them from the lowest on; which of its free units the list engine takes
is not given (R138, log 128). -/
def freeUnits (d : Draw) (n : Nat) : List Nat :=
  let busy := d.stored.flatMap (·.units) ++ d.tiles.flatMap fun e => e.2.tris.chunks ++ e.2.gauss.chunks
  ((List.range (busy.length + n)).filter fun u => !busy.contains u).take n

/-- Bytes of the directory of a parameter region (R138). -/
def Draw.dirBytes (d : Draw) : Nat := cdiv (16 * d.ntiles) 64 * 64

/-- Virtual address of a data unit (R138). -/
def Draw.unitVa (d : Draw) (u : Nat) : Nat := d.pbase + d.dirBytes + 64 * u

/-- An unsigned LEB128 number: seven bits a byte, low bits first. The first number bounds its bytes (R139). -/
def leb128 : Nat → Nat → List Byte
  | 0, _ => []
  | k + 1, n => if n < 128 then leBytes 1 n else leBytes 1 (n % 128 + 128) ++ leb128 k (n / 128)

/-- The bytes of the reference to a sequence index at the end of a list (R139). -/
def refBytes (l : RefList) (seq : Nat) : List Byte :=
  leb128 5 (match l.seqs.getLast? with
    | none => seq + 1
    | some q => seq - q)

/-- A snapped coordinate as a word. -/
def fixedWord (x : Int) : Nat := (x % 2 ^ 32).toNat

/-- The record of a triangle: its snapped vertices, sequence index and flags, then from the second unit on its attributes; the
flags and the bytes that are left have no value that the manual fixes (R139, log 128). -/
def triRecord (d : Draw) (p : Prim) (free : List Byte) : List Byte :=
  let w := p.nats
  let t := triOf d.attr w
  let vertex (m : Nat) : List Byte := leBytes 4 (fixedWord (int3 t.x m)) ++ leBytes 4 (fixedWord (int3 t.y m)) ++
    leBytes 4 (w.getD (4 * m + 2) 0) ++ leBytes 4 (w.getD (4 * m + 3) 0)
  let head := (List.range 3).flatMap vertex ++ leBytes 4 p.seq
  let attrs := ((w.drop 12).take (3 * d.attr)).flatMap (leBytes 4)
  head ++ free.take 12 ++ attrs ++ (free.drop 12).take (64 * d.triUnits - 64 - attrs.length)

/-- The record of a Gaussian: its words and sequence index (R139, log 128). -/
def gaussRecord (p : Prim) (free : List Byte) : List Byte :=
  (p.nats.take 11).flatMap (leBytes 4) ++ leBytes 4 p.seq ++ free.take 16

/-- The record of a primitive written in its units. -/
def writeRecord (s : State) (d : Draw) (p : Prim) : State :=
  let bytes := if p.gauss then gaussRecord p (freeBytes s 64) else triRecord d p (freeBytes s 128)
  p.units.zipIdx.foldl (fun st u => drawWrite st d (d.unitVa u.1) ((bytes.drop (64 * u.2)).take 64)) { s with free := s.free + 32 }

/-- The reference to a primitive written at the end of a list: in its tail chunk, or in a new chunk that the old tail names, with
no next chunk and zeros in the bytes it leaves (R139). -/
def writeRef (s : State) (d : Draw) (l : RefList) (seq unit : Nat) : State :=
  let bytes := refBytes l seq
  match l.chunks.getLast? with
  | none => drawWrite s d (d.unitVa unit) (leBytes 4 0xFFFFFFFF ++ bytes ++ List.replicate (60 - bytes.length) 0)
  | some tail =>
    if needsChunk l seq then
      let s1 := drawWrite s d (d.unitVa tail) (leBytes 4 unit)
      drawWrite s1 d (d.unitVa unit) (leBytes 4 0xFFFFFFFF ++ bytes ++ List.replicate (60 - bytes.length) 0)
    else drawWrite s d (d.unitVa tail + 4 + l.fill) bytes

/-- A primitive binned to a tile: the reference in memory and in the tile's list, with the free units that are left. -/
def binTile (p : Prim) (x : State × Draw × List Nat) (tile : Nat) : State × Draw × List Nat :=
  let d := x.2.1
  let l := listFor (d.tile tile) p
  let unit := x.2.2.headD 0
  (writeEntry (writeRef x.1 d l p.seq unit) d tile, d.setTile tile (receive p unit (d.tile tile)),
    if needsChunk l p.seq then x.2.2.tail else x.2.2)

/-- A primitive stored whole: its record, and a reference to it in the list of each of its tiles (R139, R140). -/
def storePrim (s : State) (k : Nat) (d : Draw) (p : Prim) (tiles : List Nat) : State :=
  let need := unitsFor d p tiles
  let units := freeUnits d need
  let n := if p.gauss then 1 else d.triUnits
  let q := { p with units := units.take n }
  let x := tiles.foldl (binTile q) (writeRecord s d q, d, units.drop n)
  x.1.setDraw k { x.2.1 with stored := d.stored ++ [q], used := d.used + need }

/-- PRIMITIVE_BIN: the next primitive is culled, stored whole, or rejected, which starts a partial flush; one that needs more
than the whole region ends the draw with 8.4. A slot holds the stores (R136 to R142, R160). -/
def execPrimitiveBin (k : Nat) (s : State) : Host.Outcome State Fault Refusal := working s <|
  match s.draw k with
  | none => .next s
  | some d =>
    match d.queue with
    | [] => .next s
    | p :: rest =>
      if d.ended != 0 || d.flush then .next s
      else
        let tiles := primTiles d p
        let need := unitsFor d p tiles
        if tiles.isEmpty then .next (s.setDraw k { d with queue := rest })
        else if d.units < need then .next (endDraw s k (drawCause 4) none)
        else if d.units < d.used + need then .next (s.setDraw k { d with flush := true })
        else if memBusy s then .next s
        else .next (storePrim s k { d with queue := rest } p tiles)

/-! ### Fragment waves (R147, R148, R160, R502) -/

/-- Every triangle of a tile is rendered. -/
def rendered (d : Draw) (tile : Nat) : Bool := (nextWave d tile).isNone && (wavesIn d tile).isEmpty

/-- The sequence index of the last triangle rendered into a tile; none where there is none (R143, R506). -/
def lastRendered (d : Draw) (tile : Nat) : Option Nat :=
  let t := d.tile tile
  match nextWave d tile, t.tris.seqs.getLast? with
  | none, some q => some q
  | _, _ => if t.nextBlock != 0 then some t.nextSeq else if t.nextSeq != 0 then some (t.nextSeq - 1) else none

/-- A group of a fragment block that may take a wave (R502). -/
def waveReady (s : State) (d : Draw) (gid : Nat) (g : Group) : Bool :=
  let b := s.b g.bid
  b.lid == d.frag && b.st == .admitted && !onLeavingDie s b && g.stage + 1 == (s.l d.frag).nstage &&
    gid == gidOf g.bid g.idx && g.alive == 0 && g.pend.isEmpty && g.rays.isEmpty

/-- The words of a fragment in v0 on: pixel, sequence index, depth and attributes (R148). -/
def fragWords (d : Draw) (t : Tri) (seq : Nat) (x : Nat × Nat × Nat × List Int) : List Nat :=
  [x.2.1, x.2.2.1, seq, t.depthAt x.2.2.2] ++ (List.range d.attr).map (t.attrAt x.2.2.2)

/-- The v registers of a wave: key 32 n + lane. -/
def waveRegs (d : Draw) (t : Tri) (seq : Nat) (lanes : List (Nat × Nat × Nat × List Int)) : FMap Word :=
  lanes.foldl (fun m x => (fragWords d t seq x).zipIdx.foldl (fun m w =>
    FMap.set 0 m (32 * w.2 + x.1) (BitVec.ofNat 32 w.1)) m) []

/-- A group as it begins a wave: as at its creation, with the values of R148, uncovered lanes exited (R502). Its queued stores and its
async operations, faults that no WAITC has covered among them, stand as they are (R298). -/
def waveGroup (s : State) (d : Draw) (g : Group) (t : Tri) (seq : Nat) (lanes : List (Nat × Nat × Nat × List Int)) : Group :=
  let b := s.b g.bid
  let l := s.l b.lid
  let n := newGroup l b g.bid g.idx b.args
  { n with
    v := waveRegs d t seq lanes
    pcs := lanes.foldl (fun m x => FMap.set 0 m x.1 l.code) []
    alive := BitVec.ofNat 32 (lanes.foldl (fun a x => a + 2 ^ x.1) 0)
    tlin := lanes.foldl (fun m x => FMap.set 0 m x.1 (32 * g.idx + x.1)) []
    sq := g.sq, ops := g.ops, seq := g.seq, instrs := g.instrs, stall := g.stall, brk := g.brk, step := g.step }

/-- FRAGMENT_WAVE_DISPATCH: a group of the owner's fragment block takes the next wave of a tile; none while a fault of one of
the tile's waves is not resolved (R148, R160, R502). -/
def execFragmentWaveDispatch (k tile gid : Nat) (s : State) : Host.Outcome State Fault Refusal := working s <|
  match s.draw k, s.group gid with
  | some d, some g =>
    let t := d.tile tile
    if d.ended != 0 || d.ntiles ≤ tile || t.st != .owned || t.owner != some g.core || !waveReady s d gid g ||
        ((wavesIn d tile).any fun w => waveHeld s w.gid) then .next s
    else match nextWave d tile with
    | none => .next s
    | some (q, b) =>
      let tri := triOf d.attr ((triWords d q).getD [])
      let lanes := blockLanes d tri tile b
      let w : Wave := { gid := gid, tile := tile, seq := q, ended := false
                        pixels := lanes.map fun x => (x.1, x.2.2.1 * 65536 + x.2.1) }
      let d1 := { d.setTile tile { t with nextSeq := q, nextBlock := b + 1 } with waves := d.waves ++ [w] }
      .next ((s.setDraw k d1).setGroup gid (waveGroup s d g tri q lanes))
  | _, _ => .next s

/-! ### The tile broker (R141, R143, R145, R146, R152, R503) -/

/-- The resident fragment blocks of a draw on a core. -/
def fragBlocks (s : State) (d : Draw) (core : Nat) : List Nat :=
  ((blocksOn s core).filter fun e => e.2.lid == d.frag).map (·.1)

/-- The broker's checkpoint of a tile, as TLCK makes it; the tile loses its owner, as its directory entry says. Where no triangle has been rendered into
the tile, SEQ has no value that the manual fixes (R143). -/
def checkpointTile (s : State) (k tile : Nat) : State :=
  match s.draw k with
  | none => s
  | some d =>
    let seq := (lastRendered d tile).getD (Config.freeWord s.free).toNat
    let s1 := drawWrite { s with free := s.free + 1 } d (d.ckbase + tile * d.recordBytes) (checkpointBytes d tile seq)
    (writeEntry s1 d tile).setDraw k { d.setTile tile { d.tile tile with st := .checkpointed, owner := none, added := false } with
      waves := d.waves.filter fun w => w.tile != tile }

/-- The fragment blocks of several stages of a draw on a core: their groups stop, and they are discarded (R503). -/
def discardStages (s : State) (k : Nat) (core : Option Nat) : State :=
  match s.draw k, core with
  | some d, some c =>
    if (s.l d.frag).nstage == 1 then s
    else (fragBlocks s d c).foldl (fun st bid =>
      retireBlock ((groupsOf st bid).foldl (fun st g => st.modGroup g fun x => { x.stopped with pend := [], ops := [] }) st) bid) s
  | _, _ => s

/-- A queued store of the blocks that leave with a tile waits for its line (R308, R503). -/
def stagesHeld (s : State) (d : Draw) (tile : Nat) : Bool :=
  match (d.tile tile).owner with
  | none => false
  | some c => (s.l d.frag).nstage != 1 && (fragBlocks s d c).any fun b => (groupsOf s b).any (groupHeld s)

/-- A tile leaves its owner: checkpoint, and the end of the owner's block where it has several stages. -/
def takeTile (s : State) (k tile : Nat) : State :=
  match s.draw k with
  | none => s
  | some d => discardStages (checkpointTile s k tile) k (d.tile tile).owner

/-- The tiles of a draw with a non-empty triangle list. -/
def flushTiles (d : Draw) : List Nat := (List.range d.ntiles).filter fun i => !(d.tile i).tris.seqs.isEmpty

/-- A tile after a flush: its triangle list is freed, and it continues after the last triangle of it. -/
def freeTris (t : TileRec) : TileRec :=
  match t.tris.seqs.getLast? with
  | none => t
  | some q => { t with tris := ⟨[], [], 0⟩, nextSeq := q + 1, nextBlock := 0 }

/-- The units that Gaussian records and chunks hold. -/
def gaussUnits (d : Draw) : Nat :=
  (d.stored.filter (·.gauss)).length + (d.tiles.foldl (fun n e => n + e.2.gauss.chunks.length) 0)

/-- PARTIAL_FLUSH: once every tile with a triangle list is rendered by its owner, these are checkpointed, every triangle
record and chunk is freed, and binning resumes; where none can be freed the draw ends with 8.4. A slot holds the checkpoints
(R141, R142, R160). -/
def execPartialFlush (k : Nat) (s : State) : Host.Outcome State Fault Refusal := working s <|
  match s.draw k with
  | none => .next s
  | some d =>
    let tiles := flushTiles d
    if d.ended != 0 || !d.flush then .next s
    else if d.used == gaussUnits d then .next (endDraw s k (drawCause 4) none)
    else if memBusy s || !tiles.all (fun i => (d.tile i).st == .owned && rendered d i && !tileOpLive s k i && !stagesHeld s d i) then .next s
    else
      let s1 := tiles.foldl (fun st i => takeTile st k i) s
      match s1.draw k with
      | none => .next s1
      | some d1 =>
        .next (s1.setDraw k { d1 with
          flush := false, used := gaussUnits d, stored := d1.stored.filter (·.gauss)
          tiles := d1.tiles.map fun (e : Nat × TileRec) => (e.1, freeTris e.2) })

/-- The tile with the planes of its record; where the record cannot be read, those that were written to it (R132, R143). -/
def restoredTile (s : State) (d : Draw) (tile : Nat) : TileRec :=
  let t := d.tile tile
  if t.st != .checkpointed then t
  else match vRead s (drawCtx s d) sysRead (d.ckbase + tile * d.recordBytes) d.recordBytes with
  | none => t
  | some bs => restorePlanes d t bs

/-- The draw's fragment block on a core: one that stands there, or a new one where it has room; none where there can be
none. A core gets no second tile with a block of several stages (R146, R503). -/
def holdBlock (s : State) (d : Draw) (core : Nat) : Option State :=
  let l := s.l d.frag
  let here := fragBlocks s d core
  if here.isEmpty then
    if goodPosition s l [core] && noneHigher s l.cls && (freePrivate s).isSome then
      some (placeBlock s d.frag l.placed [core])
    else none
  else if l.nstage == 1 && here.any (fun b => (s.b b).st == .placed || (s.b b).st == .admitted) then some s
  else none

/-- TILE_ASSIGN: a core on an online die that holds the draw's fragment block owns the tile, which is first restored from a
valid checkpoint; OPTH is loaded. A slot holds the directory entry and the records (R138, R141, R143, R145, R146, R152, R160,
R503; DEDUCED, log 156). -/
def execTileAssign (k tile core : Nat) (s : State) : Host.Outcome State Fault Refusal := working s <|
  match s.draw k with
  | none => .next s
  | some d =>
    let t := d.tile tile
    if d.ended != 0 || d.ntiles ≤ tile || 384 ≤ core || (t.st != .listed && t.st != .checkpointed) ||
        !dieOnline s (dieOf core) || memBusy s then .next s
    else match holdBlock s d core with
    | none => .next s
    | some s1 =>
      let d1 := d.setTile tile { restoredTile s d tile with st := .owned, owner := some core }
      .next ((writeEntry (s1.setCore core { s1.core core with opth := BitVec.ofNat 32 d.opth }) d tile).setDraw k d1)

/-- TILE_CHECKPOINT: at a wave boundary the broker takes a tile from its owner, for balance or because the owner's die is in
PREEMPT, and no slot holds the record's bytes (R143, R146, R160, R503). -/
def execTileCheckpoint (k tile : Nat) (s : State) : Host.Outcome State Fault Refusal := working s <|
  match s.draw k with
  | none => .next s
  | some d =>
    let t := d.tile tile
    let leaving := match t.owner with
      | none => false
      | some c => (s.die (dieOf c)).st == 1
    let balance := !t.added && (s.l d.frag).nstage == 1
    if d.ended != 0 || d.ntiles ≤ tile || memBusy s || t.st != .owned || !(wavesIn d tile).isEmpty || tileOpLive s k tile || stagesHeld s d tile ||
        !(leaving || balance) then .next s
    else .next (takeTile s k tile)

/-! ### The end of binning and of tiles (R133, R145, R149 to R151, R509) -/

/-- A tile when binning ends. -/
def afterBinning (d : Draw) (i : Nat) : Draw :=
  let t := d.tile i
  if t.st == TileState.empty then d.setTile i { t with st := .retiring } else d

/-- BINNING_END: every mesh block is read and every primitive binned; the tiles still EMPTY are RETIRING, as the directory says. A slot
holds its entries (R138, R145, R160; DEDUCED, log 156). -/
def execBinningEnd (k : Nat) (s : State) : Host.Outcome State Fault Refusal := working s <|
  match s.draw k with
  | none => .next s
  | some d =>
    if d.ended != 0 || d.binned || d.flush || !d.queue.isEmpty || d.nextBlock != (s.l d.mesh).blocks || memBusy s then .next s
    else
      let s1 := ((List.range d.ntiles).filter fun i => (d.tile i).st == .empty).foldl (fun st i => writeEntry st d i) s
      .next (s1.setDraw k { (List.range d.ntiles).foldl afterBinning d with binned := true })

/-- A tile may retire: RETIRING without an owner, or owned with its lists done once binning has ended. -/
def tileDone (d : Draw) (tile : Nat) : Bool :=
  let t := d.tile tile
  d.ended == 0 && tile < d.ntiles && d.binned && !d.flush &&
    (t.st == .retiring || (t.st == .owned && rendered d tile))

/-- The Gaussians of a tile in the order of the splat unit (R150). -/
def tileSplats (d : Draw) (tile : Nat) : List Splat :=
  let l := (d.tile tile).gauss.seqs.filterMap fun q => (d.stored.find? fun p => p.gauss && p.seq == q).map Prim.nats
  sortSplats l

/-- The pixels of the target in a tile. -/
def tilePixels (d : Draw) (tile : Nat) : List (Nat × Nat) :=
  ((List.range 4096).map fun p => (64 * (tile % d.ntx) + p % 64, 64 * (tile / d.ntx) + p / 64)).filter fun p =>
    p.1 < d.width && p.2 < d.height

/-- A tile with its splats composited over its colours (R149, R151). -/
def composited (d : Draw) (tile : Nat) : TileRec :=
  let l := tileSplats d tile
  if !d.spl then d.tile tile
  else (tilePixels d tile).foldl (fun t p =>
    let px := pixelIn p.1 p.2
    let bg := (t.colourAt px).map (readChannel d.cfmt)
    let z := if d.zfmt then some (t.depthAt px) else none
    t.setColour px ((composite d.opth p.1 p.2 z bg l).map (writeChannel d.cfmt))) (d.tile tile)

/-- The resolve of a tile: the stores of each of its pixels (R149). -/
def resolveTile (s : State) (d : Draw) (tile : Nat) (t : TileRec) : State :=
  (tilePixels d tile).foldl (fun st p =>
    (resolveStores d t p.1 p.2).foldl (fun st w => drawWrite st d w.1 w.2) st) s

/-- The parameter region of a draw that is done: no byte of it has a value that the manual fixes (R505, log 101). -/
def regionOpen (s : State) (d : Draw) : State :=
  (List.range (d.psize / 4096)).foldl (fun st k =>
    drawWrite { st with free := st.free + 1024 } d (d.pbase + 4096 * k) (freeBytes st 4096)) s

/-- The draw has ended normally: DONE, and its launches are over (R133, R505, R509). -/
def finishDraw (s : State) (k : Nat) (d : Draw) : State :=
  let s1 := (drawWrite (regionOpen s d) d d.done (leBytes 8 1)).setDraw k { d with ended := 1, waves := [] }
  settleLaunch (settleLaunch s1 d.mesh) d.frag

/-- TILE_RETIRE: splats composited, the tile resolved; with the last tile DONE is written. A slot holds the target's bytes
(R50, R133, R145, R149). -/
def execTileRetire (k tile : Nat) (s : State) : Host.Outcome State Fault Refusal := working s <|
  match s.draw k with
  | none => .next s
  | some d =>
    if memBusy s || !tileDone d tile || tileOpLive s k tile then .next s
    else
      let t := composited d tile
      let s1 := writeEntry (resolveTile s d tile t) d tile
      let d1 := { d.setTile tile { TileRec.cleared with st := .retired } with waves := d.waves.filter fun w => w.tile != tile }
      if (List.range d.ntiles).all fun i => (d1.tile i).st == .retired then .next (finishDraw s1 k d1)
      else .next (s1.setDraw k d1)

end Sys2Proof.Machine
end

