-- ==== Sys2Proof/Machine/Home.lean ====
section
/-!
DEFINITION. The memory side: home agents and their directory, the L2 slice table, page walks, tile-memory segments, the
store queues and register ECC (R254, R263, R267 to R270, R275, R276, R281, R307 to R309, R319).

Memory itself holds the latest write of every byte (log 5), so the transactions below move no value: they keep the
directory's account of who holds each line.
-/

namespace Sys2Proof.Machine

/-! ### Requests (R269, R307, R308) -/

/-- A request of a die as one that no core's access makes. -/
def dieRequest (kind die : Nat) (near : Option Nat) : DirReq :=
  { kind := kind, die := die, core := none, near := near, zero := false, at_ := (0, 0) }

/-- UPGRADE: the request takes its place at the home agent, whose service of the line is a step of its own, so that of requests of one
moment the lower die goes first (R307, R308). -/
def execUpgrade (die line : Nat) (s : State) : Host.Outcome State Fault Refusal := working s <|
  .next (requestLine s line (dieRequest 0 die none))

/-- READ_EXCLUSIVE: as UPGRADE (R307, R308). -/
def execReadExclusive (die line : Nat) (s : State) : Host.Outcome State Fault Refusal := working s <|
  .next (requestLine s line (dieRequest 1 die none))

/-- READ_SHARED: a sector of the die, module-wide, for which the home agent grants a near copy, where the line's slice lies
in another sector; it takes its place as UPGRADE does (R269, R307). -/
def execReadShared (die line : Nat) (near : Option Nat) (s : State) : Host.Outcome State Fault Refusal := working s <|
  .next (requestLine s line (dieRequest 2 die (near.filter fun k => k / 3 == die && sliceOfPa s (128 * line) / 4 != k)))

/-- LINE_SERVICE: the home agent serves what waits for a line (R50, R307). -/
def lineService (line : Nat) (s : State) : Host.Outcome State Fault Refusal := .next (serveWaiting line s)

/-- The oldest store of each group of a die whose queue waits for a line is applied to the line that has come (R308). -/
def applyStores (s : State) (die line : Nat) : State :=
  s.groups.foldl (fun st e => match e.2 with
    | none => st
    | some g => match g.sq with
      | [] => st
      | x :: _ => match canonLoc s x.loc with
        | .phys pa => if dieOf (locCore s e.1 x.loc) == die && lineOf pa == line then drainOne st e.1 else st
        | .tile _ _ _ => st) s

/-- A line is granted: the die's waiting stores are applied to it, and the home agent serves the next request (R307, R308). -/
def grantLine (s : State) (line : Nat) (l : DirLine) (die : Nat) (core : Option Nat) : State :=
  serveWaiting line (applyStores (s.setLine line (ownedBy l die core)) die line)

/-- The stash lines of a die's cores that hold a line go INVALID (R263). -/
def dropDieStash (s : State) (die line : Nat) : State :=
  { s with blocks := s.blocks.map fun (e : Nat × Option Block) => (e.1, e.2.map fun b =>
      { b with cores := b.cores.map fun k => if dieOf k.core == die then k.dropLine (128 * line) else k }) }

/-- A die drops its copies of a line: its stash lines, and what its snoop filter tracks. -/
def dropDie (s : State) (die line : Nat) (l : DirLine) : State := (dropDieStash s die line).setLine line (l.forget (· == die))

/-- INVALIDATION: it reaches a die, which drops its copies, stash lines included (R263, R307). -/
def execInvalidation (die line : Nat) (s : State) : Host.Outcome State Fault Refusal := working s <|
  let l := s.line line
  if !NSet.has l.acks die || !NSet.has l.sharers die || linkHeld s die line then .next s
  else .next (dropDie s die line { l with sharers := NSet.del l.sharers die })

/-- INVALIDATION_ACKNOWLEDGEMENT: with the last one an upgrade is granted (R307). -/
def execInvalidationAcknowledgement (die line : Nat) (s : State) : Host.Outcome State Fault Refusal := working s <|
  let l := s.line line
  let l1 := { l with acks := NSet.del l.acks die }
  let last := l1.st == 4 && l1.acks.isEmpty
  if !NSet.has l.acks die || NSet.has l.sharers die || linkHeld s die line || (last && linkHeld s l.owner line) then .next s
  else if last then .next (grantLine s line l1 l1.owner (l1.serving.bind (·.core)))
  else .next (s.setLine line l1)

/-! ### Snoops and write-backs (R308, R309) -/

/-- FORWARDED_SNOOP: the owner answers from its cache, or from its write-back buffer with WBPEND (R309). -/
def execForwardedSnoop (die line : Nat) (s : State) : Host.Outcome State Fault Refusal := working s <|
  let l := s.line line
  if l.st != 5 || l.owner != die || l.snooped || linkHeld s die line then .next s
  else .next (dropDie s die line { l with snooped := true, wbPend := NSet.has l.wbuf die && !NSet.has l.wbAck die })

/-- SNOOP_ACKNOWLEDGEMENT: ownership passes to the requester. With WBPEND the old owner's write-back is dropped: one that the home agent
holds now, one still under way as it arrives (R309). The data crosses a die link between the two (R50). -/
def execSnoopAcknowledgement (die line : Nat) (s : State) : Host.Outcome State Fault Refusal := working s <|
  let l := s.line line
  match l.serving with
  | none => .next s
  | some next =>
    if l.st != 5 || l.owner != die || !l.snooped || !l.acks.isEmpty || memHeld s then .next s
    else .next (grantLine s line (if l.wbPend then l.passed else l) next.die next.core)

/-- LINE_EVICTION: an owner that evicts the line sends it back and keeps it in its write-back buffer; another die's copy
goes without a message (R309). -/
def execLineEviction (die line : Nat) (s : State) : Host.Outcome State Fault Refusal := working s <|
  let l := s.line line
  if (l.st == 2 || l.st == 3 || (l.st == 5 && !l.snooped)) && l.owner == die && !NSet.has l.wbuf die then
    .next (s.setLine line { l.forget (· == die) with wbuf := NSet.add l.wbuf die })
  else .next s

/-- WRITE_BACK: it reaches the home agent and is written, held while the line's ownership is forwarded, or dropped, as one is whose
ownership has passed on meanwhile, to its own die even; written and dropped ones are acknowledged. A slot holds it (R50, R309). -/
def execWriteBack (die line : Nat) (s : State) : Host.Outcome State Fault Refusal := working s <|
  let l := s.line line
  if !NSet.has l.wbuf die || NSet.has l.wbAck die || NSet.has l.wbHome die || memHeld s then .next s
  else if NSet.has l.stale die then
    .next (s.setLine line { l with stale := NSet.del l.stale die, wbAck := NSet.add l.wbAck die })
  else if l.st == 5 && l.owner == die then .next (s.setLine line { l with wbHome := NSet.add l.wbHome die })
  else
    let l1 := { l with wbAck := NSet.add l.wbAck die }
    let l2 := if (l.st == 2 || l.st == 3) && l.owner == die then
        { l1 with st := if l.sharers.isEmpty then 0 else 1, owner := 0 } else l1
    .next (s.setLine line l2)

/-- WRITE_BACK_ACKNOWLEDGEMENT: the die frees its write-back buffer (R309). -/
def execWriteBackAcknowledgement (die line : Nat) (s : State) : Host.Outcome State Fault Refusal := working s <|
  let l := s.line line
  if !NSet.has l.wbAck die || linkHeld s die line then .next s
  else .next (s.setLine line { l with wbAck := NSet.del l.wbAck die, wbuf := NSet.del l.wbuf die })

/-- EXCLUSIVE_DATA_GRANT: data from memory arrives with the grant, and the core's store, kept in its queue till now, is applied
to it (R50, R308). -/
def execExclusiveDataGrant (die line : Nat) (s : State) : Host.Outcome State Fault Refusal := working s <|
  let l := s.line line
  match l.serving with
  | none => .next s
  | some r =>
    if l.st != 6 || r.die != die || !l.acks.isEmpty || memHeld s then .next s
    else .next (grantLine s line l die r.core)

/-! ### L2, translation, tile memory, store queues (R254, R267, R268, R270, R276, R281) -/

/-- A slice that the table may name: its die is ONLINE, or takes its buckets back (R30, R267). -/
def sliceUsable (s : State) (slice : Nat) : Bool :=
  slice < 96 && ((s.die (slice / 12)).st == 0 || (s.die (slice / 12)).st == 6)

/-- BUCKET_MOVE: the rebalancer moves a bucket to a slice, with every request held meanwhile; a slot holds its write-backs
(R268). -/
def execBucketMove (bucket slice : Nat) (s : State) : Host.Outcome State Fault Refusal := working s <|
  if 4096 ≤ bucket || !sliceUsable s slice || memHeld s then .next s
  else .next { s with sliceMap := FMap.set none s.sliceMap bucket (if slice == bucket % 96 then none else some slice) }

/-- L2_WAY_DISABLE: a slot holds the write-backs that come first (R50, R270). -/
def execL2WayDisable (slice ways : Nat) (s : State) : Host.Outcome State Fault Refusal :=
  if 96 ≤ slice || 16 < ways || memHeld s then .next s else .next { s with l2off := FMap.set 0 s.l2off slice ways }

/-- PAGE_WALK_COMPLETE: every waiting miss takes the walk's result; a valid one is cached. A slot holds the reads of the tables (R50,
R275, R276). -/
def execPageWalkComplete (ctx : Nat) (va : BitVec 64) (s : State) : Host.Outcome State Fault Refusal := working s <|
  .next (if memHeld s then s else tlbFill s ctx va.toNat)

/-- The most segments that a resident block of a core asks to be kept awake (R401). -/
def wakeAsked (s : State) (core : Nat) : Nat :=
  (blocksOn s core).foldl (fun a b => b.2.cores.foldl (fun a k => if k.core == core then Nat.max a k.wake else a) a) 0

/-- SEGMENT_WAKE_COMPLETE: a gated segment that a block asked for is awake (R254, R401). -/
def execSegmentWakeComplete (core seg : Nat) (s : State) : Host.Outcome State Fault Refusal := working s <|
  if 384 ≤ core || 16 ≤ seg || wakeAsked s core ≤ awakeFree s core || freeSegments s core ≤ awakeFree s core then .next s
  else .next (s.setCore core { s.core core with awake := (s.core core).awake + 1 })

/-- STORE_QUEUE_DRAIN: the oldest store of a group is performed where its die holds the line; else the line is asked for, unless the
die's link queue is full, and the store waits in its queue (R54, R56, R281, R308). -/
def execStoreQueueDrain (gid : Nat) (s : State) : Host.Outcome State Fault Refusal := working s <|
  let g := s.g gid
  match g.sq with
  | [] => .next s
  | e :: _ =>
    let core := locCore s gid e.loc
    let die := dieOf core
    match lineNeeded s core e.loc with
    | some line =>
      let l := s.line line
      if l.asked die then .next s
      else .next (requestLine s line { dieRequest (if l.lists die then 0 else 1) die none with
                                         core := some core, zero := (s.launchOf g.bid).cls == 0 })
    | none => if memHeld s && locFar s g.core true e.loc then .next s else .next (drainOne s gid)

/-- The tile offsets of the stash lines whose fill a slot has held, with their block and core index. -/
def fillsAsked (s : State) : List (Nat × Nat × Nat) :=
  s.blocks.flatMap fun e => match e.2 with
    | none => []
    | some b => b.cores.zipIdx.flatMap fun k => k.1.stashes.flatMap fun m => m.asked.map fun i => (e.1, k.2, m.tile + 128 * i)

/-- The fills that a slot has held are made once none is open (R50, R54, R262). -/
def serveFills (s : State) : Host.Outcome State Fault Refusal :=
  if memHeld s then .next s
  else
    let s1 := (fillsAsked s).foldl (fun st x => fillLine st x.1 x.2.1 x.2.2) s
    .next ((fillsAsked s).foldl (fun st x => st.modBc x.1 x.2.1 fun k =>
      { k with stashes := k.stashes.map fun m => { m with asked := [] } }) s1)

/-! ### Register ECC (R319) -/

/-- A register code that has cells with ECC: v, s, t, d and c, and above the codes of R349 the accumulators of the group's
core (log 124). -/
def eccCode (code : Nat) : Bool := code < 416 || (512 ≤ code && code < 552)

/-- An error in an accumulator of a core: ECCLOG has no register code for it, so its value is free (R319, log 124). -/
def accEccError (s : State) (core acc : Nat) (uncorrectable : Bool) : State :=
  let c := s.core core
  let s1 := { s with free := s.free + 1 }.setCore core { c with
    ecclog := BitVec.ofNat 64 (Config.freeWord s.free).toNat
    accEcc := if uncorrectable then NSet.add c.accEcc acc else c.accEcc }
  countErr s1 core (b2n uncorrectable)

/-- REGISTER_ECC_ERROR: the error is logged and counted; an uncorrectable one stays with the cell until it is written. -/
def execRegisterEccError (gid code lane : Nat) (uncorrectable : Bool) (s : State) : Host.Outcome State Fault Refusal :=
  match s.group gid with
  | none => .next s
  | some g =>
    if !eccCode code || 32 ≤ lane then .next s
    else if 548 ≤ code then .next (accEccError s g.core (code - 548) uncorrectable)
    else
      let c := s.core g.core
      let s1 := s.setCore g.core { c with
        ecclog := BitVec.ofNat 64 (code + lane * 2 ^ 10 + b2n uncorrectable * 2 ^ 15 + g.slot * 2 ^ 16) }
      let s2 := countErr s1 g.core (b2n uncorrectable)
      let key := 32 * code + if 256 ≤ code && code < 416 then 0 else lane
      if !uncorrectable then .next s2
      else
        let s3 := s2.modGroup gid fun g => { g with ecc := NSet.add g.ecc key }
        match (if 256 ≤ code && code < 512 then none else twinOf s3 gid lane) with
        | none => .next s3
        | some (h, k) => .next (s3.modGroup h fun g => { g with ecc := NSet.add g.ecc (32 * code + k) })

end Sys2Proof.Machine
end

