-- ==== Sys2Proof/Machine/Package.lean ====
section
/-!
DEFINITION. The package: lost phases, die links, and dies that go offline and come back (R13, R20 to R22, R27 to R35, R39
to R43).
-/

namespace Sys2Proof.Machine

/-! ### Transitions of dies (R28 to R31, R35) -/

/-- A die is in transition: PREEMPT, EVACUATE, REMAP, WAKE or REMAPIN. -/
def moving (st : Nat) : Bool := within 1 3 st || st == 5 || st == 6

/-- Some die is in transition. -/
def anyMoving (s : State) : Bool := (List.range 8).any fun d => moving (s.die d).st

/-- A die that stays online, as far as the requests say: ONLINE, with no request to leave. -/
def staysOnline (s : State) (d : Nat) : Bool :=
  (s.die d).st == 0 || ((s.die d).st == 8 && (s.die d).prev == 0 && !(s.pkg.requests.any fun r => r.die == d && !r.online))

/-- Taking a die offline would leave no shader die online (R31). -/
def lastOnline (s : State) (die : Nat) : Bool := (List.range 8).all fun d => d == die || !staysOnline s d

/-- A die takes a state: its counts of work left in that state, its event, the suspension of bounds (R27, R35). -/
def toState (s : State) (die st reason : Nat) : State := setDieState (recount s die st) die st reason

/-- The transition that a request asks for begins (R29, R30). -/
def startRequest (s : State) (r : DieReq) : State :=
  if r.online then
    let s1 := toState s r.die 5 0
    { s1 with pkg := { s1.pkg with wakeDue := some r.die } }
  else toState s r.die 1 r.reason

/-- A module of a link is off: key 1000 a + 100 b + m for dies a < b. -/
def moduleOff (s : State) (a b m : Nat) : Bool := NSet.has s.pkg.modsOff (1000 * a + 100 * b + m)

/-- A shader die has lost its whole link to the FE die (R22). -/
def feLost (s : State) (die : Nat) : Bool := (List.range 4).all (moduleOff s die 8)

/-- A request that is not refused: a die that is ONLINE and not the last may leave, a DARK one may come back, unless its whole link to
the FE die is off (R22, R31). -/
def allowed (s : State) (r : DieReq) (st : Nat) : Bool :=
  if r.online then st == 4 && !feLost s r.die else st == 0 && !lastOnline s r.die

/-- A request waits for its turn. -/
def queueRequest (s : State) (r : DieReq) : State := { s with pkg := { s.pkg with requests := s.pkg.requests ++ [r] } }

/-- A die request begins at once, or waits behind another die's transition. One for a die that is itself in transition or
PENDING waits for its turn, and the die's state shows no change (R22, R31, R41, R43, log 129). -/
def requestDie (s : State) (r : DieReq) : State :=
  let st := (s.die r.die).st
  if 8 ≤ r.die then s
  else if moving st || st == 8 then queueRequest s r
  else if !allowed s r st then s
  else if anyMoving s || !s.pkg.requests.isEmpty then toState (queueRequest s r) r.die 8 r.reason
  else startRequest s r

/-- DIE_OFFLINE_REQUEST (R29, R31). -/
def execDieOfflineRequest (die reason : Nat) (s : State) : Host.Outcome State Fault Refusal :=
  if within 1 5 reason then .next (requestDie s { die := die, online := false, reason := reason }) else .next s

/-- DIE_ONLINE_REQUEST (R30, R31). -/
def execDieOnlineRequest (die : Nat) (s : State) : Host.Outcome State Fault Refusal :=
  .next (requestDie s { die := die, online := true, reason := 0 })

/-- PENDING_TRANSITION_START: the oldest request begins, or is refused; a PENDING die for which no other request waits then
returns to where it was (R31). -/
def execPendingTransitionStart (s : State) : Host.Outcome State Fault Refusal := working s <|
  match s.pkg.requests with
  | [] => .next s
  | r :: rest =>
    if anyMoving s then .next s
    else
      let s1 := { s with pkg := { s.pkg with requests := rest } }
      let d := s.die r.die
      let was := if d.st == 8 then d.prev else d.st
      if allowed s1 r was then .next (startRequest s1 r)
      else if d.st != 8 || rest.any (fun x => x.die == r.die) then .next s1
      else .next (toState s1 r.die was 0)

/-- DIE_PREEMPT_COMPLETE: no block is left on the die (R29). -/
def execDiePreemptComplete (die : Nat) (s : State) : Host.Outcome State Fault Refusal := working s <|
  if die < 8 && (s.die die).st == 1 && blocksLeft s die == 0 then .next (toState s die 2 (s.die die).reason) else .next s

/-! ### Evacuation (R29, R32) -/

/-- A page lies in the stack of a die. -/
def inStackOf (die pfn : Nat) : Bool := pfn / 0x1000000 == die

/-- The frames along a walk: those of the tables under the root, and of the page (R272 to R274). -/
def walkFrames (s : State) (va : Nat) : List Nat → Nat → List Nat
  | [], _ => []
  | lv :: rest, table =>
    let e := physWord s (table + 8 * (va / 2 ^ (12 + 9 * lv) % 512))
    let pfn := bits e 51 12
    if !tb e 0 then [] else if tb e 1 then [pfn] else pfn :: walkFrames s va rest (pfn * 4096)

/-- The frames of an address of a context, the root's first. -/
def framesOf (s : State) (ctx va : Nat) : List Nat :=
  match FMap.get none s.ctxs ctx with
  | none => []
  | some root => root / 4096 :: walkFrames s va [4, 3, 2, 1, 0] root

/-- The widest page of a die's stack that holds a frame: where pages of several sizes lie over it, they move together. -/
def widestOf (s : State) (die pfn : Nat) : Nat × Nat :=
  ((stackFrames s die).filter fun x => x.1 ≤ pfn && pfn < x.1 + x.2).foldl (fun a b => if a.2 < b.2 then b else a) (pfn, 1)

/-- The table entries under a table that point into some frames. -/
def cellsUnder (s : State) (hit : Nat → Bool) : List Nat → Nat → List Nat
  | [], _ => []
  | _ :: rest, table =>
    (List.range 512).flatMap fun k =>
      let at_ := table + 8 * k
      let e := physWord s at_
      let pfn := bits e 51 12
      if !tb e 0 then []
      else (if hit pfn then [at_] else []) ++ if tb e 1 then [] else cellsUnder s hit rest (pfn * 4096)

/-- Every pointer of every context into some frames takes the new ones: roots, and table entries, each once (R32). -/
def repointAll (s : State) (old new pages : Nat) : State :=
  let hit (pfn : Nat) : Bool := old ≤ pfn && pfn < old + pages
  let go (pfn : Nat) : Nat := pfn - old + new
  let cells := (s.ctxs.flatMap fun e => match e.2 with
    | none => []
    | some root => cellsUnder s hit [4, 3, 2, 1, 0] root).eraseDups
  let s1 := cells.foldl (fun st at_ =>
    let e := physWord s at_
    putMems st at_ (leBytes 8 (e - bits e 51 12 * 4096 + go (bits e 51 12) * 4096))) s
  { s1 with ctxs := s1.ctxs.map fun e => (e.1, e.2.map fun root => if hit (root / 4096) then go (root / 4096) * 4096 else root) }

/-- Everything that the machine holds by physical address in moved frames goes with them: bytes, poison and error marks, stash
lines, stores and RDMA requests that wait, directory lines, structures and the rays that trace them, and the translations of draws
(R32). -/
def carryFrames (s : State) (old new pages : Nat) : State :=
  let lo := old * 4096
  let hi := (old + pages) * 4096
  let inside (a : Nat) : Bool := lo ≤ a && a < hi
  let go (a : Nat) : Nat := if inside a then a - lo + new * 4096 else a
  let loc (l : Loc) : Loc := match l with
    | .phys pa => .phys (go pa)
    | x => x
  let cleared := FMap.keep (fun a => !(new * 4096 ≤ a && a < (new + pages) * 4096)) s.mem
  let moved := (s.mem.filter fun e => inside e.1).foldl (fun m e => FMap.set 0 m (go e.1) e.2) cleared
  let block (b : Block) : Block := { b with cores := b.cores.map fun k =>
    { k with stashes := k.stashes.map fun m => { m with pas := m.pas.map fun e => (e.1, go e.2) } } }
  let group (g : Group) : Group := { g with
    sq := g.sq.map fun e => { e with loc := loc e.loc }
    rays := g.rays.map fun r => { r with root := go r.root } }
  let draw (d : Draw) : Draw := { d with leaves := d.leaves.map fun x => (x.1, x.2.1, go (x.2.2.1 * 4096) / 4096, x.2.2.2) }
  { s with
    mem := moved
    poison := s.poison.foldl (fun m e => FMap.set 0 m (go (128 * e.1) / 128) e.2) []
    blocks := s.blocks.map fun e => (e.1, e.2.map block)
    marks := s.marks.foldl (fun m a => NSet.add m (go a)) []
    dir := s.dir.foldl (fun m e => FMap.set DirLine.idle m (go (128 * e.1) / 128) e.2) []
    groups := s.groups.map fun e => (e.1, e.2.map group)
    draws := s.draws.map fun e => (e.1, e.2.map draw)
    host := { s.host with inbound := s.host.inbound.map fun r =>
      { r with parts := r.parts.map fun l => l.map fun p => (go p.1, p.2) } }
    structs := s.structs.foldl (fun m e => FMap.set [] m (go e.1) e.2) [] }

/-- A frame outside the stacks that are leaving or dark: where a page may move. -/
def frameFree (s : State) (new pages : Nat) : Bool :=
  let lo := new * 4096
  let hi := (new + pages) * 4096 - 1
  (isLp lo && isLp hi && !isFirmware lo && !isFirmware hi) ||
    (isHbm lo && isHbm hi && lo / 0x1000000000 == hi / 0x1000000000 && (s.die (lo / 0x1000000000)).st == 0)

/-- PAGE_MIGRATE: the first page on the walk of the address that lies in the departing die's stack, be it a table or the page
itself, is copied to `pa`, every pointer to it rewritten, and every translation to it dropped in every TLB, all in one step: no access
comes between. A slot, or a line with a transaction at hand, holds the copy (R29, R32, R50, R276, R307). -/
def execPageMigrate (die ctx : Nat) (va : BitVec 64) (pa : Nat) (s : State) : Host.Outcome State Fault Refusal := working s <|
  if (s.die die).st != 2 || memBusy s then .next s
  else match (framesOf s ctx va.toNat).find? (inStackOf die) with
  | none => .next s
  | some pfn =>
    let p := widestOf s die pfn
    let new := pa / 4096
    if pa % (4096 * p.2) != 0 || !frameFree s new p.2 then .next s
    else
      let s1 := carryFrames (repointAll s p.1 new p.2) p.1 new p.2
      .next { s1 with tlb := s1.tlb.filter fun e => !(decide (p.1 < e.pfn + e.pages) && decide (e.pfn < p.1 + p.2)) }

/-- DIE_EVACUATE_COMPLETE: no context has a table or a page in the die's stack any more, and no TLB a translation to it (R29). -/
def execDieEvacuateComplete (die : Nat) (s : State) : Host.Outcome State Fault Refusal := working s <|
  if die < 8 && (s.die die).st == 2 && (stackFrames s die).isEmpty && !(s.tlb.any fun e => inStackOf die e.pfn) then
    .next (toState s die 3 (s.die die).reason)
  else .next s

/-- DIE_REMAP_COMPLETE: no bucket selects the die's slices; the die waits for the next L slot to go DARK (R29). -/
def execDieRemapComplete (die : Nat) (s : State) : Host.Outcome State Fault Refusal := working s <|
  if die < 8 && (s.die die).st == 3 && s.pkg.darkDue.isNone && (List.range 4096).all fun b => sliceOf s b / 12 != die then
    .next { s with pkg := { s.pkg with darkDue := some die } }
  else .next s

/-- DIE_WAKE_COMPLETE: training inside an L slot ends; a die whose whole link to the FE die is off cannot be trained (R22, R30). -/
def execDieWakeComplete (die : Nat) (trained : Bool) (s : State) : Host.Outcome State Fault Refusal := working s <|
  if s.pkg.wakeDue != some die || !(s.pkg.slots.any fun x => x.kind == 3) then .next s
  else .next (toState { s with pkg := { s.pkg with wakeDue := none } } die (if trained && !feLost s die then 6 else 7) 0)

/-- DIE_REMAPIN_COMPLETE: every bucket that selects the die's slices at reset has been moved back, and the die is ONLINE (R30,
R267). -/
def execDieRemapinComplete (die : Nat) (s : State) : Host.Outcome State Fault Refusal := working s <|
  if die < 8 && (s.die die).st == 6 && (List.range 4096).all (fun b => b % 96 / 12 != die || sliceOf s b == b % 96) then
    .next (toState s die 0 0)
  else .next s

/-! ### Regulators (R39 to R43) -/

/-- The shader die that a rail feeds, if it feeds one. -/
def railDie (rail : Nat) : Option Nat := if rail < 24 then some (rail / 3) else none

/-- A cluster is lowered to the CAP of its rails at once, whatever claims are active; they are void (R41, R59). -/
def forceCap (s : State) (cl : Nat) : State :=
  let c := { s.cluster cl with noTask := true }
  let cap := capIn s cl
  if c.cls ≤ cap then s.setCluster cl c else changeClass (s.setCluster cl { c with claims := [] }) cl cap

/-- The content of a derate event: die, rail, old and new PHS, ILIM, CAP (R79). -/
def derateBody (rail : Nat) (old new : Rail) : List Byte :=
  leBytes 4 ((railDie rail).getD 8) ++ leBytes 4 (if rail < 24 then rail % 3 else rail - 24) ++ leBytes 4 (phsOf old) ++
    leBytes 4 (phsOf new) ++ leBytes 4 (ilimOf rail new) ++ leBytes 4 (capOf (phsOf new))

/-- A launch has a block on a die. -/
def launchOnDie (s : State) (die lid : Nat) : Bool :=
  (blocksOf s).any fun b => b.2.lid == lid && b.2.resident && b.2.cores.any fun k => dieOf k.core == die

/-- PHASE_LOSS: the rail loses `count` phases in one event (R41, R42). Below four a shader die goes offline with reason 5,
and an FE-die rail is fatal, with a raised code of class 11 that the spec leaves open (R310, log 92). -/
def execPhaseLoss (rail count : Nat) (s : State) : Host.Outcome State Fault Refusal :=
  let old := s.rail rail
  let new : Rail := { drt := true, lost := Nat.min 12 (old.lost + count) }
  if 26 ≤ rail || count == 0 || new.lost == old.lost then .next s
  else
    let s1 := { s with pkg := { s.pkg with rails := FMap.set Rail.reset s.pkg.rails rail new } }
    let s2 := sendModule s1 3 (derateBody rail old new)
    let cause := 0x160 + (Config.freeWord s.free).toNat % 12
    .next (match railDie rail with
      | some d =>
        let s3 := suspendBounds s2 (launchOnDie s2 d) 1
        let s4 := (List.range 12).foldl (fun st k => forceCap st (12 * d + k)) s3
        if phsOf new < 4 then requestDie s4 { die := d, online := false, reason := 5 } else s4
      | none => if phsOf new < 4 then fatalError { s2 with free := s2.free + 1 } cause else s2)

/-! ### Die links (R20 to R22) -/

/-- Modules of the link between two dies, 8 being the FE die (R20). -/
def linkModules (a b : Nat) : Nat := if b == 8 && a < 8 then 4 else if b < 8 && adjacentDies a b then 2 else 0

/-- DIE_LINK_MODULE_OFF: inside an L slot, a report, every bound suspended, and a die that has lost its whole FE link goes offline
(R21, R22, R56). -/
def execDieLinkModuleOff (a b m : Nat) (s : State) : Host.Outcome State Fault Refusal :=
  if b ≤ a || linkModules a b ≤ m || moduleOff s a b m || !(s.pkg.slots.any fun x => x.kind == 3) then .next s
  else
    let key := 1000 * a + 100 * b + m
    let s1 := { s with pkg := { s.pkg with
      modsOff := NSet.add s.pkg.modsOff key, modsHalf := NSet.del s.pkg.modsHalf key, modDue := true } }
    let s2 := suspendBounds (sendCheck s1 0x168 a (leBytes 2 a ++ leBytes 2 b ++ leBytes 2 m)) (fun _ => true) 4
    if b == 8 && feLost s2 a then
      .next (requestDie s2 { die := a, online := false, reason := 4 })
    else .next s2

end Sys2Proof.Machine
end

