-- ==== Sys2Proof/Machine/Dispatch.lean ====
section
/-!
DEFINITION. One arm per constructor of `Instr`: its meaning, or its rejection by name.
-/

namespace Sys2Proof.Machine

def exec (i : Instr) (s : State) : Host.Outcome State Fault Refusal :=
  match i with
  | .doorbell a0 a1 => Sys2Proof.Machine.execDoorbell a0 a1 s
  | .completionAcknowledgement a0 a1 => Sys2Proof.Machine.execCompletionAcknowledgement a0 a1 s
  | .queueEnable a0 => Sys2Proof.Machine.execQueueEnable a0 s
  | .queueDisable a0 => Sys2Proof.Machine.execQueueDisable a0 s
  | .registerWrite a0 a1 a2 => Sys2Proof.Machine.execRegisterWrite a0 a1 a2 s
  | .launchCommand a0 => Sys2Proof.Machine.execLaunchCommand a0 s
  | .copyCommand a0 => Sys2Proof.Machine.execCopyCommand a0 s
  | .copyCommandComplete a0 a1 => Sys2Proof.Machine.execCopyCommandComplete a0 a1 s
  | .signalCommand a0 => Sys2Proof.Machine.execSignalCommand a0 s
  | .waitCommand a0 => Sys2Proof.Machine.execWaitCommand a0 s
  | .waitSatisfied a0 => Sys2Proof.Machine.execWaitSatisfied a0 s
  | .ctxCreate a0 => Sys2Proof.Machine.execCtxCreate a0 s
  | .ctxDestroy a0 => Sys2Proof.Machine.execCtxDestroy a0 s
  | .ctxRegister a0 => Sys2Proof.Machine.execCtxRegister a0 s
  | .ctxRevoke a0 => Sys2Proof.Machine.execCtxRevoke a0 s
  | .resync a0 => Sys2Proof.Machine.execResync a0 s
  | .dumpStatus a0 => Sys2Proof.Machine.execDumpStatus a0 s
  | .dumpRelease a0 => Sys2Proof.Machine.execDumpRelease a0 s
  | .attest a0 => Sys2Proof.Machine.execAttest a0 s
  | .badkind a0 => Sys2Proof.Machine.execBadkind a0 s
  | .rdmaWrite a0 a1 a2 a3 => Sys2Proof.Machine.execRdmaWrite a0 a1 a2 a3 s
  | .rdmaRead a0 a1 a2 a3 => Sys2Proof.Machine.execRdmaRead a0 a1 a2 a3 s
  | .send a0 a1 => Sys2Proof.Machine.execSend a0 a1 s
  | .ceMarkReceived a0 => Sys2Proof.Machine.execCeMarkReceived a0 s
  | .portEnableMaskWrite a0 => Sys2Proof.Machine.execPortEnableMaskWrite a0 s
  | .moduleReset => Sys2Proof.Machine.execModuleReset s
  | .bootStageVerify a0 a1 a2 => Sys2Proof.Machine.execBootStageVerify a0 a1 a2 s
  | .fatalError a0 => Sys2Proof.Machine.execFatalError a0 s
  | .uncorrectableMemoryError a0 a1 a2 => Sys2Proof.Machine.execUncorrectableMemoryError a0 a1 a2 s
  | .phaseLoss a0 a1 => Sys2Proof.Machine.execPhaseLoss a0 a1 s
  | .dieLinkModuleOff a0 a1 a2 => Sys2Proof.Machine.execDieLinkModuleOff a0 a1 a2 s
  | .dieOfflineRequest a0 a1 => Sys2Proof.Machine.execDieOfflineRequest a0 a1 s
  | .dieOnlineRequest a0 => Sys2Proof.Machine.execDieOnlineRequest a0 s
  | .pendingTransitionStart => Sys2Proof.Machine.execPendingTransitionStart s
  | .diePreemptComplete a0 => Sys2Proof.Machine.execDiePreemptComplete a0 s
  | .pageMigrate a0 a1 a2 a3 => Sys2Proof.Machine.execPageMigrate a0 a1 a2 a3 s
  | .dieEvacuateComplete a0 => Sys2Proof.Machine.execDieEvacuateComplete a0 s
  | .dieRemapComplete a0 => Sys2Proof.Machine.execDieRemapComplete a0 s
  | .dieWakeComplete a0 a1 => Sys2Proof.Machine.execDieWakeComplete a0 a1 s
  | .dieRemapinComplete a0 => Sys2Proof.Machine.execDieRemapinComplete a0 s
  | .frameBoundary => Sys2Proof.Machine.execFrameBoundary s
  | .lSlotAnnounce a0 a1 => Sys2Proof.Machine.execLSlotAnnounce a0 a1 s
  | .drainWindowBegin a0 => Sys2Proof.Machine.execDrainWindowBegin a0 s
  | .clusterSlotOpen a0 => Sys2Proof.Machine.execClusterSlotOpen a0 s
  | .slotPublishedEnd a0 => Sys2Proof.Machine.execSlotPublishedEnd a0 s
  | .slotWorkDone a0 => Sys2Proof.Machine.execSlotWorkDone a0 s
  | .slotCloseMessage a0 => Sys2Proof.Machine.execSlotCloseMessage a0 s
  | .mswinClaimExpiry a0 => Sys2Proof.Machine.execMswinClaimExpiry a0 s
  | .controlIntervalBoundary a0 => Sys2Proof.Machine.execControlIntervalBoundary a0 s
  | .speedChangeStopEnd a0 => Sys2Proof.Machine.execSpeedChangeStopEnd a0 s
  | .ratioChangeApply a0 => Sys2Proof.Machine.execRatioChangeApply a0 s
  | .c0rsvApply a0 => Sys2Proof.Machine.execC0rsvApply a0 s
  | .class0Admission a0 a1 => Sys2Proof.Machine.execClass0Admission a0 a1 s
  | .blockPlace a0 a1 => Sys2Proof.Machine.execBlockPlace a0 a1 s
  | .taskPlace a0 a1 a2 => Sys2Proof.Machine.execTaskPlace a0 a1 a2 s
  | .blockAdmit a0 => Sys2Proof.Machine.execBlockAdmit a0 s
  | .blockThrottle a0 => Sys2Proof.Machine.execBlockThrottle a0 s
  | .blockRetire a0 => Sys2Proof.Machine.execBlockRetire a0 s
  | .eventQueueDequeue a0 => Sys2Proof.Machine.execEventQueueDequeue a0 s
  | .issueArbitration a0 a1 => Sys2Proof.Machine.execIssueArbitration a0 a1 s
  | .lowerClassPark a0 a1 => Sys2Proof.Machine.execLowerClassPark a0 a1 s
  | .longLatencyWriteback a0 a1 => Sys2Proof.Machine.execLongLatencyWriteback a0 a1 s
  | .watchdogExpiry a0 => Sys2Proof.Machine.execWatchdogExpiry a0 s
  | .blockPreempt a0 => Sys2Proof.Machine.execBlockPreempt a0 s
  | .preemptSave a0 => Sys2Proof.Machine.execPreemptSave a0 s
  | .blockResume a0 a1 => Sys2Proof.Machine.execBlockResume a0 a1 s
  | .asyncOpComplete a0 a1 => Sys2Proof.Machine.execAsyncOpComplete a0 a1 s
  | .operandBeatArrive a0 a1 => Sys2Proof.Machine.execOperandBeatArrive a0 a1 s
  | .pageWalkComplete a0 a1 => Sys2Proof.Machine.execPageWalkComplete a0 a1 s
  | .segmentWakeComplete a0 a1 => Sys2Proof.Machine.execSegmentWakeComplete a0 a1 s
  | .bucketMove a0 a1 => Sys2Proof.Machine.execBucketMove a0 a1 s
  | .l2WayDisable a0 a1 => Sys2Proof.Machine.execL2WayDisable a0 a1 s
  | .upgrade a0 a1 => Sys2Proof.Machine.execUpgrade a0 a1 s
  | .readExclusive a0 a1 => Sys2Proof.Machine.execReadExclusive a0 a1 s
  | .readShared a0 a1 a2 => Sys2Proof.Machine.execReadShared a0 a1 a2 s
  | .invalidation a0 a1 => Sys2Proof.Machine.execInvalidation a0 a1 s
  | .invalidationAcknowledgement a0 a1 => Sys2Proof.Machine.execInvalidationAcknowledgement a0 a1 s
  | .forwardedSnoop a0 a1 => Sys2Proof.Machine.execForwardedSnoop a0 a1 s
  | .snoopAcknowledgement a0 a1 => Sys2Proof.Machine.execSnoopAcknowledgement a0 a1 s
  | .writeBack a0 a1 => Sys2Proof.Machine.execWriteBack a0 a1 s
  | .writeBackAcknowledgement a0 a1 => Sys2Proof.Machine.execWriteBackAcknowledgement a0 a1 s
  | .exclusiveDataGrant a0 a1 => Sys2Proof.Machine.execExclusiveDataGrant a0 a1 s
  | .registerEccError a0 a1 a2 a3 => Sys2Proof.Machine.execRegisterEccError a0 a1 a2 a3 s
  | .emitBufferRead a0 => Sys2Proof.Machine.execEmitBufferRead a0 s
  | .primitiveBin a0 => Sys2Proof.Machine.execPrimitiveBin a0 s
  | .partialFlush a0 => Sys2Proof.Machine.execPartialFlush a0 s
  | .tileAssign a0 a1 a2 => Sys2Proof.Machine.execTileAssign a0 a1 a2 s
  | .tileCheckpoint a0 a1 => Sys2Proof.Machine.execTileCheckpoint a0 a1 s
  | .fragmentWaveDispatch a0 a1 a2 => Sys2Proof.Machine.execFragmentWaveDispatch a0 a1 a2 s
  | .binningEnd a0 => Sys2Proof.Machine.execBinningEnd a0 s
  | .tileRetire a0 a1 => Sys2Proof.Machine.execTileRetire a0 a1 s
  | .hitDispatch a0 a1 a2 => Sys2Proof.Machine.execHitDispatch a0 a1 a2 s
  | .childRayTrace a0 a1 => Sys2Proof.Machine.execChildRayTrace a0 a1 s
  | .hitRecordFill a0 a1 => Sys2Proof.Machine.execHitRecordFill a0 a1 s
  | .entryTranslationFault a0 => Sys2Proof.Machine.execEntryTranslationFault a0 s
  | .hostAbort a0 a1 => Sys2Proof.Machine.execHostAbort a0 a1 s
  | .storeQueueDrain a0 => Sys2Proof.Machine.execStoreQueueDrain a0 s
  | .lineEviction a0 a1 => Sys2Proof.Machine.execLineEviction a0 a1 s
  | .nop h f => Sys2Proof.Machine.execNop h f s
  | .colo h f => Sys2Proof.Machine.execColo h f s
  | .bra h f => Sys2Proof.Machine.execBra h f s
  | .brx h f => Sys2Proof.Machine.execBrx h f s
  | .call h f => Sys2Proof.Machine.execCall h f s
  | .callx h f => Sys2Proof.Machine.execCallx h f s
  | .ret h f => Sys2Proof.Machine.execRet h f s
  | .exit h f => Sys2Proof.Machine.execExit h f s
  | .bany h f => Sys2Proof.Machine.execBany h f s
  | .ball h f => Sys2Proof.Machine.execBall h f s
  | .yield h f => Sys2Proof.Machine.execYield h f s
  | .trap h f => Sys2Proof.Machine.execTrap h f s
  | .bkpt h f => Sys2Proof.Machine.execBkpt h f s
  | .rft h f => Sys2Proof.Machine.execRft h f s
  | .loop h f => Sys2Proof.Machine.execLoop h f s
  | .jmpt h f => Sys2Proof.Machine.execJmpt h f s
  | .iadd h f => Sys2Proof.Machine.execIadd h f s
  | .isub h f => Sys2Proof.Machine.execIsub h f s
  | .imul h f => Sys2Proof.Machine.execImul h f s
  | .imulh h f => Sys2Proof.Machine.execImulh h f s
  | .imad h f => Sys2Proof.Machine.execImad h f s
  | .imadw h f => Sys2Proof.Machine.execImadw h f s
  | .idiv h f => Sys2Proof.Machine.execIdiv h f s
  | .irem h f => Sys2Proof.Machine.execIrem h f s
  | .imin h f => Sys2Proof.Machine.execImin h f s
  | .imax h f => Sys2Proof.Machine.execImax h f s
  | .iabs h f => Sys2Proof.Machine.execIabs h f s
  | .ineg h f => Sys2Proof.Machine.execIneg h f s
  | .iaddc h f => Sys2Proof.Machine.execIaddc h f s
  | .isubb h f => Sys2Proof.Machine.execIsubb h f s
  | .isad h f => Sys2Proof.Machine.execIsad h f s
  | .idot4 h f => Sys2Proof.Machine.execIdot4 h f s
  | .iaddi h f => Sys2Proof.Machine.execIaddi h f s
  | .imuli h f => Sys2Proof.Machine.execImuli h f s
  | .imadi h f => Sys2Proof.Machine.execImadi h f s
  | .imini h f => Sys2Proof.Machine.execImini h f s
  | .imaxi h f => Sys2Proof.Machine.execImaxi h f s
  | .andi h f => Sys2Proof.Machine.execAndi h f s
  | .ori h f => Sys2Proof.Machine.execOri h f s
  | .xori h f => Sys2Proof.Machine.execXori h f s
  | .shli h f => Sys2Proof.Machine.execShli h f s
  | .shri h f => Sys2Proof.Machine.execShri h f s
  | .sari h f => Sys2Proof.Machine.execSari h f s
  | .movi h f => Sys2Proof.Machine.execMovi h f s
  | .lea h f => Sys2Proof.Machine.execLea h f s
  | .leax h f => Sys2Proof.Machine.execLeax h f s
  | .sptest h f => Sys2Proof.Machine.execSptest h f s
  | .spcast h f => Sys2Proof.Machine.execSpcast h f s
  | .and_ h f => Sys2Proof.Machine.execAnd h f s
  | .or_ h f => Sys2Proof.Machine.execOr h f s
  | .xor_ h f => Sys2Proof.Machine.execXor h f s
  | .btab h f => Sys2Proof.Machine.execBtab h f s
  | .shl h f => Sys2Proof.Machine.execShl h f s
  | .shr h f => Sys2Proof.Machine.execShr h f s
  | .sar h f => Sys2Proof.Machine.execSar h f s
  | .rot h f => Sys2Proof.Machine.execRot h f s
  | .funnel h f => Sys2Proof.Machine.execFunnel h f s
  | .popc h f => Sys2Proof.Machine.execPopc h f s
  | .clz h f => Sys2Proof.Machine.execClz h f s
  | .brev h f => Sys2Proof.Machine.execBrev h f s
  | .bfx h f => Sys2Proof.Machine.execBfx h f s
  | .bfi h f => Sys2Proof.Machine.execBfi h f s
  | .icmp h f => Sys2Proof.Machine.execIcmp h f s
  | .sel h f => Sys2Proof.Machine.execSel h f s
  | .fadd h f => Sys2Proof.Machine.execFadd h f s
  | .fsub h f => Sys2Proof.Machine.execFsub h f s
  | .fmul h f => Sys2Proof.Machine.execFmul h f s
  | .ffma h f => Sys2Proof.Machine.execFfma h f s
  | .fmin h f => Sys2Proof.Machine.execFmin h f s
  | .fmax h f => Sys2Proof.Machine.execFmax h f s
  | .fcmp h f => Sys2Proof.Machine.execFcmp h f s
  | .fclass h f => Sys2Proof.Machine.execFclass h f s
  | .frnd h f => Sys2Proof.Machine.execFrnd h f s
  | .ffrc h f => Sys2Proof.Machine.execFfrc h f s
  | .fscale h f => Sys2Proof.Machine.execFscale h f s
  | .fdiv h f => Sys2Proof.Machine.execFdiv h f s
  | .fsqrt h f => Sys2Proof.Machine.execFsqrt h f s
  | .fdot2 h f => Sys2Proof.Machine.execFdot2 h f s
  | .fmed3 h f => Sys2Proof.Machine.execFmed3 h f s
  | .fsgn h f => Sys2Proof.Machine.execFsgn h f s
  | .hadd2 h f => Sys2Proof.Machine.execHadd2 h f s
  | .hmul2 h f => Sys2Proof.Machine.execHmul2 h f s
  | .hfma2 h f => Sys2Proof.Machine.execHfma2 h f s
  | .hmin2 h f => Sys2Proof.Machine.execHmin2 h f s
  | .hmax2 h f => Sys2Proof.Machine.execHmax2 h f s
  | .hcmp2 h f => Sys2Proof.Machine.execHcmp2 h f s
  | .hdot2 h f => Sys2Proof.Machine.execHdot2 h f s
  | .cadd h f => Sys2Proof.Machine.execCadd h f s
  | .cmul h f => Sys2Proof.Machine.execCmul h f s
  | .cmad h f => Sys2Proof.Machine.execCmad h f s
  | .cmulc h f => Sys2Proof.Machine.execCmulc h f s
  | .cabs2 h f => Sys2Proof.Machine.execCabs2 h f s
  | .cexpi h f => Sys2Proof.Machine.execCexpi h f s
  | .cscale h f => Sys2Proof.Machine.execCscale h f s
  | .crot h f => Sys2Proof.Machine.execCrot h f s
  | .cmag h f => Sys2Proof.Machine.execCmag h f s
  | .rcp h f => Sys2Proof.Machine.execRcp h f s
  | .rsq h f => Sys2Proof.Machine.execRsq h f s
  | .ex2 h f => Sys2Proof.Machine.execEx2 h f s
  | .lg2 h f => Sys2Proof.Machine.execLg2 h f s
  | .sint h f => Sys2Proof.Machine.execSint h f s
  | .cost h f => Sys2Proof.Machine.execCost h f s
  | .tanh h f => Sys2Proof.Machine.execTanh h f s
  | .sigm h f => Sys2Proof.Machine.execSigm h f s
  | .cvt h f => Sys2Proof.Machine.execCvt h f s
  | .cvpk2 h f => Sys2Proof.Machine.execCvpk2 h f s
  | .cvpk4 h f => Sys2Proof.Machine.execCvpk4 h f s
  | .unpk h f => Sys2Proof.Machine.execUnpk h f s
  | .pk6 h f => Sys2Proof.Machine.execPk6 h f s
  | .upk6 h f => Sys2Proof.Machine.execUpk6 h f s
  | .pki4 h f => Sys2Proof.Machine.execPki4 h f s
  | .qscl h f => Sys2Proof.Machine.execQscl h f s
  | .pull h f => Sys2Proof.Machine.execPull h f s
  | .pullt h f => Sys2Proof.Machine.execPullt h f s
  | .bcst h f => Sys2Proof.Machine.execBcst h f s
  | .poll h f => Sys2Proof.Machine.execPoll h f s
  | .vmask h f => Sys2Proof.Machine.execVmask h f s
  | .lred h f => Sys2Proof.Machine.execLred h f s
  | .lscan h f => Sys2Proof.Machine.execLscan h f s
  | .peers h f => Sys2Proof.Machine.execPeers h f s
  | .reord h f => Sys2Proof.Machine.execReord h f s
  | .perm h f => Sys2Proof.Machine.execPerm h f s
  | .mov h f => Sys2Proof.Machine.execMov h f s
  | .movs h f => Sys2Proof.Machine.execMovs h f s
  | .ccset h f => Sys2Proof.Machine.execCcset h f s
  | .ccmov h f => Sys2Proof.Machine.execCcmov h f s
  | .cclog h f => Sys2Proof.Machine.execCclog h f s
  | .first h f => Sys2Proof.Machine.execFirst h f s
  | .dmov h f => Sys2Proof.Machine.execDmov h f s
  | .dfromv h f => Sys2Proof.Machine.execDfromv h f s
  | .dtov h f => Sys2Proof.Machine.execDtov h f s
  | .ddot h f => Sys2Proof.Machine.execDdot h f s
  | .dcross h f => Sys2Proof.Machine.execDcross h f s
  | .drefl h f => Sys2Proof.Machine.execDrefl h f s
  | .drefr h f => Sys2Proof.Machine.execDrefr h f s
  | .dscl h f => Sys2Proof.Machine.execDscl h f s
  | .dnorm h f => Sys2Proof.Machine.execDnorm h f s
  | .dsetn h f => Sys2Proof.Machine.execDsetn h f s
  | .dslerp h f => Sys2Proof.Machine.execDslerp h f s
  | .dcmp h f => Sys2Proof.Machine.execDcmp h f s
  | .dneg h f => Sys2Proof.Machine.execDneg h f s
  | .dadd h f => Sys2Proof.Machine.execDadd h f s
  | .dproj h f => Sys2Proof.Machine.execDproj h f s
  | .dframe h f => Sys2Proof.Machine.execDframe h f s
  | .ld h f => Sys2Proof.Machine.execLd h f s
  | .st h f => Sys2Proof.Machine.execSt h f s
  | .ldt h f => Sys2Proof.Machine.execLdt h f s
  | .stt h f => Sys2Proof.Machine.execStt h f s
  | .ldp h f => Sys2Proof.Machine.execLdp h f s
  | .stp h f => Sys2Proof.Machine.execStp h f s
  | .lds h f => Sys2Proof.Machine.execLds h f s
  | .sts h f => Sys2Proof.Machine.execSts h f s
  | .ldc h f => Sys2Proof.Machine.execLdc h f s
  | .ldpl h f => Sys2Proof.Machine.execLdpl h f s
  | .stpl h f => Sys2Proof.Machine.execStpl h f s
  | .pref h f => Sys2Proof.Machine.execPref h f s
  | .ldgn h f => Sys2Proof.Machine.execLdgn h f s
  | .stgn h f => Sys2Proof.Machine.execStgn h f s
  | .cctl h f => Sys2Proof.Machine.execCctl h f s
  | .stashMap h f => Sys2Proof.Machine.execStashMap h f s
  | .stashUnmap h f => Sys2Proof.Machine.execStashUnmap h f s
  | .aadd h f => Sys2Proof.Machine.execAadd h f s
  | .amin h f => Sys2Proof.Machine.execAmin h f s
  | .amax h f => Sys2Proof.Machine.execAmax h f s
  | .aand h f => Sys2Proof.Machine.execAand h f s
  | .aor h f => Sys2Proof.Machine.execAor h f s
  | .axor h f => Sys2Proof.Machine.execAxor h f s
  | .axchg h f => Sys2Proof.Machine.execAxchg h f s
  | .acas h f => Sys2Proof.Machine.execAcas h f s
  | .afadd h f => Sys2Proof.Machine.execAfadd h f s
  | .ainc h f => Sys2Proof.Machine.execAinc h f s
  | .adec h f => Sys2Proof.Machine.execAdec h f s
  | .radd h f => Sys2Proof.Machine.execRadd h f s
  | .rmin h f => Sys2Proof.Machine.execRmin h f s
  | .rmax h f => Sys2Proof.Machine.execRmax h f s
  | .rfadd h f => Sys2Proof.Machine.execRfadd h f s
  | .acas2 h f => Sys2Proof.Machine.execAcas2 h f s
  | .fence h f => Sys2Proof.Machine.execFence h f s
  | .arv h f => Sys2Proof.Machine.execArv h f s
  | .arvx h f => Sys2Proof.Machine.execArvx h f s
  | .waitp h f => Sys2Proof.Machine.execWaitp h f s
  | .waitc h f => Sys2Proof.Machine.execWaitc h f s
  | .binit h f => Sys2Proof.Machine.execBinit h f s
  | .bqry h f => Sys2Proof.Machine.execBqry h f s
  | .rput h f => Sys2Proof.Machine.execRput h f s
  | .rget h f => Sys2Proof.Machine.execRget h f s
  | .rrel h f => Sys2Proof.Machine.execRrel h f s
  | .rdv h f => Sys2Proof.Machine.execRdv h f s
  | .mswin h f => Sys2Proof.Machine.execMswin h f s
  | .mslot h f => Sys2Proof.Machine.execMslot h f s
  | .speed h f => Sys2Proof.Machine.execSpeed h f s
  | .evrec h f => Sys2Proof.Machine.execEvrec h f s
  | .signal h f => Sys2Proof.Machine.execSignal h f s
  | .cpy h f => Sys2Proof.Machine.execCpy h f s
  | .cpy2d h f => Sys2Proof.Machine.execCpy2d h f s
  | .cpyt h f => Sys2Proof.Machine.execCpyt h f s
  | .gath h f => Sys2Proof.Machine.execGath h f s
  | .scat h f => Sys2Proof.Machine.execScat h f s
  | .stsp h f => Sys2Proof.Machine.execStsp h f s
  | .ldsp h f => Sys2Proof.Machine.execLdsp h f s
  | .cpypl h f => Sys2Proof.Machine.execCpypl h f s
  | .coll h f => Sys2Proof.Machine.execColl h f s
  | .rdma h f => Sys2Proof.Machine.execRdma h f s
  | .nsend h f => Sys2Proof.Machine.execNsend h f s
  | .nrecv h f => Sys2Proof.Machine.execNrecv h f s
  | .cfill h f => Sys2Proof.Machine.execCfill h f s
  | .cinv h f => Sys2Proof.Machine.execCinv h f s
  | .cstat h f => Sys2Proof.Machine.execCstat h f s
  | .cabort h f => Sys2Proof.Machine.execCabort h f s
  | .mma h f => Sys2Proof.Machine.execMma h f s
  | .mmap h f => Sys2Proof.Machine.execMmap h f s
  | .mmat h f => Sys2Proof.Machine.execMmat h f s
  | .mmapt h f => Sys2Proof.Machine.execMmapt h f s
  | .acz h f => Sys2Proof.Machine.execAcz h f s
  | .acld h f => Sys2Proof.Machine.execAcld h f s
  | .acst h f => Sys2Proof.Machine.execAcst h f s
  | .acmv h f => Sys2Proof.Machine.execAcmv h f s
  | .net h f => Sys2Proof.Machine.execNet h f s
  | .netr h f => Sys2Proof.Machine.execNetr h f s
  | .plcv h f => Sys2Proof.Machine.execPlcv h f s
  | .plq h f => Sys2Proof.Machine.execPlq h f s
  | .mscl h f => Sys2Proof.Machine.execMscl h f s
  | .msoft h f => Sys2Proof.Machine.execMsoft h f s
  | .mpairBind h f => Sys2Proof.Machine.execMpairBind h f s
  | .mpairRel h f => Sys2Proof.Machine.execMpairRel h f s
  | .mepi h f => Sys2Proof.Machine.execMepi h f s
  | .emit h f => Sys2Proof.Machine.execEmit h f s
  | .emitv h f => Sys2Proof.Machine.execEmitv h f s
  | .blend h f => Sys2Proof.Machine.execBlend h f s
  | .ztest h f => Sys2Proof.Machine.execZtest h f s
  | .tres h f => Sys2Proof.Machine.execTres h f s
  | .splat h f => Sys2Proof.Machine.execSplat h f s
  | .splatc h f => Sys2Proof.Machine.execSplatc h f s
  | .trace h f => Sys2Proof.Machine.execTrace h f s
  | .spawn h f => Sys2Proof.Machine.execSpawn h f s
  | .hit h f => Sys2Proof.Machine.execHit h f s
  | .rqry h f => Sys2Proof.Machine.execRqry h f s
  | .bldfOpen h f => Sys2Proof.Machine.execBldfOpen h f s
  | .bldfAdd h f => Sys2Proof.Machine.execBldfAdd h f s
  | .bldc h f => Sys2Proof.Machine.execBldc h f s
  | .tlck h f => Sys2Proof.Machine.execTlck h f s
  | .tlrst h f => Sys2Proof.Machine.execTlrst h f s
  | .drawx h f => Sys2Proof.Machine.execDrawx h f s
  | .rdsr h f => Sys2Proof.Machine.execRdsr h f s
  | .wrsr h f => Sys2Proof.Machine.execWrsr h f s
  | .save h f => Sys2Proof.Machine.execSave h f s
  | .rest h f => Sys2Proof.Machine.execRest h f s
  | .ctxsw h f => Sys2Proof.Machine.execCtxsw h f s
  | .tlbi h f => Sys2Proof.Machine.execTlbi h f s
  | .cflush h f => Sys2Proof.Machine.execCflush h f s
  | .wake h f => Sys2Proof.Machine.execWake h f s
  | .dieq h f => Sys2Proof.Machine.execDieq h f s
  | .logr h f => Sys2Proof.Machine.execLogr h f s
  | .perf h f => Sys2Proof.Machine.execPerf h f s
  | .bud h f => Sys2Proof.Machine.execBud h f s
  | .halt h f => Sys2Proof.Machine.execHalt h f s
  | .dbg h f => Sys2Proof.Machine.execDbg h f s
  | .brks h f => Sys2Proof.Machine.execBrks h f s
  | .ill h f => Sys2Proof.Machine.execIll h f s

end Sys2Proof.Machine
end

