-- ==== Sys2Proof/Machine/WordDispatch.lean ====
section
/-!
DEFINITION. The dispatch of an instruction word in compiled code. It answers what `exec` answers on the
instruction that `decodeWord` reads (Laws/WordDispatch.lean proves it); it builds no `Instr`, of which compiled
code can number only the first 245 constructors with fields.
-/

namespace Sys2Proof.Machine

/-- Row 0x0 (R357). -/
def execRow0 (col : Nat) (w : Word96) (s : State) : Host.Outcome State Fault Refusal :=
  let h := decodeHdr w
  match col with
  | 0 => execNop h (decodeA w) s
  | 1 => execColo h (decodeC w) s
  | 2 => execBra h (decodeB w) s
  | 3 => execBrx h (decodeB w) s
  | 4 => execCall h (decodeB w) s
  | 5 => execCallx h (decodeB w) s
  | 6 => execRet h (decodeB w) s
  | 7 => execExit h (decodeA w) s
  | 8 => execBany h (decodeB w) s
  | 9 => execBall h (decodeB w) s
  | 10 => execYield h (decodeA w) s
  | 11 => execTrap h (decodeI w) s
  | 12 => execBkpt h (decodeI w) s
  | 13 => execRft h (decodeI w) s
  | 14 => execLoop h (decodeB w) s
  | _ => execJmpt h (decodeB w) s

/-- Row 0x1 (R357). -/
def execRow1 (col : Nat) (w : Word96) (s : State) : Host.Outcome State Fault Refusal :=
  let h := decodeHdr w
  match col with
  | 0 => execIadd h (decodeA w) s
  | 1 => execIsub h (decodeA w) s
  | 2 => execImul h (decodeA w) s
  | 3 => execImulh h (decodeA w) s
  | 4 => execImad h (decodeA w) s
  | 5 => execImadw h (decodeA w) s
  | 6 => execIdiv h (decodeA w) s
  | 7 => execIrem h (decodeA w) s
  | 8 => execImin h (decodeA w) s
  | 9 => execImax h (decodeA w) s
  | 10 => execIabs h (decodeA w) s
  | 11 => execIneg h (decodeA w) s
  | 12 => execIaddc h (decodeA w) s
  | 13 => execIsubb h (decodeA w) s
  | 14 => execIsad h (decodeA w) s
  | _ => execIdot4 h (decodeA w) s

/-- Row 0x2 (R357). -/
def execRow2 (col : Nat) (w : Word96) (s : State) : Host.Outcome State Fault Refusal :=
  let h := decodeHdr w
  match col with
  | 0 => execIaddi h (decodeI w) s
  | 1 => execImuli h (decodeI w) s
  | 2 => execImadi h (decodeI w) s
  | 3 => execImini h (decodeI w) s
  | 4 => execImaxi h (decodeI w) s
  | 5 => execAndi h (decodeI w) s
  | 6 => execOri h (decodeI w) s
  | 7 => execXori h (decodeI w) s
  | 8 => execShli h (decodeI w) s
  | 9 => execShri h (decodeI w) s
  | 10 => execSari h (decodeI w) s
  | 11 => execMovi h (decodeI w) s
  | 12 => execLea h (decodeM w) s
  | 13 => execLeax h (decodeM w) s
  | 14 => execSptest h (decodeA w) s
  | _ => execSpcast h (decodeA w) s

/-- Row 0x3 (R357). -/
def execRow3 (col : Nat) (w : Word96) (s : State) : Host.Outcome State Fault Refusal :=
  let h := decodeHdr w
  match col with
  | 0 => execAnd h (decodeA w) s
  | 1 => execOr h (decodeA w) s
  | 2 => execXor h (decodeA w) s
  | 3 => execBtab h (decodeA w) s
  | 4 => execShl h (decodeA w) s
  | 5 => execShr h (decodeA w) s
  | 6 => execSar h (decodeA w) s
  | 7 => execRot h (decodeA w) s
  | 8 => execFunnel h (decodeA w) s
  | 9 => execPopc h (decodeA w) s
  | 10 => execClz h (decodeA w) s
  | 11 => execBrev h (decodeA w) s
  | 12 => execBfx h (decodeA w) s
  | 13 => execBfi h (decodeA w) s
  | 14 => execIcmp h (decodeA w) s
  | _ => execSel h (decodeA w) s

/-- Row 0x4 (R357). -/
def execRow4 (col : Nat) (w : Word96) (s : State) : Host.Outcome State Fault Refusal :=
  let h := decodeHdr w
  match col with
  | 0 => execFadd h (decodeA w) s
  | 1 => execFsub h (decodeA w) s
  | 2 => execFmul h (decodeA w) s
  | 3 => execFfma h (decodeA w) s
  | 4 => execFmin h (decodeA w) s
  | 5 => execFmax h (decodeA w) s
  | 6 => execFcmp h (decodeA w) s
  | 7 => execFclass h (decodeA w) s
  | 8 => execFrnd h (decodeA w) s
  | 9 => execFfrc h (decodeA w) s
  | 10 => execFscale h (decodeA w) s
  | 11 => execFdiv h (decodeA w) s
  | 12 => execFsqrt h (decodeA w) s
  | 13 => execFdot2 h (decodeA w) s
  | 14 => execFmed3 h (decodeA w) s
  | _ => execFsgn h (decodeA w) s

/-- Row 0x5 (R357). -/
def execRow5 (col : Nat) (w : Word96) (s : State) : Host.Outcome State Fault Refusal :=
  let h := decodeHdr w
  match col with
  | 0 => execHadd2 h (decodeA w) s
  | 1 => execHmul2 h (decodeA w) s
  | 2 => execHfma2 h (decodeA w) s
  | 3 => execHmin2 h (decodeA w) s
  | 4 => execHmax2 h (decodeA w) s
  | 5 => execHcmp2 h (decodeA w) s
  | 6 => execHdot2 h (decodeA w) s
  | 7 => execCadd h (decodeA w) s
  | 8 => execCmul h (decodeA w) s
  | 9 => execCmad h (decodeA w) s
  | 10 => execCmulc h (decodeA w) s
  | 11 => execCabs2 h (decodeA w) s
  | 12 => execCexpi h (decodeA w) s
  | 13 => execCscale h (decodeA w) s
  | 14 => execCrot h (decodeA w) s
  | _ => execCmag h (decodeA w) s

/-- Row 0x6 (R357). -/
def execRow6 (col : Nat) (w : Word96) (s : State) : Host.Outcome State Fault Refusal :=
  let h := decodeHdr w
  match col with
  | 0 => execRcp h (decodeA w) s
  | 1 => execRsq h (decodeA w) s
  | 2 => execEx2 h (decodeA w) s
  | 3 => execLg2 h (decodeA w) s
  | 4 => execSint h (decodeA w) s
  | 5 => execCost h (decodeA w) s
  | 6 => execTanh h (decodeA w) s
  | 7 => execSigm h (decodeA w) s
  | 8 => execCvt h (decodeA w) s
  | 9 => execCvpk2 h (decodeA w) s
  | 10 => execCvpk4 h (decodeA w) s
  | 11 => execUnpk h (decodeA w) s
  | 12 => execPk6 h (decodeA w) s
  | 13 => execUpk6 h (decodeA w) s
  | 14 => execPki4 h (decodeA w) s
  | _ => execQscl h (decodeA w) s

/-- Row 0x7 (R357). -/
def execRow7 (col : Nat) (w : Word96) (s : State) : Host.Outcome State Fault Refusal :=
  let h := decodeHdr w
  match col with
  | 0 => execPull h (decodeA w) s
  | 1 => execPullt h (decodeA w) s
  | 2 => execBcst h (decodeA w) s
  | 3 => execPoll h (decodeA w) s
  | 4 => execVmask h (decodeA w) s
  | 5 => execLred h (decodeA w) s
  | 6 => execLscan h (decodeA w) s
  | 7 => execPeers h (decodeA w) s
  | 8 => execReord h (decodeA w) s
  | 9 => execPerm h (decodeA w) s
  | 10 => execMov h (decodeA w) s
  | 11 => execMovs h (decodeA w) s
  | 12 => execCcset h (decodeA w) s
  | 13 => execCcmov h (decodeA w) s
  | 14 => execCclog h (decodeA w) s
  | _ => execFirst h (decodeA w) s

/-- Row 0x8 (R357). -/
def execRow8 (col : Nat) (w : Word96) (s : State) : Host.Outcome State Fault Refusal :=
  let h := decodeHdr w
  match col with
  | 0 => execDmov h (decodeA w) s
  | 1 => execDfromv h (decodeA w) s
  | 2 => execDtov h (decodeA w) s
  | 3 => execDdot h (decodeA w) s
  | 4 => execDcross h (decodeA w) s
  | 5 => execDrefl h (decodeA w) s
  | 6 => execDrefr h (decodeA w) s
  | 7 => execDscl h (decodeA w) s
  | 8 => execDnorm h (decodeA w) s
  | 9 => execDsetn h (decodeA w) s
  | 10 => execDslerp h (decodeA w) s
  | 11 => execDcmp h (decodeA w) s
  | 12 => execDneg h (decodeA w) s
  | 13 => execDadd h (decodeA w) s
  | 14 => execDproj h (decodeA w) s
  | _ => execDframe h (decodeA w) s

/-- Row 0x9 (R357). -/
def execRow9 (col : Nat) (w : Word96) (s : State) : Host.Outcome State Fault Refusal :=
  let h := decodeHdr w
  match col with
  | 0 => execLd h (decodeM w) s
  | 1 => execSt h (decodeM w) s
  | 2 => execLdt h (decodeM w) s
  | 3 => execStt h (decodeM w) s
  | 4 => execLdp h (decodeM w) s
  | 5 => execStp h (decodeM w) s
  | 6 => execLds h (decodeM w) s
  | 7 => execSts h (decodeM w) s
  | 8 => execLdc h (decodeM w) s
  | 9 => execLdpl h (decodeM w) s
  | 10 => execStpl h (decodeM w) s
  | 11 => execPref h (decodeM w) s
  | 12 => execLdgn h (decodeM w) s
  | 13 => execStgn h (decodeM w) s
  | 14 => execCctl h (decodeM w) s
  | _ => if w.getLsbD 0 then execStashUnmap h (decodeE w) s else execStashMap h (decodeE w) s

/-- Row 0xA (R357). -/
def execRow10 (col : Nat) (w : Word96) (s : State) : Host.Outcome State Fault Refusal :=
  let h := decodeHdr w
  match col with
  | 0 => execAadd h (decodeM w) s
  | 1 => execAmin h (decodeM w) s
  | 2 => execAmax h (decodeM w) s
  | 3 => execAand h (decodeM w) s
  | 4 => execAor h (decodeM w) s
  | 5 => execAxor h (decodeM w) s
  | 6 => execAxchg h (decodeM w) s
  | 7 => execAcas h (decodeM w) s
  | 8 => execAfadd h (decodeM w) s
  | 9 => execAinc h (decodeM w) s
  | 10 => execAdec h (decodeM w) s
  | 11 => execRadd h (decodeM w) s
  | 12 => execRmin h (decodeM w) s
  | 13 => execRmax h (decodeM w) s
  | 14 => execRfadd h (decodeM w) s
  | _ => execAcas2 h (decodeM w) s

/-- Row 0xB (R357). -/
def execRow11 (col : Nat) (w : Word96) (s : State) : Host.Outcome State Fault Refusal :=
  let h := decodeHdr w
  match col with
  | 0 => execFence h (decodeM w) s
  | 1 => execArv h (decodeI w) s
  | 2 => execArvx h (decodeI w) s
  | 3 => execWaitp h (decodeI w) s
  | 4 => execWaitc h (decodeI w) s
  | 5 => execBinit h (decodeI w) s
  | 6 => execBqry h (decodeI w) s
  | 7 => execRput h (decodeA w) s
  | 8 => execRget h (decodeA w) s
  | 9 => execRrel h (decodeA w) s
  | 10 => execRdv h (decodeA w) s
  | 11 => execMswin h (decodeI w) s
  | 12 => execMslot h (decodeA w) s
  | 13 => execSpeed h (decodeI w) s
  | 14 => execEvrec h (decodeI w) s
  | _ => execSignal h (decodeI w) s

/-- Row 0xC (R357). -/
def execRow12 (col : Nat) (w : Word96) (s : State) : Host.Outcome State Fault Refusal :=
  let h := decodeHdr w
  match col with
  | 0 => execCpy h (decodeE w) s
  | 1 => execCpy2d h (decodeE w) s
  | 2 => execCpyt h (decodeE w) s
  | 3 => execGath h (decodeE w) s
  | 4 => execScat h (decodeE w) s
  | 5 => execStsp h (decodeE w) s
  | 6 => execLdsp h (decodeE w) s
  | 7 => execCpypl h (decodeE w) s
  | 8 => execColl h (decodeE w) s
  | 9 => execRdma h (decodeE w) s
  | 10 => execNsend h (decodeE w) s
  | 11 => execNrecv h (decodeE w) s
  | 12 => execCfill h (decodeE w) s
  | 13 => execCinv h (decodeE w) s
  | 14 => execCstat h (decodeE w) s
  | _ => execCabort h (decodeE w) s

/-- Row 0xD (R357). -/
def execRow13 (col : Nat) (w : Word96) (s : State) : Host.Outcome State Fault Refusal :=
  let h := decodeHdr w
  match col with
  | 0 => execMma h (decodeX w) s
  | 1 => execMmap h (decodeX w) s
  | 2 => execMmat h (decodeX w) s
  | 3 => execMmapt h (decodeX w) s
  | 4 => execAcz h (decodeX w) s
  | 5 => execAcld h (decodeX w) s
  | 6 => execAcst h (decodeX w) s
  | 7 => execAcmv h (decodeX w) s
  | 8 => execNet h (decodeX w) s
  | 9 => execNetr h (decodeX w) s
  | 10 => execPlcv h (decodeE w) s
  | 11 => execPlq h (decodeX w) s
  | 12 => execMscl h (decodeX w) s
  | 13 => execMsoft h (decodeX w) s
  | 14 => if w.getLsbD 22 then execMpairBind h (decodeI w) s else execMpairRel h (decodeI w) s
  | _ => execMepi h (decodeX w) s

/-- Row 0xE (R357). -/
def execRow14 (col : Nat) (w : Word96) (s : State) : Host.Outcome State Fault Refusal :=
  let h := decodeHdr w
  match col with
  | 0 => execEmit h (decodeA w) s
  | 1 => execEmitv h (decodeA w) s
  | 2 => execBlend h (decodeA w) s
  | 3 => execZtest h (decodeA w) s
  | 4 => execTres h (decodeA w) s
  | 5 => execSplat h (decodeE w) s
  | 6 => execSplatc h (decodeE w) s
  | 7 => execTrace h (decodeA w) s
  | 8 => execSpawn h (decodeA w) s
  | 9 => execHit h (decodeA w) s
  | 10 => execRqry h (decodeA w) s
  | 11 => if w.getLsbD 0 then execBldfAdd h (decodeE w) s else execBldfOpen h (decodeE w) s
  | 12 => execBldc h (decodeE w) s
  | 13 => execTlck h (decodeE w) s
  | 14 => execTlrst h (decodeE w) s
  | _ => execDrawx h (decodeE w) s

/-- Row 0xF (R357). -/
def execRow15 (col : Nat) (w : Word96) (s : State) : Host.Outcome State Fault Refusal :=
  let h := decodeHdr w
  match col with
  | 0 => execRdsr h (decodeI w) s
  | 1 => execWrsr h (decodeI w) s
  | 2 => execSave h (decodeI w) s
  | 3 => execRest h (decodeI w) s
  | 4 => execCtxsw h (decodeI w) s
  | 5 => execTlbi h (decodeI w) s
  | 6 => execCflush h (decodeI w) s
  | 7 => execWake h (decodeI w) s
  | 8 => execDieq h (decodeI w) s
  | 9 => execLogr h (decodeI w) s
  | 10 => execPerf h (decodeI w) s
  | 11 => execBud h (decodeI w) s
  | 12 => execHalt h (decodeI w) s
  | 13 => execDbg h (decodeI w) s
  | 14 => execBrks h (decodeI w) s
  | _ => execIll h (decodeI w) s

/-- The meaning of a word (R357). -/
def execWord (w : Word96) (s : State) : Host.Outcome State Fault Refusal :=
  let col := (w.extractLsb' 88 4).toNat
  match (w.extractLsb' 92 4).toNat with
  | 0 => execRow0 col w s
  | 1 => execRow1 col w s
  | 2 => execRow2 col w s
  | 3 => execRow3 col w s
  | 4 => execRow4 col w s
  | 5 => execRow5 col w s
  | 6 => execRow6 col w s
  | 7 => execRow7 col w s
  | 8 => execRow8 col w s
  | 9 => execRow9 col w s
  | 10 => execRow10 col w s
  | 11 => execRow11 col w s
  | 12 => execRow12 col w s
  | 13 => execRow13 col w s
  | 14 => execRow14 col w s
  | _ => execRow15 col w s

end Sys2Proof.Machine
end

