-- ==== Sys2Proof/Machine/Run.lean ====
section
/-!
DEFINITION. What a step of the machine does: it takes the next input, or lets the running unit fetch and issue its next
instruction, or performs the next step of an engine of its own (R95 to R97, R125, R182 to R185, R206, R295, R319, R334 to
R336, R403).
-/

namespace Sys2Proof.Machine

/-! ### The running unit (R182, R185, R206, R319, R403) -/

/-- The header of a unit at which no instruction is decoded: every issuing lane is active. -/
def plainHdr : Hdr := { scope := .lane, gc := 0, cond := .al, fin := false }

/-- A trap taken before the instruction at the unit's PC issues. -/
def trapBefore (s : State) (gid slices : Nat) (t : Trap) : State :=
  let h := hdrAt s gid ((s.g gid).issuePc ((s.g gid).nar slices))
  takeTrap s (soloUnit s h gid slices) h false t

/-- The fault of a register error that a save found, due at the first instruction after the resumption, with member index 0 (R314, R319;
DESIGN CHOICE, log 164). -/
def eccTrap (key : Nat) : Trap :=
  let code := key / 32
  { cause := 32 + 12 + rcOf (decodeOpnd (BitVec.ofNat 10 code)), info := code + key % 32 * 2 ^ 16 }

/-- A narrow group of a split group begins a quire at a join point, in a handler as in the kernel: it waits there (R185). -/
def joinWaits (g : Group) (n : Narrow) (join : Bool) : Bool :=
  join && n.idx == 0 && !n.joined && 1 < (liveNarrows g).length

/-- The trap that a unit takes before it fetches, if it takes one: a register error found by a save, a step trap, the watchdog, the
25th instruction of a quire (R130, R206, R319, R403). -/
def dueTrap (s : State) (g : Group) (n : Narrow) : Option Trap :=
  match g.eccDue with
  | some key => some (eccTrap key)
  | none =>
    if g.stepDue && !g.sys then some { cause := 0x143 }
    else if watchDue s g then some (watchTrap g)
    else if 24 ≤ n.idx then some { cause := 2 }
    else none

/-- The word that a group's decoder sees: in a hit program scalar registers are reserved codes (R496). -/
def seenWord (g : Group) (w : Word96) : Word96 := if g.hit.isSome && !g.sys then hitWord w else w

/-- The running unit fetches and issues its next instruction. A trap that it takes before it issues one waits while its frame is
held (R54). -/
def issueNext (gid slices : Nat) (s : State) : Host.Outcome State Fault Refusal :=
  let g := s.g gid
  let n := g.nar slices
  match dueTrap s g n with
  | some t =>
    let wdog := if t.cause == 0x122 then 0 else g.wdog
    if trapHeld s gid then .next (park s (soloUnit s plainHdr gid slices) .slot)
    else .next (trapBefore (s.modGroup gid fun g => { g with eccDue := none, wdog := wdog }) gid slices t)
  | none =>
    match fetchWord s gid (g.issuePc n) with
    | .fault c fa s1 =>
      if trapHeld s gid then .next (park s (soloUnit s plainHdr gid slices) .slot)
      else .next (takeTrap s1 (soloUnit s1 plainHdr gid slices) plainHdr false { cause := c, faddr := fa })
    | .word w join s1 =>
      if joinWaits g n join then
        .next { (s1.modGroup gid fun g => g.modNar slices fun n => { n with st := .joinWait }) with cur := none }
      else execWord (seenWord g w) s1

/-- The unit that holds the issue slot may go on. -/
def unitRuns (s : State) (gid slices : Nat) : Bool :=
  match s.group gid with
  | none => false
  | some g => match g.narrow slices with
    | none => false
    | some n => n.st == .ready && eligible s gid g n

/-! ### The machine's own steps -/

/-- A step of an engine, as a function of the state. -/
abbrev Own := State → Host.Outcome State Fault Refusal

/-- The first of some steps that changes the state. -/
def firstStep (s : State) : List Own → Option State
  | [] => none
  | f :: rest =>
    match f s with
    | .next t => if t = s then firstStep s rest else some t
    | _ => firstStep s rest

/-- The steps of a group's store queue, producers, operations, rays and watchdog. -/
def groupSteps (s : State) (gid : Nat) (g : Group) : List Own :=
  (g.pend.map fun p => execLongLatencyWriteback gid p.n) ++
    ((g.ops.filter fun o => !o.complete).map fun o => execAsyncOpComplete gid o.n) ++
    (g.sq.take 1).map (fun _ => execStoreQueueDrain gid) ++
    (g.rays.flatMap fun r => [execHitRecordFill gid r.lane, execChildRayTrace gid r.lane] ++
      if r.table == 0 then []
      else (r.candidates s).map fun c => execHitDispatch g.bid g.core [(32 * gid + r.lane, c.prim)]) ++
    [execWatchdogExpiry gid]

/-- The groups by number. -/
def groupList (s : State) : List (Nat × Group) := s.groups.filterMap fun e => e.2.map fun g => (e.1, g)

/-- The draws by number. -/
def drawList (s : State) : List (Nat × Draw) := s.draws.filterMap fun e => e.2.map fun d => (e.1, d)

/-- The steps of a draw's engines; the broker takes no tile for balance by itself. -/
def drawSteps (s : State) (k : Nat) (d : Draw) : List Own :=
  if d.ended != 0 then []
  else
    let leaving (t : TileRec) : Bool := match t.owner with
      | none => false
      | some c => (s.die (dieOf c)).st == 1
    [execEmitBufferRead k, execPrimitiveBin k, execBinningEnd k] ++
      (d.tiles.flatMap fun e =>
        match e.2.st with
        | .retiring => [execTileRetire k e.1]
        | .owned =>
          (if leaving e.2 then [execTileCheckpoint k e.1] else []) ++
            ((groupList s).filter fun g => g.2.core == e.2.owner.getD 384).map (fun g => execFragmentWaveDispatch k e.1 g.1) ++
            [execTileRetire k e.1]
        | .listed => (List.range 384).map (execTileAssign k e.1)
        | .checkpointed => (List.range 384).map (execTileAssign k e.1)
        | _ => []) ++
      [execPartialFlush k]

/-- A launch of a class of lower number waits for room that a block could give it, or has just been given. -/
def higherWaits (s : State) (cls : Nat) : Bool := (List.range cls).any fun c => (classHead s c).isSome

/-- The steps in the life of a block. -/
def blockSteps (s : State) (bid : Nat) (b : Block) : List Own :=
  match b.st with
  | .retired => []
  | .placed => [execBlockRetire bid, execBlockAdmit bid, execBlockPreempt bid]
  | .admitted => [execBlockRetire bid, execBlockPreempt bid]
  | .preempting => [execBlockRetire bid, execPreemptSave bid]
  | .preempted => execBlockRetire bid ::
      if higherWaits s (s.l b.lid).cls then []
      else ((s.l b.lid).positions.filter (goodPosition s (s.l b.lid))).take 1 |>.map (execBlockResume bid)

/-- The distributors' steps: class-0 decisions, and the next block, grid or task of each class (R96, R98, R105). -/
def placeSteps (s : State) : List Own :=
  let zero := ((launchesOf s).filter fun e => e.2.cls == 0 && e.2.st == .waiting && e.2.draw.isNone).take 1
  (zero.map fun e => execClass0Admission e.1 (greedy s e.1 e.2.blocks)) ++
    (List.range 4).filterMap fun c => (classHead s c).map fun lid =>
      let l := s.l lid
      execBlockPlace lid (if l.tabled then [(taskClusters s l).take 1] else planPlaces takesNow s lid (placedAtOnce l))

/-- The ratio changes that wait for an idle cluster: asked for before anything is placed, so that each takes its first moment (R38). -/
def ratioSteps (s : State) : List Own := s.clusters.map fun e => execRatioChangeApply e.1

/-- The steps of a cluster: its event queue, tile tasks, operand links, slots, claims and changes. -/
def clusterSteps (s : State) (cl : Nat) (c : Cluster) : List Own :=
  (c.eq.take 1).map (fun _ => execEventQueueDequeue cl) ++
    (match nextTask c with
      | none => []
      | some n => match c.tasks[n]? with
        | none => []
        | some t => (if (s.l t.lid).coop then [[]] else (taskSpots s cl t).take 1).map fun p => execTaskPlace cl n p) ++
    ((List.range 4).map fun d => execOperandBeatArrive cl d) ++
    [execClusterSlotOpen cl, execSlotCloseMessage cl, execDrainWindowBegin cl, execMswinClaimExpiry cl, execSpeedChangeStopEnd cl,
     execControlIntervalBoundary cl, execC0rsvApply cl]

/-- The steps of a queue and its processor. -/
def queueSteps (n : Nat) (q : Queue) : List Own :=
  [flushQueue n, execEntryTranslationFault n, execLaunchCommand n, execCopyCommand n, execSignalCommand n, execWaitCommand n, execCtxCreate n,
   execCtxDestroy n, execCtxRegister n, execCtxRevoke n, execResync n, execDumpStatus n, execDumpRelease n, execAttest n,
   execBadkind n] ++
    (match q.waiting with
      | some _ => [execWaitSatisfied n]
      | none => []) ++
    q.copies.map fun c => execCopyCommandComplete n c.1

/-- The steps of a directory line's messages. -/
def lineSteps (line : Nat) : List Own :=
  lineService line :: (List.range 9).flatMap fun die =>
    [execInvalidation die line, execInvalidationAcknowledgement die line, execForwardedSnoop die line,
     execSnoopAcknowledgement die line, execWriteBack die line, execWriteBackAcknowledgement die line,
     execExclusiveDataGrant die line]

/-- The bucket that the rebalancer moves next, off a die in REMAP or back to its own slice in REMAPIN, and its slice (R29,
R30). -/
def bucketStep (s : State) : List Own :=
  let off := (List.range 4096).find? fun b => (s.die (sliceOf s b / 12)).st == 3
  let back := (List.range 4096).find? fun b => sliceOf s b != b % 96 && (s.die (b % 96 / 12)).st == 6
  (match off with
    | none => []
    | some b => (((List.range 96).filter (sliceUsable s)).take 1).map fun k => execBucketMove b k) ++
  match back with
    | none => []
    | some b => [execBucketMove b (b % 96)]

/-- The steps of the calendar, which runs on after a fatal error (R44, R82). -/
def calendarSteps : List Own := [execFrameBoundary, execSlotPublishedEnd true]

/-- The steps of the package. -/
def packageSteps (s : State) : List Own :=
  calendarSteps ++ [execPendingTransitionStart] ++
    ((List.range 8).flatMap fun d =>
      if (s.die d).st == 0 then []
      else [execDiePreemptComplete d, execDieEvacuateComplete d, execDieRemapComplete d, execDieRemapinComplete d]) ++
    if (List.range 8).any fun d => (s.die d).st == 3 || (s.die d).st == 6 then bucketStep s else []

/-- The gated segments that blocks ask for come awake (R401). -/
def wakeSteps (s : State) : List Own :=
  (((blocksOf s).filter fun b => b.2.resident).flatMap fun b => b.2.cores.filter fun k => k.wake != 0).map fun k =>
    execSegmentWakeComplete k.core 0

/-- The host side's steps: the RDMA requests that a slot held, then every queue that has been written. -/
def hostSteps (s : State) : List Own := serveInbound :: s.host.queues.flatMap fun e => queueSteps e.1 e.2

/-- The groups that could give up their slots for a higher class (R126). -/
def parkSteps (s : State) : List Own :=
  (groupList s).flatMap fun e => (e.2.narrows.filter fun n => n.st == .parked).map fun n => execLowerClassPark e.1 n.slices

/-- Every step that an engine of the machine could take now, in the order in which the model asks for them. -/
def ownSteps (s : State) : List Own :=
  hostSteps s ++
    (if s.host.fatal.isSome then calendarSteps
     else
      ratioSteps s ++ ((groupList s).flatMap fun e => groupSteps s e.1 e.2) ++ ((drawList s).flatMap fun e => drawSteps s e.1 e.2) ++
        ((blocksOf s).flatMap fun e => blockSteps s e.1 e.2) ++ placeSteps s ++ packageSteps s ++
        (s.clusters.flatMap fun e => clusterSteps s e.1 e.2) ++ [serveFills] ++ (s.dir.flatMap fun e => lineSteps e.1) ++
        wakeSteps s ++ parkSteps s)

/-! ### The choice of a quarter (R125) -/

/-- The quarters of the cores that hold groups. -/
def quartersOf (s : State) : List (Nat × Nat) := ((groupList s).map fun e => (e.2.core, e.2.quarter)).eraseDups

/-- The number of the arbitration that last chose the unit which a quarter would choose now. -/
def quarterTurn (s : State) (q : Nat × Nat) : Option Nat :=
  let s1 := refuseAll s q.1 q.2
  (winner s1 q.1 q.2).map fun w => ((s1.g w.1).nar w.2).last

/-- The quarter that arbitrates next: of those with an eligible unit, the one whose choice issued least recently. -/
def nextQuarter (s : State) : Option (Nat × Nat) :=
  let l := (quartersOf s).filterMap fun q => (quarterTurn s q).map fun t => (q, t)
  match l with
  | [] => none
  | x :: rest => some (rest.foldl (fun a b => if b.2 < a.2 then b else a) x).1

/-- A step of the machine's own: its running unit's next instruction, else the next step of an engine, else the choice of
another unit, else nothing. After a fatal error issue and engines stand still (R82). -/
def ownStep (s : State) : Host.Outcome State Fault Refusal :=
  match s.cur with
  | some (gid, slices) =>
    if s.host.fatal.isNone && unitRuns s gid slices then issueNext gid slices s else .next { s with cur := none }
  | none =>
    match firstStep s (ownSteps s) with
    | some t => .next t
    | none =>
      if s.host.fatal.isSome then .next s
      else match nextQuarter s with
      | none => .next s
      | some q => execIssueArbitration q.1 q.2 s

/-! ### Inputs -/

/-- Firmware binds a connection to a context; a port holds at most 4,096 connections (R64, R466). -/
def bindConnection (s : State) (conn ctx : Nat) : State :=
  let mine := (s.host.bound.map (·.1)).eraseDups.filter fun c => bits c 26 24 == bits conn 26 24
  if s.host.bound.contains (conn, ctx) || (4096 ≤ mine.length && !mine.contains conn) then s
  else { s with host := { s.host with bound := s.host.bound ++ [(conn, ctx)] } }

/-- The oldest RDMA operation on a connection that has no answer yet gets one (R466). -/
def answerRequest (conn : Nat) (data : Option (List Byte)) : List RdmaReq → List RdmaReq
  | [] => []
  | r :: rest =>
    if r.conn == conn && r.reply.isNone then { r with reply := some data } :: rest else r :: answerRequest conn data rest

/-- What an input that is neither a step nor an event does. -/
def applyInput (i : Input) (s : State) : State :=
  match i with
  | .advance => s
  | .event _ => s
  | .elapse cl n => if cl < 96 then elapse cl n s else s
  | .refTime n => { s with pkg := { s.pkg with ns := s.pkg.ns + n } }
  | .upset core again => s.setCore core { s.core core with upset := true, upsetAgain := again }
  | .tileCorrectable core => countErr s core 2
  | .connectionError conn => { s with host := { s.host with connErr := NSet.add s.host.connErr conn } }
  | .connectionBind conn ctx => bindConnection s conn ctx
  | .remoteReply conn data =>
    if portUp s conn then { s with host := { s.host with requests := answerRequest conn data s.host.requests } } else s
  | .railCurrent k x => if k < 26 then { s with pkg := { s.pkg with currents := FMap.set 0 s.pkg.currents k x } } else s
  | .dieTemperature d x => if d < 9 then { s with pkg := { s.pkg with temps := FMap.set 0 s.pkg.temps d x } } else s
  | .tlbDrop ctx vpn => { s with tlb := s.tlb.filter fun e => !(e.ctx == ctx && e.vpn ≤ vpn && vpn < e.vpn + e.pages) }

/-- The outcome of a step with what follows from it at once. -/
def settled (o : Host.Outcome State Fault Refusal) : Host.Outcome State Fault Refusal :=
  match o with
  | .next t => .next (settle t)
  | .fault f => .fault f
  | .refused r => .refused r

/-! ### An instruction where the next step fetches it -/

/-- The word of a folio that holds one instruction in slot 0: its parity bit, and that of the folio word (R333 to R335). -/
def loneFolio (w : Word96) : Nat := 12 * (popc 96 w.toNat % 2)

/-- The launch record of a block of one group with every register declared, of the role that runs the word (R90, R168). -/
def stageRecord (w : Word96) : List DWord :=
  let row := w.toNat / 2 ^ 92
  let role := if row == 0xC then 0 else if row == 0xD then 1 else 2
  [0x3000, 0, 0x0001000100000001, 0x0000000100010020, 0x000000FF00100102, 0x0000000210A00100, BitVec.ofNat 64 role, 1] ++
    List.replicate 24 0

/-- A table of one context that maps 1 GiB of LPDDR6 with every right at virtual address 0 (R272, R273). -/
def stageTables (s : State) : State :=
  let s1 := putMems s 0x10000000000 (leBytes 8 0x10000001001)
  let s2 := putMems s1 0x10000001000 (leBytes 8 0x10000002001)
  putMems s2 0x10000002000 (leBytes 8 0x1000000001F)

/-- The machine with a word in the folio at which a lone group of a new launch stands, ready to issue (R163, R333). -/
def stageWord (w : Word96) (s : State) : State :=
  let s1 := putMems (stageTables s) 0x10000003000 (leBytes 12 w.toNat ++ leBytes 48 0 ++ leBytes 4 (loneFolio w))
  let lid := s.nextLaunch
  let bid := s.nextBlock
  let l : Launch := { Launch.blank with words := stageRecord w, st := .running, placed := 1 }
  let b : Block := { Block.blank with
    lid := lid, st := .admitted, ps := (freePrivate s).getD 0, cores := [BCore.blank], seats := [(0, 0)] }
  let s2 := ((s1.setLaunch lid l).setBlock bid b).setGroup (gidOf bid 0) (newGroup l b bid 0 [])
  let s3 := s2.setCluster 0 { s2.cluster 0 with stop := 0 }
  let s4 := s3.setCore 0 { s3.core 0 with upset := false }
  { s4 with
    ctxs := FMap.set none s4.ctxs 0 (some 0x10000000000)
    tlb := s4.tlb.filter fun e => e.ctx != 0
    host := { s4.host with fatal := none }
    inbox := [], cur := some (gidOf bid 0, 255), nextLaunch := lid + 1, nextBlock := bid + 1 }

end Sys2Proof.Machine
end

