-- ==== Sys2Proof/WellFormed.lean ====
section
/-!
DEFINITION. Well-formed instructions: every register number, immediate and index lies in the range that its field or the
device gives it (R14, R23, R67, R343, R351, R353).
-/

namespace Sys2Proof

/-- An operand that a register code names (R343): a reserved one keeps a code that names nothing else. -/
def Opnd.wf : Opnd → Bool
  | .v n => decide (n < 256)
  | .s n => decide (n < 160)
  | .spec n => decide (n < 32)
  | .t n => decide (n < 8)
  | .d n => decide (n < 16)
  | .c n => decide (n < 4)
  | .imm k => decide (-32 ≤ k) && decide (k < 32)
  | .zr => true
  | .rsvd x => decide (decodeOpnd x = .rsvd x)

/-- A source field. -/
def Src.wf (x : Src) : Bool := x.reg.wf

/-- Format A. -/
def FmtA.wf (f : FmtA) : Bool := f.dst.wf && f.sa.wf && f.sb.wf && f.sc.wf

/-- Format I. -/
def FmtI.wf (f : FmtI) : Bool := f.dst.wf && f.sa.wf

/-- Format M. -/
def FmtM.wf (f : FmtM) : Bool := f.data.wf && f.base.wf && f.index.wf

/-- Format B: four await slots. -/
def FmtB.wf (f : FmtB) : Bool := decide (f.await.length = 4) && f.await.all Opnd.wf

/-- Format C: seven await slots. -/
def FmtC.wf (f : FmtC) : Bool := decide (f.await.length = 7) && f.await.all Opnd.wf

/-- Format E. -/
def FmtE.wf (f : FmtE) : Bool := f.desc.wf && f.sa.wf && f.sb.wf

/-- Format X. -/
def FmtX.wf (f : FmtX) : Bool := f.abase.wf && f.bbase.wf && f.shape.wf

/-- An instruction is well-formed: a device or host step names indices that exist; an encoded one has operands that its
fields can hold, and the function bit that tells its row of the opcode table apart (R442, R474, R493). -/
def Instr.wf : Instr → Bool
  | .doorbell q _ => decide (q < 128)
  | .completionAcknowledgement q _ => decide (q < 128)
  | .queueEnable q => decide (q < 128)
  | .queueDisable q => decide (q < 128)
  | .registerWrite _ size _ => decide (size < 9)
  | .launchCommand q => decide (q < 128)
  | .copyCommand q => decide (q < 128)
  | .copyCommandComplete q _ => decide (q < 128)
  | .signalCommand q => decide (q < 128)
  | .waitCommand q => decide (q < 128)
  | .waitSatisfied q => decide (q < 128)
  | .ctxCreate q => decide (q < 128)
  | .ctxDestroy q => decide (q < 128)
  | .ctxRegister q => decide (q < 128)
  | .ctxRevoke q => decide (q < 128)
  | .resync q => decide (q < 128)
  | .dumpStatus q => decide (q < 128)
  | .dumpRelease q => decide (q < 128)
  | .attest q => decide (q < 128)
  | .badkind q => decide (q < 128)
  | .rdmaWrite _ _ _ _ => true
  | .rdmaRead _ _ _ _ => true
  | .send _ _ => true
  | .ceMarkReceived _ => true
  | .portEnableMaskWrite _ => true
  | .moduleReset => true
  | .bootStageVerify stage _ _ => decide (stage < 5)
  | .fatalError _ => true
  | .uncorrectableMemoryError detail _ line => decide (detail < 32) && decide (line < 2 ^ 14)
  | .phaseLoss rail _ => decide (rail < 26)
  | .dieLinkModuleOff a b m => decide (a < 9) && decide (b < 9) && decide (m < 4)
  | .dieOfflineRequest die reason => decide (die < 9) && decide (reason < 6)
  | .dieOnlineRequest die => decide (die < 9)
  | .pendingTransitionStart => true
  | .diePreemptComplete die => decide (die < 9)
  | .pageMigrate die ctx _ _ => decide (die < 9) && decide (ctx < 256)
  | .dieEvacuateComplete die => decide (die < 9)
  | .dieRemapComplete die => decide (die < 9)
  | .dieWakeComplete die _ => decide (die < 9)
  | .dieRemapinComplete die => decide (die < 9)
  | .frameBoundary => true
  | .lSlotAnnounce frame lenNs => decide (frame < 4294967296) && decide (lenNs < 2001)
  | .drainWindowBegin cl => decide (cl < 96)
  | .clusterSlotOpen cl => decide (cl < 96)
  | .slotPublishedEnd _ => true
  | .slotWorkDone _ => true
  | .slotCloseMessage cl => decide (cl < 96)
  | .mswinClaimExpiry cl => decide (cl < 96)
  | .controlIntervalBoundary cl => decide (cl < 96)
  | .speedChangeStopEnd cl => decide (cl < 96)
  | .ratioChangeApply cl => decide (cl < 96)
  | .c0rsvApply cl => decide (cl < 96)
  | .class0Admission _ _ => true
  | .blockPlace _ _ => true
  | .taskPlace cl _ _ => decide (cl < 96)
  | .blockAdmit _ => true
  | .blockThrottle _ => true
  | .blockRetire _ => true
  | .eventQueueDequeue cl => decide (cl < 96)
  | .issueArbitration core quarter => decide (core < 384) && decide (quarter < 4)
  | .lowerClassPark _ _ => true
  | .longLatencyWriteback _ _ => true
  | .watchdogExpiry _ => true
  | .blockPreempt _ => true
  | .preemptSave _ => true
  | .blockResume _ _ => true
  | .asyncOpComplete _ _ => true
  | .operandBeatArrive cl dir => decide (cl < 96) && decide (dir < 4)
  | .pageWalkComplete ctx _ => decide (ctx < 256)
  | .segmentWakeComplete core seg => decide (core < 384) && decide (seg < 16)
  | .bucketMove bucket slice => decide (bucket < 4096) && decide (slice < 96)
  | .l2WayDisable slice ways => decide (slice < 96) && decide (ways < 17)
  | .upgrade die _ => decide (die < 9)
  | .readExclusive die _ => decide (die < 9)
  | .readShared die _ near => decide (die < 9) && near.all fun k => k / 3 == die
  | .invalidation die _ => decide (die < 9)
  | .invalidationAcknowledgement die _ => decide (die < 9)
  | .forwardedSnoop die _ => decide (die < 9)
  | .snoopAcknowledgement die _ => decide (die < 9)
  | .writeBack die _ => decide (die < 9)
  | .writeBackAcknowledgement die _ => decide (die < 9)
  | .exclusiveDataGrant die _ => decide (die < 9)
  | .registerEccError _ code lane _ => decide (code < 552) && decide (lane < 32)
  | .emitBufferRead _ => true
  | .primitiveBin _ => true
  | .partialFlush _ => true
  | .tileAssign _ tile core => decide (tile < 65536) && decide (core < 384)
  | .tileCheckpoint _ tile => decide (tile < 65536)
  | .fragmentWaveDispatch _ tile _ => decide (tile < 65536)
  | .binningEnd _ => true
  | .tileRetire _ tile => decide (tile < 65536)
  | .hitDispatch _ core _ => decide (core < 384)
  | .childRayTrace _ lane => decide (lane < 32)
  | .hitRecordFill _ lane => decide (lane < 32)
  | .entryTranslationFault q => decide (q < 128)
  | .hostAbort q _ => decide (q < 128)
  | .storeQueueDrain _ => true
  | .lineEviction die _ => decide (die < 9)
  | .nop _ f => f.wf
  | .colo _ f => f.wf
  | .bra _ f => f.wf
  | .brx _ f => f.wf
  | .call _ f => f.wf
  | .callx _ f => f.wf
  | .ret _ f => f.wf
  | .exit _ f => f.wf
  | .bany _ f => f.wf
  | .ball _ f => f.wf
  | .yield _ f => f.wf
  | .trap _ f => f.wf
  | .bkpt _ f => f.wf
  | .rft _ f => f.wf
  | .loop _ f => f.wf
  | .jmpt _ f => f.wf
  | .iadd _ f => f.wf
  | .isub _ f => f.wf
  | .imul _ f => f.wf
  | .imulh _ f => f.wf
  | .imad _ f => f.wf
  | .imadw _ f => f.wf
  | .idiv _ f => f.wf
  | .irem _ f => f.wf
  | .imin _ f => f.wf
  | .imax _ f => f.wf
  | .iabs _ f => f.wf
  | .ineg _ f => f.wf
  | .iaddc _ f => f.wf
  | .isubb _ f => f.wf
  | .isad _ f => f.wf
  | .idot4 _ f => f.wf
  | .iaddi _ f => f.wf
  | .imuli _ f => f.wf
  | .imadi _ f => f.wf
  | .imini _ f => f.wf
  | .imaxi _ f => f.wf
  | .andi _ f => f.wf
  | .ori _ f => f.wf
  | .xori _ f => f.wf
  | .shli _ f => f.wf
  | .shri _ f => f.wf
  | .sari _ f => f.wf
  | .movi _ f => f.wf
  | .lea _ f => f.wf
  | .leax _ f => f.wf
  | .sptest _ f => f.wf
  | .spcast _ f => f.wf
  | .and_ _ f => f.wf
  | .or_ _ f => f.wf
  | .xor_ _ f => f.wf
  | .btab _ f => f.wf
  | .shl _ f => f.wf
  | .shr _ f => f.wf
  | .sar _ f => f.wf
  | .rot _ f => f.wf
  | .funnel _ f => f.wf
  | .popc _ f => f.wf
  | .clz _ f => f.wf
  | .brev _ f => f.wf
  | .bfx _ f => f.wf
  | .bfi _ f => f.wf
  | .icmp _ f => f.wf
  | .sel _ f => f.wf
  | .fadd _ f => f.wf
  | .fsub _ f => f.wf
  | .fmul _ f => f.wf
  | .ffma _ f => f.wf
  | .fmin _ f => f.wf
  | .fmax _ f => f.wf
  | .fcmp _ f => f.wf
  | .fclass _ f => f.wf
  | .frnd _ f => f.wf
  | .ffrc _ f => f.wf
  | .fscale _ f => f.wf
  | .fdiv _ f => f.wf
  | .fsqrt _ f => f.wf
  | .fdot2 _ f => f.wf
  | .fmed3 _ f => f.wf
  | .fsgn _ f => f.wf
  | .hadd2 _ f => f.wf
  | .hmul2 _ f => f.wf
  | .hfma2 _ f => f.wf
  | .hmin2 _ f => f.wf
  | .hmax2 _ f => f.wf
  | .hcmp2 _ f => f.wf
  | .hdot2 _ f => f.wf
  | .cadd _ f => f.wf
  | .cmul _ f => f.wf
  | .cmad _ f => f.wf
  | .cmulc _ f => f.wf
  | .cabs2 _ f => f.wf
  | .cexpi _ f => f.wf
  | .cscale _ f => f.wf
  | .crot _ f => f.wf
  | .cmag _ f => f.wf
  | .rcp _ f => f.wf
  | .rsq _ f => f.wf
  | .ex2 _ f => f.wf
  | .lg2 _ f => f.wf
  | .sint _ f => f.wf
  | .cost _ f => f.wf
  | .tanh _ f => f.wf
  | .sigm _ f => f.wf
  | .cvt _ f => f.wf
  | .cvpk2 _ f => f.wf
  | .cvpk4 _ f => f.wf
  | .unpk _ f => f.wf
  | .pk6 _ f => f.wf
  | .upk6 _ f => f.wf
  | .pki4 _ f => f.wf
  | .qscl _ f => f.wf
  | .pull _ f => f.wf
  | .pullt _ f => f.wf
  | .bcst _ f => f.wf
  | .poll _ f => f.wf
  | .vmask _ f => f.wf
  | .lred _ f => f.wf
  | .lscan _ f => f.wf
  | .peers _ f => f.wf
  | .reord _ f => f.wf
  | .perm _ f => f.wf
  | .mov _ f => f.wf
  | .movs _ f => f.wf
  | .ccset _ f => f.wf
  | .ccmov _ f => f.wf
  | .cclog _ f => f.wf
  | .first _ f => f.wf
  | .dmov _ f => f.wf
  | .dfromv _ f => f.wf
  | .dtov _ f => f.wf
  | .ddot _ f => f.wf
  | .dcross _ f => f.wf
  | .drefl _ f => f.wf
  | .drefr _ f => f.wf
  | .dscl _ f => f.wf
  | .dnorm _ f => f.wf
  | .dsetn _ f => f.wf
  | .dslerp _ f => f.wf
  | .dcmp _ f => f.wf
  | .dneg _ f => f.wf
  | .dadd _ f => f.wf
  | .dproj _ f => f.wf
  | .dframe _ f => f.wf
  | .ld _ f => f.wf
  | .st _ f => f.wf
  | .ldt _ f => f.wf
  | .stt _ f => f.wf
  | .ldp _ f => f.wf
  | .stp _ f => f.wf
  | .lds _ f => f.wf
  | .sts _ f => f.wf
  | .ldc _ f => f.wf
  | .ldpl _ f => f.wf
  | .stpl _ f => f.wf
  | .pref _ f => f.wf
  | .ldgn _ f => f.wf
  | .stgn _ f => f.wf
  | .cctl _ f => f.wf
  | .stashMap _ f => f.wf && !f.fn.getLsbD 0
  | .stashUnmap _ f => f.wf && f.fn.getLsbD 0
  | .aadd _ f => f.wf
  | .amin _ f => f.wf
  | .amax _ f => f.wf
  | .aand _ f => f.wf
  | .aor _ f => f.wf
  | .axor _ f => f.wf
  | .axchg _ f => f.wf
  | .acas _ f => f.wf
  | .afadd _ f => f.wf
  | .ainc _ f => f.wf
  | .adec _ f => f.wf
  | .radd _ f => f.wf
  | .rmin _ f => f.wf
  | .rmax _ f => f.wf
  | .rfadd _ f => f.wf
  | .acas2 _ f => f.wf
  | .fence _ f => f.wf
  | .arv _ f => f.wf
  | .arvx _ f => f.wf
  | .waitp _ f => f.wf
  | .waitc _ f => f.wf
  | .binit _ f => f.wf
  | .bqry _ f => f.wf
  | .rput _ f => f.wf
  | .rget _ f => f.wf
  | .rrel _ f => f.wf
  | .rdv _ f => f.wf
  | .mswin _ f => f.wf
  | .mslot _ f => f.wf
  | .speed _ f => f.wf
  | .evrec _ f => f.wf
  | .signal _ f => f.wf
  | .cpy _ f => f.wf
  | .cpy2d _ f => f.wf
  | .cpyt _ f => f.wf
  | .gath _ f => f.wf
  | .scat _ f => f.wf
  | .stsp _ f => f.wf
  | .ldsp _ f => f.wf
  | .cpypl _ f => f.wf
  | .coll _ f => f.wf
  | .rdma _ f => f.wf
  | .nsend _ f => f.wf
  | .nrecv _ f => f.wf
  | .cfill _ f => f.wf
  | .cinv _ f => f.wf
  | .cstat _ f => f.wf
  | .cabort _ f => f.wf
  | .mma _ f => f.wf
  | .mmap _ f => f.wf
  | .mmat _ f => f.wf
  | .mmapt _ f => f.wf
  | .acz _ f => f.wf
  | .acld _ f => f.wf
  | .acst _ f => f.wf
  | .acmv _ f => f.wf
  | .net _ f => f.wf
  | .netr _ f => f.wf
  | .plcv _ f => f.wf
  | .plq _ f => f.wf
  | .mscl _ f => f.wf
  | .msoft _ f => f.wf
  | .mpairBind _ f => f.wf && f.imm.getLsbD 0
  | .mpairRel _ f => f.wf && !f.imm.getLsbD 0
  | .mepi _ f => f.wf
  | .emit _ f => f.wf
  | .emitv _ f => f.wf
  | .blend _ f => f.wf
  | .ztest _ f => f.wf
  | .tres _ f => f.wf
  | .splat _ f => f.wf
  | .splatc _ f => f.wf
  | .trace _ f => f.wf
  | .spawn _ f => f.wf
  | .hit _ f => f.wf
  | .rqry _ f => f.wf
  | .bldfOpen _ f => f.wf && !f.fn.getLsbD 0
  | .bldfAdd _ f => f.wf && f.fn.getLsbD 0
  | .bldc _ f => f.wf
  | .tlck _ f => f.wf
  | .tlrst _ f => f.wf
  | .drawx _ f => f.wf
  | .rdsr _ f => f.wf
  | .wrsr _ f => f.wf
  | .save _ f => f.wf
  | .rest _ f => f.wf
  | .ctxsw _ f => f.wf
  | .tlbi _ f => f.wf
  | .cflush _ f => f.wf
  | .wake _ f => f.wf
  | .dieq _ f => f.wf
  | .logr _ f => f.wf
  | .perf _ f => f.wf
  | .bud _ f => f.wf
  | .halt _ f => f.wf
  | .dbg _ f => f.wf
  | .brks _ f => f.wf
  | .ill _ f => f.wf

/-- An instruction that a word encodes; the others are steps of the device or the host. -/
def Instr.coded (i : Instr) : Bool := (encodeWord i).isSome

end Sys2Proof
end

