-- ==== Sys2Proof/Machine/Step.lean ====
section
/-!
DEFINITION. The step: the next input, or a step of the machine's own; and the placing of an instruction where the next
step fetches it.
-/

namespace Sys2Proof.Machine

/-- One step. A device or host step that comes as an input is run as its instruction; an encoded instruction runs only when a
unit fetches it. -/
def step (s : State) : Host.Outcome State Fault Refusal :=
  match s.inbox with
  | [] => settled (ownStep s)
  | .advance :: rest => settled (ownStep { s with inbox := rest })
  | .event i :: rest => if i.coded then .next { s with inbox := rest } else settled (exec i { s with inbox := rest })
  | i :: rest => .next (settle (applyInput i { s with inbox := rest }))

/-- `s` with an instruction in the folio that the next step fetches. -/
def State.withFetchWord (s : State) (nbits w : Nat) : State := stageWord (BitVec.ofNat 96 (w % 2 ^ nbits)) s

end Sys2Proof.Machine
end

