-- ==== Sys2Proof/Safety.lean ====
section
/-!
DEFINITION. What a safe state and a safe run are, in the terms that claims use.
-/

namespace Sys2Proof.Machine

/-- Memory is in its canonical form: addresses rise strictly, and no listed byte is the 0 that an unlisted one reads. -/
abbrev Memory.wf (s : State) : Bool := FMap.wf (0 : Byte) s.mem

/-- A state reached from another by `n` steps that all answer a next state. -/
def runsTo : Nat → State → State → Prop
  | 0, s, t => s = t
  | n + 1, s, t => ∃ u, step s = .next u ∧ runsTo n u t

/-- A run is safe when no step of it stops: each answers a next state. -/
def safeFor (n : Nat) (s : State) : Prop := ∃ t, runsTo n s t

/-- An encoded instruction of a header and a shape executes in a state: its narrow group holds the issue slot, the encoding,
scope, role and mode are in order, no quire budget is exceeded, every member of its unit has arrived, and its registers are
declared, aligned, full and free of errors (R176, R193, R194, R202, R313). `s1` is the state with the arrival, at lane scope
`s` itself, and `u` is the unit with its active lanes. -/
def Runs (s : State) (h : Hdr) (sh : Shape) (s1 : State) (u : Ux) : Prop :=
  executing s h sh = some (s1, u) ∧ regStop s1 u sh = none

/-- An encoded instruction completes, whenever it executes and a condition holds on the state and the unit, with the effect
`e`, unless that effect newly sets a status bit that traps (R332). -/
def Commits (i : Instr) (h : Hdr) (sh : State → Shape) (ok : State → Ux → Prop) (e : State → Ux → Eff) : Prop :=
  ∀ s s1 u, Runs s h (sh s) s1 u → ok s1 u → fstTrap s1 (e s1 u) = none →
    exec i s = .next (commit u h (sh s).perCore (e s1 u))

/-- The same where the effect is that of something which the instruction finds first, such as the places that it accesses,
and a search that finds none stops it. -/
def CommitsWith {ε α : Type} (i : Instr) (h : Hdr) (sh : State → Shape) (find : State → Ux → Except ε α)
    (e : State → Ux → α → Eff) : Prop :=
  ∀ s s1 u a, Runs s h (sh s) s1 u → find s1 u = .ok a → fstTrap s1 (e s1 u a) = none →
    exec i s = .next (commit u h (sh s).perCore (e s1 u a))

/-- An encoded instruction takes a trap, whenever it executes and a condition holds on the state and the unit: as that of the
once-execution of a wider scope where it has one (R179, R314, R315). -/
def Traps (i : Instr) (h : Hdr) (sh : State → Shape) (ok : State → Ux → Prop) (t : State → Ux → Trap) : Prop :=
  ∀ s s1 u, Runs s h (sh s) s1 u → ok s1 u → exec i s = .next (takeTrap s1 u h (h.scope != .lane) (t s1 u))

/-- An encoded instruction waits, whenever it executes and a condition holds on the state and the unit: its narrow group
parks, and issues the instruction again once the wait is over (R126). -/
def Parks (i : Instr) (h : Hdr) (sh : State → Shape) (ok : State → Ux → Prop) (w : State → Ux → Wait) : Prop :=
  ∀ s s1 u, Runs s h (sh s) s1 u → ok s1 u → exec i s = .next (stallAt s1 u (w s1 u))

/-- An encoded instruction completes, whenever it executes, with a result of `w` bits and flags in each lane (R346, R371). -/
def Delivers (i : Instr) (h : Hdr) (sh : Shape) (dst : Opnd) (w : Nat) (cw : BitVec 3)
    (g : State → Ux → Pos → Nat × BitVec 4) : Prop :=
  ∀ s s1 u, Runs s h sh s1 u → exec i s = .next (commit u h false { st := writeLanes s1 u dst w cw (g s1 u) })

/-- An encoded instruction completes, whenever it executes, with a result of `w` bits, status bits and flags in each lane,
short- or long-latency, unless a newly set status bit traps (R197, R201, R332, R408). -/
def DeliversF (i : Instr) (h : Hdr) (sh : Shape) (dst : Opnd) (cw : BitVec 3) (w : Nat) (long : Bool)
    (g : State → Ux → Pos → FRes) : Prop :=
  Commits i h (fun _ => sh) (fun _ _ => True) fun s u => floatWrite u s dst cw w long (g s u)

end Sys2Proof.Machine
end

