-- ==== Sys2Proof/Certificates/Slice0/Obligations.lean ====
section
/-!
DEFINITION. The statements for the provers: what a step does, what each instruction leaves, which traps it takes, and the
invariants that every step keeps.
-/

open Sys2Proof Sys2Proof.Machine

/-! ### Integer arithmetic, logic and addresses: rows 0x1 to 0x3 -/

namespace Sys2Proof.Claims

/-- A lane's result of exact value `x` of the operands of SA, SB and SC under the type in FN[1:0], saturated with FN[2], and
its flags (R369, R372, R373). -/
def exact (f : FmtA) (x : Int → Int → Int → Int) (fl : Nat → Nat → Nat → Int → BitVec 4) (s : State) (u : Ux) (p : Pos) :
    Nat × BitVec 4 :=
  let ty := tyOf f.fn.toNat
  let w := widthOf ty
  let e := x (rdInt s u ty f.sa.reg p) (rdInt s u ty f.sb.reg p) (rdInt s u ty f.sc.reg p)
  let r := deliver w (tyRange ty) (f.fn.getLsbD 2) e
  (r, fl (rdPat s u w f.sa.reg p) (rdPat s u w f.sb.reg p) r e)

/-- The flags of an arithmetic result whose only carry rule is V (R372). -/
def ovf (f : FmtA) (_ _ r : Nat) (e : Int) : BitVec 4 :=
  flagsExact (widthOf (tyOf f.fn.toNat)) (tyRange (tyOf f.fn.toNat)) e r

/-- A lane's pattern `x` of the operands' patterns, with the flags of a logical result (R372, R392). -/
def bitwise (f : FmtA) (x : Nat → Nat → Nat → Nat) (s : State) (u : Ux) (p : Pos) : Nat × BitVec 4 :=
  let w := widthOf (tyOf f.fn.toNat)
  let r := x (rdPat s u w f.sa.reg p) (rdPat s u w f.sb.reg p) (rdPat s u w f.sc.reg p) % 2 ^ w
  (r, flagsLogic w r)

/-- A lane's shift `x` by SB[7:0], with the last bit shifted out as C (R372, R392). -/
def shifted (f : FmtA) (x : Nat → Nat → Nat → Nat × Bool) (s : State) (u : Ux) (p : Pos) : Nat × BitVec 4 :=
  let w := widthOf (tyOf f.fn.toNat)
  let r := x w (rdPat s u w f.sa.reg p) ((rd s u f.sb.reg p).toNat % 256)
  (r.1, flagsShift w r.1 r.2)

/-- A lane's result of exact value `x` of SA, the immediate and the old destination (R388). -/
def exactImm (f : FmtI) (zeroExt sat : Bool) (x : Int → Int → Int → Int) (fl : Nat → Nat → Nat → Int → BitVec 4)
    (s : State) (u : Ux) (p : Pos) : Nat × BitVec 4 :=
  let ty := tyOf f.fn.toNat
  let w := widthOf ty
  let e := x (rdInt s u ty f.sa.reg p) (immInt ty f.imm zeroExt) (rdInt s u ty f.dst p)
  let r := deliver w (tyRange ty) sat e
  (r, fl (rdPat s u w f.sa.reg p) (immPat w f.imm) r e)

/-- The carry register that a chained instruction names, as a lane reads it. -/
def carryIn (f : FmtA) (s : State) (u : Ux) (p : Pos) : BitVec 4 := carryOf s u (isScalar f.dst) f.sc.reg p

end Sys2Proof.Claims

open Sys2Proof.Claims

/-- R384 with R369, R372 and R373: the sums, differences, products, minima, maxima and absolute values of the integer
rows, in every lane, with their flags. -/
def Sys2Proof.Claims.IntegerSumsAndProducts : Prop := ∀ (h : Hdr) (f : FmtA),
  let ty := tyOf f.fn.toNat
  let w := widthOf ty
  let put (i : Instr) (sh : Shape) (g : State → Ux → Pos → Nat × BitVec 4) : Prop := Delivers i h sh f.dst w f.cw g
  put (.iadd h f) (shapeIadd f) (exact f (fun a b _ => a + b) fun a b r _ => flagsAdd w a b r) ∧
  put (.isub h f) (shapeIsub f) (exact f (fun a b _ => a - b) fun a b r _ => flagsSub w a b r) ∧
  put (.imul h f) (shapeImul f) (exact f (fun a b _ => a * b) (ovf f)) ∧
  put (.imad h f) (shapeImad f) (exact f (fun a b c => a * b + c) (ovf f)) ∧
  put (.isad h f) (shapeIsad f) (exact f (fun a b c => (if a < b then b - a else a - b) + c) (ovf f)) ∧
  put (.iabs h f) (shapeIabs f) (exact f (fun a _ _ => if a < 0 then -a else a) (ovf f)) ∧
  put (.ineg h f) (shapeIneg f) (exact f (fun a _ _ => -a) (ovf f)) ∧
  put (.imin h f) (shapeImin f) (exact f (fun a b _ => min a b) fun _ _ r _ => flagsLogic w r) ∧
  put (.imax h f) (shapeImax f) (exact f (fun a b _ => max a b) fun _ _ r _ => flagsLogic w r) ∧
  put (.imulh h f) (shapeImulh f) fun s u p =>
    (wrap w (rdInt s u ty f.sa.reg p * rdInt s u ty f.sb.reg p / (2 : Int) ^ w), 0)

/-- R384, R387: the widening multiply-add, whose sum is taken at 64 bits, and the sum of four byte products. -/
def Sys2Proof.Claims.WideAndByteProducts : Prop := ∀ (h : Hdr) (f : FmtA),
  (Delivers (.imadw h f) h (shapeImadw f) f.dst 64 f.cw fun s u p =>
    let ty := tyOf f.fn.toNat
    let r : Int × Int := if ty == 1 then (0, 2 ^ 64 - 1) else (-(2 ^ 63), 2 ^ 63 - 1)
    let c : Int := if ty == 1 then ((rd64 s u f.sc.reg p).toNat : Int) else (rd64 s u f.sc.reg p).toInt
    let e := rdInt s u ty f.sa.reg p * rdInt s u ty f.sb.reg p + c
    let x := deliver 64 r (f.fn.getLsbD 2) e
    (x, flagsExact 64 r e x)) ∧
  (Delivers (.idot4 h f) h (shapeIdot4 f) f.dst 32 f.cw fun s u p =>
    let a := (rd s u f.sa.reg p).toNat
    let b := (rd s u f.sb.reg p).toNat
    let term (i : Nat) : Int := byteInt (f.fn.getLsbD 3) a i * byteInt (f.fn.getLsbD 4) b i
    let e := rdInt s u 0 f.sc.reg p + ((List.range 4).map term).foldl (· + ·) 0
    let x := deliver 32 (tyRange 0) (f.fn.getLsbD 2) e
    (x, flagsExact 32 (tyRange 0) e x))

/-- R386 with R372: IADDC and ISUBB take C of the carry register in, and chain Z through it. The counter of free values
advances by one, since a scalar sum takes one where the lanes' carries differ (log 22). -/
def Sys2Proof.Claims.CarryChains : Prop := ∀ (h : Hdr) (f : FmtA),
  let ty := tyOf f.fn.toNat
  let w := widthOf ty
  let put (i : Instr) (sh : Shape) (x : Int → Int → Int → Int) (fl : Nat → Nat → Nat → Nat → BitVec 4 → BitVec 4) : Prop :=
    Commits i h (fun _ => sh) (fun _ _ => True) fun s u =>
      { st := { writeLanes s u f.dst w f.cw (fun p =>
          let k := carryIn f s u p
          let r := deliver w (tyRange ty) (f.fn.getLsbD 2)
            (x (rdInt s u ty f.sa.reg p) (rdInt s u ty f.sb.reg p) (b2n (flagC k)))
          (r, fl w (rdPat s u w f.sa.reg p) (rdPat s u w f.sb.reg p) r k)) with free := s.free + 1 } }
  put (.iaddc h f) (shapeIaddc f) (fun a b c => a + b + c) flagsAddc ∧
  put (.isubb h f) (shapeIsubb f) (fun a b c => a - b - (1 - c)) flagsSubb

/-- R384, R386, R387: the integer sums, products, extremes and carry chains.
Choices of the model: log 22. -/
def Obligations.IntegerArithmetic : Prop :=
  IntegerSumsAndProducts ∧ WideAndByteProducts ∧ CarryChains

/-- R385: IDIV and IREM, where no lane divides by zero or overflows, or with Q set, produce the quotient and the remainder
later; without Q the lowest such lane takes 2.2 or 2.3. -/
def Obligations.DivisionAndItsTraps : Prop := ∀ (h : Hdr) (f : FmtA),
  let ty := tyOf f.fn.toNat
  let w := widthOf ty
  let lanes (u : Ux) : List Pos := workLanes u (isScalar f.dst)
  let zero (s : State) (u : Ux) (p : Pos) : Prop := f.fn.getLsbD 3 = false ∧ rdInt s u ty f.sb.reg p = 0
  let over_ (s : State) (u : Ux) (p : Pos) : Prop :=
    f.fn.getLsbD 3 = false ∧ rdInt s u ty f.sb.reg p ≠ 0 ∧ signedTy ty ∧ rdInt s u ty f.sa.reg p = (tyRange ty).1 ∧
      rdInt s u ty f.sb.reg p = -1
  let fine (s : State) (u : Ux) (p : Pos) : Prop := ¬ zero s u p ∧ ¬ over_ s u p
  let first (bad : State → Ux → Pos → Prop) (s : State) (u : Ux) : Prop :=
    ∃ a p b, lanes u = a ++ p :: b ∧ (∀ q ∈ a, fine s u q) ∧ bad s u p
  let put (i : Instr) (sh : Shape) (x : Nat → Int → Int → Int) : Prop :=
    Commits i h (fun _ => sh) (fun s u => ∀ p ∈ lanes u, fine s u p) (fun s u => produceLanes s u f.dst w fun p =>
      wrap w (x ty (rdInt s u ty f.sa.reg p) (rdInt s u ty f.sb.reg p))) ∧
    Traps i h (fun _ => sh) (first zero) (fun _ _ => { cause := 66 }) ∧
    Traps i h (fun _ => sh) (first over_) (fun _ _ => { cause := 67 })
  put (.idiv h f) (shapeIdiv f) idivOf ∧ put (.irem h f) (shapeIrem f) iremOf

/-- R385: the results of a division. The quotient truncates toward zero and the remainder takes the sign of the dividend;
under Q, division by zero gives the value that R385 names and the dividend, and an overflow the dividend and 0. -/
def Obligations.QuotientAndRemainder : Prop := ∀ (ty : Nat) (a b : Int),
  let lo := (tyRange ty).1
  (b ≠ 0 → ¬ (signedTy ty ∧ a = lo ∧ b = -1) →
    idivOf ty a b * b + iremOf ty a b = a ∧ (iremOf ty a b).natAbs < b.natAbs ∧ 0 ≤ iremOf ty a b * a) ∧
  (signedTy ty → b = -1 → a = lo → idivOf ty a b = a ∧ iremOf ty a b = 0) ∧
  (b = 0 → iremOf ty a b = a ∧ (ty = 1 → idivOf ty a b = 2 ^ 32 - 1) ∧
    (ty ≠ 1 → a < 0 → idivOf ty a b = -1) ∧ (ty ≠ 1 → 0 ≤ a → idivOf ty a b = (tyRange ty).2))

/-- R392 with R372: the bitwise instructions, the shifts, the rotation, the counts, and FUNNEL. -/
def Sys2Proof.Claims.LogicAndShifts : Prop := ∀ (h : Hdr) (f : FmtA),
  let w := widthOf (tyOf f.fn.toNat)
  let put (i : Instr) (sh : Shape) (g : State → Ux → Pos → Nat × BitVec 4) : Prop := Delivers i h sh f.dst w f.cw g
  let count (i : Instr) (sh : Shape) (x : Nat → Nat) : Prop := Delivers i h sh f.dst 32 f.cw fun s u p =>
    (x (rdPat s u w f.sa.reg p), flagsLogic 32 (x (rdPat s u w f.sa.reg p)))
  put (.and_ h f) (shapeAnd f) (bitwise f fun a b _ => a &&& b) ∧
  put (.or_ h f) (shapeOr f) (bitwise f fun a b _ => a ||| b) ∧
  put (.xor_ h f) (shapeXor f) (bitwise f fun a b _ => a ^^^ b) ∧
  put (.btab h f) (shapeBtab f) (bitwise f fun a b c => ofBits w fun i =>
    tb (f.fn.toNat / 4) (b2n (tb a i) + 2 * b2n (tb b i) + 4 * b2n (tb c i))) ∧
  put (.brev h f) (shapeBrev f) (bitwise f fun a _ _ => ofBits w fun i => tb a (w - 1 - i)) ∧
  put (.shl h f) (shapeShl f) (shifted f shiftLeft) ∧
  put (.shr h f) (shapeShr f) (shifted f shiftRight) ∧
  put (.sar h f) (shapeSar f) (shifted f shiftArith) ∧
  put (.rot h f) (shapeRot f) (shifted f rotate) ∧
  count (.popc h f) (shapePopc f) (popc w) ∧
  count (.clz h f) (shapeClz f) (leadingZeros w) ∧
  Delivers (.funnel h f) h (shapeFunnel f) f.dst 32 f.cw fun s u p =>
    (((rd s u f.sb.reg p).toNat * 2 ^ 32 + (rd s u f.sa.reg p).toNat) / 2 ^ ((rd s u f.sc.reg p).toNat % 64) % 2 ^ 32, 0)

/-- R392: what the shifts leave in each bit, for a pattern of w bits. A left shift moves bits up, a logical right shift
moves them down and fills with 0, an arithmetic one fills with the sign bit, a rotation wraps; a count of the width or
more leaves 0, 0, copies of the sign bit, and the rotation by the rest. -/
def Obligations.ShiftsBitByBit : Prop := ∀ (w a n i : Nat), (w = 32 ∨ w = 64) → a < 2 ^ w → i < w →
  tb (shiftLeft w a n).1 i = (decide (n ≤ i) && tb a (i - n)) ∧
  tb (shiftRight w a n).1 i = (decide (i + n < w) && tb a (i + n)) ∧
  tb (shiftArith w a n).1 i = tb a (if i + n < w then i + n else w - 1) ∧
  tb (rotate w a n).1 i = tb a ((i + w - n % w) % w)

/-- R393, R394: bit fields, the comparison and the selection. -/
def Sys2Proof.Claims.FieldsCompareSelect : Prop := ∀ (h : Hdr) (f : FmtA),
  let ty := tyOf f.fn.toNat
  let w := widthOf ty
  (Delivers (.bfx h f) h (shapeBfx f) f.dst w f.cw fun s u p =>
    let r := bfxOf w (signedTy ty) (rdPat s u w f.sa.reg p) (rd s u f.sb.reg p).toNat
    (r, flagsLogic w r)) ∧
  (Delivers (.bfi h f) h (shapeBfi f) f.dst w f.cw fun s u p =>
    let r := bfiOf w (rdPat s u w f.sa.reg p) (rdPat s u w f.sb.reg p) (rd s u f.sc.reg p).toNat
    (r, flagsLogic w r)) ∧
  (Delivers (.icmp h f) h (shapeIcmp f) f.dst 32 f.cw fun s u p =>
    let a := rdPat s u w f.sa.reg p
    let b := rdPat s u w f.sb.reg p
    let fl := flagsSub w a b (wrap w ((a : Int) - b))
    (b2n (condHolds (condOfCode (f.fn.toNat / 4 % 16)) fl), fl)) ∧
  (Commits (.sel h f) h (fun _ => shapeSel f) (fun _ _ => True) fun s u =>
    { st := { writeLanes s u f.dst w f.cw (fun p =>
        let k := carryOf s u (isScalar f.dst) (.c (f.fn.toNat / 64 % 4)) p
        (rdPat s u w (if condHolds (condOfCode (f.fn.toNat / 4 % 16)) k then f.sa.reg else f.sb.reg) p, 0)) with
          free := s.free + 1 } })

/-- R392 to R394: bitwise instructions, shifts, counts, bit fields, the comparison and the selection.
Choices of the model: log 22. -/
def Obligations.LogicFieldsAndSelection : Prop :=
  LogicAndShifts ∧ FieldsCompareSelect

/-- R388: the integer rows with an immediate; MOVI with HI writes the upper register of its pair alone. IMADI reads its
destination under the blocking policy, MOVI reads no register; a shift takes 0.13 with IMM[31:6] not 0, and FN[2] takes 0.8
where it is not defined: on every row but IADDI, IMULI, IMADI, and MOVI at TY 2. -/
def Obligations.Immediates : Prop := ∀ (h : Hdr) (f : FmtI),
  let w := widthOf (tyOf f.fn.toNat)
  let put (i : Instr) (sh : Shape) (g : State → Ux → Pos → Nat × BitVec 4) : Prop := Delivers i h sh f.dst w f.cw g
  let sat := f.fn.getLsbD 2
  let v (_ _ r : Nat) (e : Int) : BitVec 4 := flagsExact w (tyRange (tyOf f.fn.toNat)) e r
  let z (_ _ r : Nat) (_ : Int) : BitVec 4 := flagsLogic w r
  let bitImm (x : Nat → Nat → Nat) (s : State) (u : Ux) (p : Pos) : Nat × BitVec 4 :=
    (x (rdPat s u w f.sa.reg p) (immPat w f.imm), flagsLogic w (x (rdPat s u w f.sa.reg p) (immPat w f.imm)))
  let shiftImm (x : Nat → Nat → Nat → Nat × Bool) (s : State) (u : Ux) (p : Pos) : Nat × BitVec 4 :=
    let r := x w (rdPat s u w f.sa.reg p) (f.imm.toNat % 64)
    (r.1, flagsShift w r.1 r.2)
  put (.iaddi h f) (shapeIaddi f) (exactImm f false sat (fun a k _ => a + k) fun a b r _ => flagsAdd w a b r) ∧
  put (.imuli h f) (shapeImuli f) (exactImm f false sat (fun a k _ => a * k) v) ∧
  put (.imadi h f) (shapeImadi f) (exactImm f false sat (fun a k d => a * k + d) v) ∧
  put (.imini h f) (shapeImini f) (exactImm f true false (fun a k _ => min a k) z) ∧
  put (.imaxi h f) (shapeImaxi f) (exactImm f true false (fun a k _ => max a k) z) ∧
  put (.andi h f) (shapeAndi f) (bitImm fun a k => a &&& k) ∧
  put (.ori h f) (shapeOri f) (bitImm fun a k => a ||| k) ∧
  put (.xori h f) (shapeXori f) (bitImm fun a k => a ^^^ k) ∧
  put (.shli h f) (shapeShli f) (shiftImm shiftLeft) ∧
  put (.shri h f) (shapeShri f) (shiftImm shiftRight) ∧
  put (.sari h f) (shapeSari f) (shiftImm shiftArith) ∧
  (f.fn.getLsbD 2 = false → put (.movi h f) (shapeMovi f) fun _ _ _ => (immPat w f.imm, 0)) ∧
  (f.fn.getLsbD 2 = true → Delivers (.movi h f) h (shapeMovi f) (regPlus f.dst 1) 32 f.cw fun _ _ _ => (f.imm.toNat, 0)) ∧
  { o := f.dst, n := if tyOf f.fn.toNat = 2 then 2 else 1, ep := false } ∈ (shapeImadi f).srcs ∧ (shapeMovi f).srcs = [] ∧
  (∀ sh ∈ [shapeShli f, shapeShri f, shapeSari f], 64 ≤ f.imm.toNat → some 13 ∈ sh.enc) ∧
  (∀ sh ∈ [shapeImini f, shapeImaxi f, shapeAndi f, shapeOri f, shapeXori f, shapeShli f, shapeShri f, shapeSari f],
    f.fn.getLsbD 2 = true → some 8 ∈ sh.enc) ∧
  (tyOf f.fn.toNat ≠ 2 → f.fn.getLsbD 2 = true → some 8 ∈ (shapeMovi f).enc)

/-- R350, R389 to R391: effective addresses, the test of a pointer and its casts; a generic address that LEAX cannot form
raises the WINDOW fault of the named space in the lowest such lane. -/
def Obligations.AddressesAndCasts : Prop := ∀ (h : Hdr) (f : FmtM) (a : FmtA),
  let cast (s : State) (u : Ux) (p : Pos) : Option Nat :=
    if f.space.toNat == 6 then none else castAddr s p.gid p.lane f.space.toNat 0 (effAddr s u f true p)
  let lanes (u : Ux) : List Pos := workLanes u (isScalar f.data)
  (Delivers (.lea h f) h (shapeLea f) f.data (if f.size.toNat == 3 then 64 else 32) 0 fun s u p => (effAddr s u f true p, 0)) ∧
  (Commits (.leax h f) h (fun _ => shapeLeax f) (fun s u => ∀ p ∈ lanes u, (cast s u p).isSome) fun s u =>
    { st := writeLanes s u f.data 64 0 fun p => ((cast s u p).getD 0, 0) }) ∧
  (∀ p : Pos, Traps (.leax h f) h (fun _ => shapeLeax f)
    (fun s u => (lanes u).find? (fun q => (cast s u q).isNone) = some p)
    fun s u => laneTrap (memCause f.space.toNat 2) (effAddr s u f true p) p) ∧
  (Delivers (.sptest h a) h (shapeSptest a) a.dst 32 a.cw fun s u p =>
    let r := sptestWord s p.gid (rd64 s u a.sa.reg p).toNat
    (r, mkFlags false (!tb r 3) false false)) ∧
  (Delivers (.spcast h a) h (shapeSpcast a) a.dst (if castTo a < 2 then 64 else 32) a.cw fun s u p =>
    match castAddr s p.gid p.lane (castFrom a) (castTo a) (rdPat s u (if castFrom a < 2 then 64 else 32) a.sa.reg p) with
    | some y => (y, mkFlags false false false false)
    | none => (0, mkFlags false true false false))

/-! ### Control flow: row 0x0 -/

/-- R207, R208, R374, R381, R341: NOP, COLO, EXIT and YIELD. COLO and YIELD end the quire; EXIT takes its active lanes out of
the group for good. -/
def Sys2Proof.Claims.PlainControl : Prop := ∀ (h : Hdr) (f : FmtA) (c : FmtC),
  let put (i : Instr) (sh : Shape) (e : State → Ux → Eff) : Prop := Commits i h (fun _ => sh) (fun _ _ => True) e
  put (.nop h f) (shapeNop f) (fun s _ => { st := s }) ∧
  put (.colo h c) (shapeColo h c) (fun s _ => { st := s, ends := true, await := c.await, safe := c.safe, hint := c.yieldHint }) ∧
  put (.exit h f) (shapeExit f) (fun s u => { st := s, exits := u.active }) ∧
  put (.yield h f) (shapeYield f) fun s u => { st := s, ends := true, yields := !u.active.isEmpty }

namespace Sys2Proof.Claims

/-- The effect of a branch that takes lanes `l` to the targets `t`: its quire ends under its await list, and the lanes may
part (R183, R207, R375). -/
def taken (f : FmtB) (st : State) (l : List Pos) (t : Pos → Nat) : Eff :=
  { st := st, moves := l.map fun p => (p, t p), ends := true, splits := true, await := f.await, safe := f.safe }

/-- The target of an immediate branch may be entered from the lowest of some lanes, if there is one (R336). -/
def mayEnter (s : State) (l : List Pos) (t : Nat) : Prop := ∀ p, l.head? = some p → targetOk s p.gid t = true

/-- The own targets of some lanes may all be entered (R336, R376). -/
def mayGo (s : State) (l : List Pos) (t : Pos → Nat) : Prop := ∀ p ∈ l, targetFault s p.gid (t p) = none

/-- The register target of a lane. -/
def regTarget (f : FmtB) (s : State) (u : Ux) (p : Pos) : Nat := (rd64 s u (tgtSrc f).reg p).toNat

end Sys2Proof.Claims

/-- R375 to R378, R380: the branches. Where its targets may be entered, BRA, BRX, RET and JMPT take the active lanes to them,
CALL and CALLX after writing the return link, and LOOP those whose counter is not 0 after it has counted down. -/
def Sys2Proof.Claims.BranchesTakeTheirLanes : Prop := ∀ (h : Hdr) (f : FmtB),
  let entry (s : State) (u : Ux) (p : Pos) : Nat :=
    (u.pc / 64 * 64 + 64 * (1 + min (rd s u (tgtSrc f).reg p).toNat (f.fn.toNat % 256 + 1))) % 2 ^ 57
  let left (s : State) (u : Ux) (p : Pos) : Word := rd s u (fnReg f) p - 1
  let again (s : State) (u : Ux) : List Pos := u.active.filter fun p => left s u p != 0
  Commits (.bra h f) h (fun _ => shapeBra f) (fun s u => mayEnter s u.active (immTarget u f))
    (fun s u => taken f s u.active fun _ => immTarget u f) ∧
  Commits (.brx h f) h (fun _ => shapeBrx f) (fun s u => mayGo s u.active (regTarget f s u))
    (fun s u => taken f s u.active (regTarget f s u)) ∧
  Commits (.ret h f) h (fun _ => shapeRet f) (fun s u => mayGo s u.active (regTarget f s u))
    (fun s u => taken f s u.active (regTarget f s u)) ∧
  Commits (.call h f) h (fun _ => shapeCall f) (fun s u => mayEnter s u.active (immTarget u f))
    (fun s u => taken f (writeLink s u f) u.active fun _ => immTarget u f) ∧
  Commits (.callx h f) h (fun _ => shapeCallx f) (fun s u => mayGo s u.active (regTarget f s u))
    (fun s u => taken f (writeLink s u f) u.active (regTarget f s u)) ∧
  Commits (.loop h f) h (fun _ => shapeLoop f) (fun s u => mayEnter s (again s u) (immTarget u f))
    (fun s u => taken f ((workLanes u (isScalar (fnReg f))).foldl (fun st p => wr st (fnReg f) p (left s u p)) s)
      (again s u) fun _ => immTarget u f) ∧
  Commits (.jmpt h f) h (fun _ => shapeJmpt f) (fun s u => mayGo s u.active (entry s u))
    (fun s u => taken f s u.active (entry s u))

/-- R379: a vote moves every issuing lane of the unit, active or not, or none of them. BANY is taken when at least one guard
is true, BALL when every one is. -/
def Sys2Proof.Claims.VotedBranches : Prop := ∀ (h : Hdr) (f : FmtB),
  let go (i : Instr) (sh : Shape) (yes : Ux → Prop) : Prop :=
    Commits i h (fun _ => sh) (fun s u => u.issuing ≠ [] ∧ yes u ∧ mayEnter s u.issuing (immTarget u f))
      (fun s u => taken f s u.issuing fun _ => immTarget u f) ∧
    Commits i h (fun _ => sh) (fun _ u => ¬ yes u) fun s _ => taken f s [] fun _ => 0
  go (.bany h f) (shapeBany f) (fun u => u.active ≠ []) ∧
  go (.ball h f) (shapeBall f) (fun u => u.active.length = u.issuing.length)

/-- R374 to R379, R381: the control instructions that take no trap. -/
def Obligations.ControlFlow : Prop :=
  PlainControl ∧ BranchesTakeTheirLanes ∧ VotedBranches

/-- R336, R356, R376: a branch whose target may not be entered takes 0.22, and a register target with a slot number above 4
takes 0.23, in the lowest failing lane. -/
def Sys2Proof.Claims.RefusedBranchTargets : Prop := ∀ (h : Hdr) (f : FmtB),
  let imm (i : Instr) (sh : Shape) : Prop :=
    Traps i h (fun _ => sh) (fun s u => ∃ p, u.active.head? = some p ∧ targetOk s p.gid (immTarget u f) = false)
      fun _ _ => { cause := 22 }
  let own (i : Instr) (sh : Shape) : Prop := ∀ c, Traps i h (fun _ => sh)
    (fun s u => ∃ a p b, u.active = a ++ p :: b ∧ mayGo s a (regTarget f s u) ∧ targetFault s p.gid (regTarget f s u p) = some c)
    fun _ _ => { cause := c }
  imm (.bra h f) (shapeBra f) ∧ imm (.call h f) (shapeCall f) ∧
  own (.brx h f) (shapeBrx f) ∧ own (.ret h f) (shapeRet f) ∧ own (.callx h f) (shapeCallx f) ∧
  (∀ s gid t, targetFault s gid t = some 22 ∨ targetFault s gid t = some 23 ∨ targetFault s gid t = none) ∧
  ∀ s gid t, t < 2 ^ 57 → bits t 5 3 = 0 → 4 < t % 8 → targetFault s gid t = some 23

/-- R358, R382: TRAP n raises 10.n with SRC set and BKPT 10.1, where a lane is active, and nothing where none is; ILL raises
0.0 whatever its guard and its scope. -/
def Sys2Proof.Claims.SoftwareTraps : Prop := ∀ (h : Hdr) (f : FmtI),
  Traps (.trap h f) h (fun _ => shapeTrap f) (fun _ u => u.active ≠ [])
    (fun _ _ => { cause := 320 + f.imm.toNat % 32, src := true }) ∧
  Traps (.bkpt h f) h (fun _ => shapeBkpt f) (fun _ u => u.active ≠ []) (fun _ _ => { cause := 321 }) ∧
  Commits (.trap h f) h (fun _ => shapeTrap f) (fun _ u => u.active = []) (fun s _ => { st := s }) ∧
  Commits (.bkpt h f) h (fun _ => shapeBkpt f) (fun _ u => u.active = []) (fun s _ => { st := s }) ∧
  ∀ s gid slices, s.cur = some (gid, slices) →
    exec (.ill h f) s = .next (takeTrap s (soloUnit s h gid slices) h false { cause := 0 })

/-- R375, R378, R380, R382: the traps that the control instructions take. -/
def Obligations.ControlTraps : Prop :=
  RefusedBranchTargets ∧ SoftwareTraps

/-- R314, R316, R383: RFT returns the group to what its frame holds, read back at the frame's address: the held PCs and narrow
groups with their index, user mode, and the PC, the condition registers, the await list, DONE and the temporaries of the frame.
The cause is read-only, so the core holds it: one that is not resumable ends the launch FAULTED. It waits while a slot holds the frame
or an older store (R54). -/
def Obligations.ReturnFromTrap : Prop := ∀ (h : Hdr) (f : FmtI),
  let s0 (s : State) (u : Ux) : State := drainUnit s u
  let frame (s : State) (u : Ux) : Option (List Byte) :=
    vRead (s0 s u) ((s0 s u).launchOf ((s0 s u).g u.gid).bid).ctx sysRead (frameVa (s0 s u) ((s0 s u).g u.gid)) 1152
  let frameHeld (s : State) (u : Ux) : Bool := vHeld (s0 s u) ((s0 s u).g u.gid).core
    ((s0 s u).launchOf ((s0 s u).g u.gid).bid).ctx sysRead (frameVa (s0 s u) ((s0 s u).g u.gid)) 1152
  let may (s : State) (u : Ux) : Prop := unitHeld s u = false ∧ frameHeld s u = false
  let held (s : State) (u : Ux) : Held := heldOf ((s0 s u).g u.gid) u
  (∀ bs, Commits (.rft h f) h (fun _ => shapeRft f)
    (fun s u => may s u ∧ frame s u = some bs ∧ resumable (held s u).trap.cause = true) fun s u =>
    let fr := readFrame bs
    let reord := (peekWord (s0 s u) u.gid (heldPc ((s0 s u).g u.gid) (held s u))).toNat / 2 ^ 88 == 0x78 &&
      (held s u).scope == .block
    { st := resumeGroup (s0 s u) u.gid (held s u) fr (wordEnds (peekWord (s0 s u) u.gid fr.pc)) reord, jumped := true }) ∧
  Parks (.rft h f) h (fun _ => shapeRft f) (fun s u => unitHeld s u = true ∨ frameHeld s u = true) (fun _ _ => .slot) ∧
  Commits (.rft h f) h (fun _ => shapeRft f)
    (fun s u => may s u ∧ (frame s u).isSome ∧ resumable (held s u).trap.cause = false) fun s u =>
    { st := endLaunch (s0 s u) u.gid (held s u).trap.cause (held s u).trap.faddr, jumped := true }

/-! ### Floating point, conversions: rows 0x4 to 0x6 -/

namespace Sys2Proof.Claims

/-- A lane's FP32 result: `x` over the operands' exact values, rounded once under RM where the instruction has one (R406,
R409), with the status bits and flags of the result (R408). -/
def rounded (f : FmtA) (k : RmForm) (srcs : List Opnd) (x : Nat → List XV → XV) (s : State) (u : Ux) (p : Pos) : FRes :=
  let v := srcs.map fun o => xF s u o p
  let rm := rmOf k f.fn.toNat
  fRes (arith fmtF32 rm (rbOf s u f p) v (x rm v))

/-- A lane's code `x`, with the flags of R408 and no status bit. -/
def code (x : Nat) : FRes := fRes (x, 0)

/-- A lane's element-wise result over halves of the format in FN[3]: `x` over the elements' exact values (R414). -/
def halves (f : FmtA) (k : RmForm) (srcs : List Opnd) (x : Nat → List XV → XV) (s : State) (u : Ux) (p : Pos) : FRes :=
  let F := halfFmt f.fn.toNat
  let rm := rmOf k f.fn.toNat
  packHalves fun i =>
    let v := srcs.map fun o => (F.decode (halfAt (rdH s u F o p) i)).1
    arith F rm (halfAt (rbOf s u f p) i) v (x rm v)

/-- A lane's element-wise code `x` over the codes of the halves of SA and SB (R414). -/
def halfCodes (f : FmtA) (x : Fmt → Nat → Nat → Nat) (s : State) (u : Ux) (p : Pos) : FRes :=
  let F := halfFmt f.fn.toNat
  packHalves fun i => (x F (halfAt (rdH s u F f.sa.reg p) i) (halfAt (rdH s u F f.sb.reg p) i), 0)

/-- A complex result of component values, each rounded once; `v` lists the operands, any NaN of which gives NaN in both
components (R234, R415). -/
def complex (v : List XV) (re im : XV) : FRes :=
  let a := arith fmtF32 0 0 v re
  let b := arith fmtF32 0 0 v im
  { x := a.1 + b.1 * 2 ^ 32, fst := a.2 ||| b.2 }

end Sys2Proof.Claims

/-- R405 to R413: the FP32 instructions, each rounded once from the exact result; the quotient and the root land later. -/
def Sys2Proof.Claims.SinglePrecision : Prop := ∀ (h : Hdr) (f : FmtA),
  let put (i : Instr) (sh : Shape) (long : Bool) (g : State → Ux → Pos → FRes) : Prop := DeliversF i h sh f.dst f.cw 32 long g
  let a := f.sa.reg
  let b := f.sb.reg
  let c := f.sc.reg
  let ld (o : Opnd) (s : State) (u : Ux) (p : Pos) : Nat := rdF s u o p
  put (.fadd h f) (shapeFadd f) false (rounded f .random [a, b] fun rm l => xSum rm [nth l 0, nth l 1]) ∧
  put (.fsub h f) (shapeFsub f) false (rounded f .random [a, b] fun rm l => xSum rm [nth l 0, (nth l 1).opp]) ∧
  put (.fmul h f) (shapeFmul f) false (rounded f .random [a, b] fun _ l => (nth l 0).mul (nth l 1)) ∧
  put (.ffma h f) (shapeFfma f) false (rounded f .plain [a, b, c] fun rm l => xSum rm [(nth l 0).mul (nth l 1), nth l 2]) ∧
  put (.fdiv h f) (shapeFdiv f) true (rounded f .random [a, b] fun _ l => (nth l 0).div (nth l 1)) ∧
  put (.fsqrt h f) (shapeFsqrt f) true (rounded f .random [a] fun _ l => xRoot (nth l 0)) ∧
  put (.fdot2 h f) (shapeFdot2 f) false (rounded f .plain [a, b, regPlus a 1, regPlus b 1, c]
    fun rm l => xSum rm [(nth l 0).mul (nth l 1), (nth l 2).mul (nth l 3), nth l 4]) ∧
  put (.fscale h f) (shapeFscale f) false (fun s u p => fRes (arith fmtF32 (f.fn.toNat % 8) (rbOf s u f p) [xF s u a p]
    ((xF s u a p).scale (max (-400) (min 400 (sext 32 (rd s u b p).toNat)))))) ∧
  put (.ffrc h f) (shapeFfrc f) false (fun s u p => fRes (fracPart (xF s u a p))) ∧
  put (.frnd h f) (shapeFrnd f) false (fun s u p => code (roundIntegral (f.fn.toNat % 8) (ld a s u p))) ∧
  put (.fmin h f) (shapeFmin f) false (fun s u p => code (minMax fmtF32 false (ld a s u p) (ld b s u p))) ∧
  put (.fmax h f) (shapeFmax f) false (fun s u p => code (minMax fmtF32 true (ld a s u p) (ld b s u p))) ∧
  put (.fmed3 h f) (shapeFmed3 f) false (fun s u p => code (minMax fmtF32 true (minMax fmtF32 false (ld a s u p) (ld b s u p))
    (minMax fmtF32 false (minMax fmtF32 true (ld a s u p) (ld b s u p)) (ld c s u p)))) ∧
  put (.fcmp h f) (shapeFcmp f) false (fun s u p =>
    let fl := cmpFlags fmtF32 (ld a s u p) (ld b s u p)
    { x := b2n (condHolds (condOf (bits f.fn.toNat 6 3)) fl), fl := fl }) ∧
  put (.fclass h f) (shapeFclass f) false (fun s u p =>
    let x := 2 ^ classBit (ld a s u p)
    { x := x, fl := mkFlags false (x &&& f.fn.toNat % 1024 == 0) false false }) ∧
  put (.fsgn h f) (shapeFsgn f) false fun s u p =>
    let x := ld a s u p
    let sg := match f.fn.toNat % 4 with
      | 0 => tb (ld b s u p) 31
      | 1 => !tb (ld b s u p) 31
      | 2 => tb x 31 != tb (ld b s u p) 31
      | _ => false
    code (x % 2 ^ 31 + b2n sg * 2 ^ 31)

/-- R414: the paired halves, and their dot product in FP32. -/
def Sys2Proof.Claims.PairedHalves : Prop := ∀ (h : Hdr) (f : FmtA),
  let put (i : Instr) (sh : Shape) (g : State → Ux → Pos → FRes) : Prop := DeliversF i h sh f.dst 0 32 false g
  put (.hadd2 h f) (shapeHadd2 f) (halves f .random [f.sa.reg, f.sb.reg] fun rm l => xSum rm [nth l 0, nth l 1]) ∧
  put (.hmul2 h f) (shapeHmul2 f) (halves f .random [f.sa.reg, f.sb.reg] fun _ l => (nth l 0).mul (nth l 1)) ∧
  put (.hfma2 h f) (shapeHfma2 f) (halves f .plain [f.sa.reg, f.sb.reg, f.sc.reg]
    fun rm l => xSum rm [(nth l 0).mul (nth l 1), nth l 2]) ∧
  put (.hmin2 h f) (shapeHmin2 f) (halfCodes f fun F a b => minMax F false a b) ∧
  put (.hmax2 h f) (shapeHmax2 f) (halfCodes f fun F a b => minMax F true a b) ∧
  put (.hcmp2 h f) (shapeHcmp2 f) (halfCodes f fun F a b =>
    if condHolds (condOf (bits f.fn.toNat 7 4)) (cmpFlags F a b) then 0xFFFF else 0) ∧
  DeliversF (.hdot2 h f) h (shapeHdot2 f) f.dst f.cw 32 false fun s u p =>
    let F := halfFmt f.fn.toNat
    let el (o : Opnd) (i : Nat) : XV := (F.decode (halfAt (rdH s u F o p) i)).1
    let v := [el f.sa.reg 0, el f.sb.reg 0, el f.sa.reg 1, el f.sb.reg 1, xF s u f.sc.reg p]
    let rm := f.fn.toNat % 8
    fRes (arith fmtF32 rm 0 v (xSum rm [(nth v 0).mul (nth v 1), (nth v 2).mul (nth v 3), nth v 4]))

/-- R234, R415: the complex pairs. -/
def Sys2Proof.Claims.ComplexPairs : Prop := ∀ (h : Hdr) (f : FmtA),
  let put (i : Instr) (sh : Shape) (g : State → Ux → Pos → FRes) : Prop := DeliversF i h sh f.dst 0 64 false g
  let one (i : Instr) (sh : Shape) (g : State → Ux → Pos → FRes) : Prop := DeliversF i h sh f.dst 0 32 false g
  let A (s : State) (u : Ux) (p : Pos) : XV × XV := rdC s u f.sa.reg p
  let B (s : State) (u : Ux) (p : Pos) : XV × XV := rdC s u f.sb.reg p
  let C (s : State) (u : Ux) (p : Pos) : XV × XV := rdC s u f.sc.reg p
  put (.cadd h f) (shapeCadd f) (fun s u p =>
    let a := A s u p
    let b := B s u p
    let sg (x : XV) : XV := if f.fn.getLsbD 0 then x.opp else x
    complex [a.1, a.2, b.1, b.2] (xSum 0 [a.1, sg b.1]) (xSum 0 [a.2, sg b.2])) ∧
  put (.cmul h f) (shapeCmul f) (fun s u p =>
    let a := A s u p
    let b := B s u p
    complex [a.1, a.2, b.1, b.2] (xSum 0 [a.1.mul b.1, (a.2.mul b.2).opp]) (xSum 0 [a.1.mul b.2, a.2.mul b.1])) ∧
  put (.cmad h f) (shapeCmad f) (fun s u p =>
    let a := A s u p
    let b := B s u p
    let c := C s u p
    complex [a.1, a.2, b.1, b.2, c.1, c.2] (xSum 0 [a.1.mul b.1, (a.2.mul b.2).opp, c.1])
      (xSum 0 [a.1.mul b.2, a.2.mul b.1, c.2])) ∧
  put (.cmulc h f) (shapeCmulc f) (fun s u p =>
    let a := A s u p
    let b := B s u p
    complex [a.1, a.2, b.1, b.2] (xSum 0 [a.1.mul b.1, a.2.mul b.2]) (xSum 0 [a.2.mul b.1, (a.1.mul b.2).opp])) ∧
  put (.cscale h f) (shapeCscale f) (fun s u p =>
    let a := A s u p
    let b := xF s u f.sb.reg p
    complex [a.1, a.2, b] (a.1.mul b) (a.2.mul b)) ∧
  put (.crot h f) (shapeCrot f) (fun s u p =>
    let re := rdF s u f.sa.reg p
    let im := rdF s u (regPlus f.sa.reg 1) p
    let flip (x : Nat) : Nat := if tb x 31 then x - 2 ^ 31 else x + 2 ^ 31
    let r := match f.fn.toNat % 4 with
      | 0 => (re, im)
      | 1 => (flip im, re)
      | 2 => (flip re, flip im)
      | _ => (im, flip re)
    let nan := fmtF32.nanCode
    { x := if (f32 re).isNan || (f32 im).isNan then nan + nan * 2 ^ 32 else r.1 + r.2 * 2 ^ 32 }) ∧
  put (.cexpi h f) (shapeCexpi f) (fun s u p =>
    let c := sfuCost (xF s u f.sa.reg p)
    let d := sfuSint (xF s u f.sa.reg p)
    { x := c.1 + d.1 * 2 ^ 32, fst := c.2 ||| d.2 }) ∧
  one (.cabs2 h f) (shapeCabs2 f) (fun s u p =>
    let a := A s u p
    fRes (arith fmtF32 0 0 [a.1, a.2] (xSum 0 [a.1.mul a.1, a.2.mul a.2]))) ∧
  one (.cmag h f) (shapeCmag f) fun s u p =>
    let a := A s u p
    fRes (arith fmtF32 0 0 [a.1, a.2] (xRoot (xSum 0 [a.1.mul a.1, a.2.mul a.2])))

/-- R234, R414, R415: the paired halves and the complex pairs.
Choices of the model: log 24 (CEXPI computes by the special functions). -/
def Obligations.PairedAndComplex : Prop :=
  PairedHalves ∧ ComplexPairs

/-- R233, R416: the special functions of one FP32 source, whose results land later. -/
def Sys2Proof.Claims.SpecialFunctions : Prop := ∀ (h : Hdr) (f : FmtA),
  let put (i : Instr) (g : XV → Nat × Nat) : Prop :=
    DeliversF i h (shapeSfu f) f.dst f.cw 32 true fun s u p => fRes (g (xF s u f.sa.reg p))
  put (.rcp h f) sfuRcp ∧ put (.rsq h f) sfuRsq ∧ put (.ex2 h f) sfuEx2 ∧ put (.lg2 h f) sfuLg2 ∧
  put (.sint h f) sfuSint ∧ put (.cost h f) sfuCost ∧ put (.tanh h f) sfuTanh ∧ put (.sigm h f) sfuSigm

/-- R405 to R413, R416: the FP32 arithmetic and the special functions.
Choices of the model: log 24. -/
def Obligations.FloatArithmetic : Prop :=
  SinglePrecision ∧ SpecialFunctions

/-- R417 to R423: the conversions through a format slot. Where the slot holds a format that the instruction accepts, CVT
converts one value, CVPK2 and CVPK4 pack elements, UNPK decodes them, and QSCL forms a shared scale; PK6, UPK6 and PKI4 pack
without a slot.
Choices of the model: log 48. -/
def Obligations.Conversions : Prop := ∀ (h : Hdr) (f : FmtA),
  let slot (s : State) (u : Ux) : Slot := slotAt s u.gid (bits f.fn.toNat 5 3)
  let part := bits f.fn.toNat 10 9
  let pack (wide : Nat) : State → Ux → Prop := fun s u =>
    slotFault (slot s u) ((slot s u).elem && ((slot s u).F.width == wide || (slot s u).F.width == wide / 2) &&
      !(f.fn.getLsbD 9 && (slot s u).F.width == wide)) = none
  Commits (.cvt h f) h (fun s => shapeCvt f (slotHere s f.fn.toNat))
    (fun s u => (cvtKind f < 2 → slotFault (slot s u) (slot s u).elem = none))
    (fun s u => floatWrite u s f.dst 0 32 false fun p =>
      let r := cvtLane s u f (slot s u) p
      { x := r.1, fst := r.2 }) ∧
  Commits (.cvpk2 h f) h (fun s => shapeCvpk f (slotHere s f.fn.toNat) 2) (pack 16)
    (fun s u => floatWrite u s f.dst 0 32 false (cvpkLane s u f (slot s u) 2)) ∧
  Commits (.cvpk4 h f) h (fun s => shapeCvpk f (slotHere s f.fn.toNat) 4) (pack 8)
    (fun s u => floatWrite u s f.dst 0 32 false (cvpkLane s u f (slot s u) 4)) ∧
  Commits (.unpk h f) h (fun s => shapeUnpk f (slotHere s f.fn.toNat))
    (fun s u => slotFault (slot s u) ((slot s u).elem &&
      (part + 1) * unpkN f ≤ (if (slot s u).F.width == 6 then 1 else 32 / (slot s u).F.width)) = none)
    (fun s u =>
      let el (p : Pos) (j : Nat) : Nat × Nat := decodeElem (slot s u) (f.fn.toNat % 8) (scC s u (slot s u) f p)
        ((rd s u f.sa.reg p).toNat / 2 ^ ((slot s u).F.width * (part * unpkN f + j)))
      { st := writeRun s u f.dst fun p => (List.range (unpkN f)).map fun j => (el p j).1
        fst := (workLanes u (isScalar f.dst)).map fun p =>
          (p.gid, (List.range (unpkN f)).foldl (fun x j => x ||| (el p j).2) 0) }) ∧
  Delivers (.pk6 h f) h (shapePk6 f) f.dst 32 0 (fun s u p =>
    let at6 (k : Nat) : Nat := match u.active.find? fun q => q.lane == k with
      | some q => (rd s u f.sa.reg q).toNat % 64
      | none => 0
    (if p.lane < 6 then ((List.range 4).map fun j => streamByte at6 (4 * p.lane + j) * 256 ^ j).foldl (· + ·) 0 else 0, 0)) ∧
  Commits (.upk6 h f) h (fun _ => shapeUpk6 f)
    (fun s u => u.active ≠ [] ∧ needCells s [(useOf f.sa 1, (List.range 6).map fun k => (⟨k, u.gid, k⟩ : Pos))] = none)
    (fun s u =>
      let stream := leVal (((List.range 6).map fun k => (⟨k, u.gid, k⟩ : Pos)).flatMap fun p => leBytes 4 (rd s u f.sa.reg p).toNat)
      { st := writeLanes s u f.dst 32 0 fun p => (stream / 64 ^ p.lane % 64, 0) }) ∧
  DeliversF (.pki4 h f) h (shapePki4 f) f.dst 0 32 false (fun s u p =>
    let a := (rd s u f.sa.reg p).toNat
    let b := (rd s u f.sb.reg p).toNat
    let el (i : Nat) : Nat × Bool := i4Of (f.fn.toNat % 8) ((if i < 4 then a else b) / 256 ^ (i % 4) % 256)
    { x := ((List.range 8).map fun i => (el i).1 * 16 ^ i).foldl (· + ·) 0
      fst := if (List.range 8).any fun i => (el i).2 then fstSat else 0 }) ∧
  Commits (.qscl h f) h (fun _ => shapeQscl f) (fun s u => slotFault (slot s u) (slot s u).mx = none) fun s u =>
    { st := writeLanes s u f.dst 32 0 fun p =>
        let same := u.active.filter fun q => q.lane / 2 ^ qsclSeg f == p.lane / 2 ^ qsclSeg f
        (mxScale (slot s u).F (same.flatMap fun q => (List.range (qsclN f)).map fun k => xF s u (regPlus f.sa.reg k) q), 0) }

/-! ### Cross-lane instructions, moves and directional values: rows 0x7 and 0x8 -/

namespace Sys2Proof.Claims

/-- The destination is full, or not gated, in the lanes that an instruction writes (R203). -/
def destinationFull (f : FmtA) (s : State) (u : Ux) (l : List Pos) : Prop := needCells s (dstFull s u f.dst l) = none

/-- The rendering of a lane's value where no status bit is set. -/
def just (x : Nat) : FRes := { x := x }

end Sys2Proof.Claims

/-- R424 to R426, R430: the pulls, the broadcast, the push and FIRST, where every register that they read in another lane and
their destination are full. -/
def Sys2Proof.Claims.LanesExchangeValues : Prop := ∀ (h : Hdr) (f : FmtA),
  let at0 (s : State) (u : Ux) : Option Pos := at_ s u (((rd s u f.sb.reg (u.active.headD ⟨0, 0, 0⟩)).toNat : Nat) : Int)
  let pick (u : Ux) : Option Pos := if f.fn.getLsbD 0 then u.active.getLast? else u.active.head?
  Commits (.pull h f) h (fun _ => shapePull f)
    (fun s u => needCells s ((live f.sa, u.active.map (pullFrom f u s)) :: dstFull s u f.dst u.active) = none)
    (fun s u => crossEff u s f.dst 32 true u.active fun p => just (rdPat s u 32 f.sa.reg (pullFrom f u s p))) ∧
  Commits (.pullt h f) h (fun _ => shapePullt f)
    (fun s u => needCells s ((u.active.map fun p => (useOf (pulltFrom f u s p).1 1, [(pulltFrom f u s p).2])) ++
      dstFull s u f.dst u.active) = none)
    (fun s u => crossEff u s f.dst 32 true u.active fun p =>
      just (rdPat s u 32 (pulltFrom f u s p).1.reg (pulltFrom f u s p).2)) ∧
  Commits (.bcst h f) h (fun _ => shapeBcst f)
    (fun s u => u.active ≠ [] ∧ needCells s ((live f.sa, (at0 s u).toList) :: dstFull s u f.dst u.active) = none)
    (fun s u => crossEff u s f.dst 32 true u.active fun _ =>
      just (((at0 s u).map fun q => rdPat s u 32 f.sa.reg q).getD 0)) ∧
  Commits (.perm h f) h (fun _ => shapePerm f) (fun s u => destinationFull f s u u.active)
    (fun s u => crossEff u s f.dst 32 true u.active fun p =>
      match (u.active.filter fun q => (rd s u f.sb.reg q).toNat == p.w).getLast? with
      | some q => just (rdPat s u 32 f.sa.reg q)
      | none => just (rdPat s u 32 f.dst p)) ∧
  ∀ q, Commits (.first h f) h (fun _ => shapeFirst f)
    (fun s u => pick u = some q ∧
      needCells s ((if f.fn.getLsbD 1 then [] else [(live f.sa, [q])]) ++ dstFull s u f.dst u.active) = none)
    fun s u => crossEff u s f.dst 32 false u.active fun _ =>
      just (if f.fn.getLsbD 1 then q.w else rdPat s u 32 f.sa.reg q)

/-- R426: where a pull takes its value from. The lane is its own source where the position does not issue or lies outside the
segment; a rotation stays within the segment. The participants are the issuing lanes at lane scope and every lane that holds a
thread at a wider one (R424, log 25). -/
def Sys2Proof.Claims.PullStaysInItsSegment : Prop := ∀ (f : FmtA) (u : Ux) (s : State) (p : Pos),
  let size := 2 ^ (if u.scope == .set then bits f.fn.toNat 5 2 else Nat.min (bits f.fn.toNat 5 2) 5)
  let q := pullFrom f u s p
  (q = p ∨ q ∈ participants s u) ∧ q.w / size = p.w / size

/-- R427, R428: POLL and VMASK count and mask the true votes in every participant; LRED reduces the active lanes' values, and
LSCAN those up to each lane's position; PEERS finds the lanes with the lane's own value. -/
def Sys2Proof.Claims.VotesAndReductions : Prop := ∀ (h : Hdr) (f : FmtA),
  let op := f.fn.toNat % 16
  let upTo (u : Ux) (p : Pos) : List Pos := u.active.filter fun q => q.w < p.w || (!f.fn.getLsbD 4 && q.w == p.w)
  let votes (s : State) (u : Ux) : List Pos := (participants s u).filter fun p => guardHolds s h p
  Commits (.poll h f) h (fun _ => shapePoll f) (fun s u => destinationFull f s u (participants s u)) (fun s u =>
    let n := (votes s u).length
    let t := (participants s u).length
    let fl := mkFlags (decide (t < 2 * n)) (n == 0) (n == t) (0 < n && n < t)
    let e := crossEff u s f.dst 32 true (participants s u) fun _ => just n
    { e with st := if f.cw.getLsbD 2 then (participants s u).foldl (fun st p => wrC st (f.cw.toNat % 4) p fl) e.st
        else e.st }) ∧
  Commits (.vmask h f) h (fun _ => shapeVmask f) (fun s u => destinationFull f s u (participants s u))
    (fun s u => crossEff u s f.dst 32 true (participants s u) fun _ => just (maskOf ((votes s u).map fun p => p.w))) ∧
  Commits (.lred h f) h (fun _ => shapeLred f) (fun s u => destinationFull f s u u.active) (fun s u =>
    let r := reduce op (u.active.map (redTerm s u op f.sa.reg))
    crossEff u s f.dst 32 true u.active fun _ => { x := r.1, fst := r.2 }) ∧
  Commits (.lscan h f) h (fun _ => shapeLscan f) (fun s u => destinationFull f s u u.active) (fun s u =>
    crossEff u s f.dst 32 true u.active fun p =>
      let r := reduce op ((upTo u p).map (redTerm s u op f.sa.reg))
      { x := r.1, fst := r.2 }) ∧
  Commits (.peers h f) h (fun _ => shapePeers f) (fun s u => destinationFull f s u u.active) fun s u =>
    let w := if f.fn.getLsbD 0 then 64 else 32
    crossEff u s f.dst 32 true u.active fun p =>
      let same := u.active.filter fun q => rdPat s u w f.sa.reg q == rdPat s u w f.sa.reg p
      just (if f.fn.getLsbD 1 then same.length else maskOf (same.map fun q => q.w))

/-- R424, R426 to R428, R430: the exchanges, votes, reductions and scans.
Choices of the model: logs 25, 45. -/
def Obligations.CrossLane : Prop :=
  LanesExchangeValues ∧ VotesAndReductions

/-- R428: the integer reductions do not depend on the order of the lanes' values. -/
def Sys2Proof.Claims.ReductionsIgnoreOrder : Prop := ∀ (op : Nat) (l l' : List Nat),
  op < 8 → (∀ x ∈ l, x < 2 ^ 32) → l.Perm l' → reduce op l = reduce op l'

/-- R426, R428: where a pull reads, and that integer reductions have no order.
Choices of the model: log 25. -/
def Obligations.CrossLaneLaws : Prop :=
  PullStaysInItsSegment ∧ ReductionsIgnoreOrder

/-- R188, R189, R429: REORD sorts every thread of the unit that has not exited by key, those whose guard is false last and equal keys
in their old order, moves each thread's identity and masked registers, and the unit's narrow groups become one in each group. A thread
that stood elsewhere goes on behind the REORD with the others.
Choices of the model: log 149. -/
def Obligations.ReordSortsThreads : Prop := ∀ (h : Hdr) (f : FmtA),
  let key (s : State) (u : Ux) (p : Pos) : Nat := if guardHolds s h p then (rd s u f.sa.reg p).toNat else 2 ^ 32
  let sorted (s : State) (u : Ux) : List Pos :=
    sortBy (fun a b => decide (key s u a < key s u b) || (key s u a == key s u b && decide (a.w ≤ b.w))) (participants s u)
  (Commits (.reord h f) h (fun _ => shapeReord f)
    (fun s u => needCells s [(({ o := .v (reordF f), n := reordN f } : RegUse), participants s u),
      (useOf f.sa 1, (participants s u).filter (guardHolds s h))] = none) fun s u =>
      { st := ((sorted s u).zip (participants s u)).foldl (fun st x => moveThread s f st x.1 x.2) s
        moves := ((participants s u).filter fun p => !u.issuing.contains p).map fun p => (p, nextPc u.pc), fuses := true }) ∧
  ∀ s u, (sorted s u).Perm (participants s u) ∧ (sorted s u).Pairwise fun a b => key s u a ≤ key s u b

/-- R425, R431: the moves, and the condition registers set, copied and combined.
Choices of the model: logs 43, 46. -/
def Obligations.MovesAndConditions : Prop := ∀ (h : Hdr) (f : FmtA),
  let put (i : Instr) (sh : Shape) (e : State → Ux → Eff) : Prop := Commits i h (fun _ => sh) (fun _ _ => True) e
  put (.mov h f) (shapeMov f) (fun s u =>
    { st := writeRun s u f.dst fun p => (List.range (movN f)).map fun k => (rd s u (regPlus f.sa.reg k) p).toNat }) ∧
  Commits (.movs h f) h (fun _ => shapeMovs f) (fun s u => destinationFull f s u u.active) (fun s u =>
    crossEff u s f.dst 32 false u.active fun p =>
      just (((rd s u f.sa.reg p).toNat + p.w * (rd s u f.sb.reg p).toNat) % 2 ^ 32)) ∧
  put (.ccset h f) (shapeCcset f) (fun s u =>
    let fl (p : Pos) : BitVec 4 := match f.fn.toNat % 4 with
      | 0 => flagsLogic 32 (rd s u f.sa.reg p).toNat
      | 1 => fpFlags (rdF s u f.sa.reg p)
      | 2 => BitVec.ofNat 4 (rd s u f.sa.reg p).toNat
      | _ => BitVec.ofNat 4 (bits f.fn.toNat 5 2)
    { st := u.active.foldl (fun st p => wrC st (cNum f.dst) p (fl p)) s }) ∧
  (∀ n, f.dst = .c n → put (.ccmov h f) (shapeCcmov f) fun s u =>
    { st := u.active.foldl (fun st p => wrC st n p ((s.g p.gid).creg (cNum f.sa.reg) p.lane)) s }) ∧
  ((∀ n, f.dst ≠ .c n) → put (.ccmov h f) (shapeCcmov f) fun s u =>
    { st := writeLanes s u f.dst 32 0 fun p => ((rd s u f.sa.reg p).toNat, 0) }) ∧
  put (.cclog h f) (shapeCclog f) fun s u =>
    let holds (c : Nat) (o : Opnd) (p : Pos) : Bool := condHolds (condOf c) ((s.g p.gid).creg (cNum o) p.lane)
    let z (p : Pos) : Bool := tb f.fn.toNat (2 * b2n (holds (bits f.fn.toNat 7 4) f.sa.reg p) +
      b2n (holds (bits f.fn.toNat 11 8) f.sb.reg p))
    { st := u.active.foldl (fun st p => wrC st (cNum f.dst) p (mkFlags false (z p) false false)) s }

namespace Sys2Proof.Claims

/-- A directional result of SA: an invalid operand gives the invalid code (R432). -/
def dirOf (f : FmtA) (g : DVal → DRes) (s : State) (_ : Ux) (p : Pos) : DRes :=
  match rdV s f.sa.reg p with
  | .invalid => (dBad, 0)
  | a => g a

/-- A directional result of SA and SB: an invalid operand gives the invalid code (R432). -/
def dirOf2 (f : FmtA) (g : Pos → DVal → DVal → DRes) (s : State) (_ : Ux) (p : Pos) : DRes :=
  match rdV s f.sa.reg p, rdV s f.sb.reg p with
  | .invalid, _ => (dBad, 0)
  | _, .invalid => (dBad, 0)
  | a, b => g p a b

end Sys2Proof.Claims

/-- R213 to R215, R235 to R238, R432 to R434: the directional instructions whose result is a direction, which lands later. -/
def Sys2Proof.Claims.DirectionalResults : Prop := ∀ (h : Hdr) (f : FmtA),
  let put (i : Instr) (sh : Shape) (g : State → Ux → Pos → DRes) : Prop :=
    Commits i h (fun _ => sh) (fun _ _ => True) fun s u => dirWrite f u s (g s u)
  put (.dmov h f) (shapeDmov f) (dirOf f fun a => match a with
    | .vec x y z n => (dWord x y z n, 0)
    | _ => (dNull, 0)) ∧
  put (.dneg h f) (shapeDneg f) (dirOf f fun a => match a with
    | .vec x y z n =>
      if [x, y, z].any (· == -8388608) then fieldsOf (unitVec (-x) (-y) (-z)) n else (dWord (-x) (-y) (-z) n, 0)
    | _ => (dNull, 0)) ∧
  put (.dnorm h f) (shapeDnorm f) (dirOf f fun a => match a with
    | .vec .. => fieldsOf a.unit 0
    | _ => (dNull, 0)) ∧
  put (.dfromv h f) (shapeDfromv f) (fun s u p =>
    let c (k : Nat) : XV := xF s u (regPlus f.sa.reg k) p
    let fix (x : XV) : Int := match x with
      | .num sg n d => if sg then -fixOf dirBits n d else fixOf dirBits n d
      | _ => 0
    if [c 0, c 1, c 2].any fun x => x.isNan || x.isInf then (dBad, fstDinv) else renorm ⟨fix (c 0), fix (c 1), fix (c 2)⟩) ∧
  put (.dadd h f) (shapeDadd f) (dirOf2 f fun _ a b => renorm (if f.fn.getLsbD 0 then a.full.sub b.full else a.full.add b.full)) ∧
  put (.dcross h f) (shapeDcross f) (dirOf2 f fun _ a b => renorm (a.full.cross b.full)) ∧
  put (.drefl h f) (shapeDrefl f) (dirOf2 f fun _ a b => reflect a b) ∧
  put (.dproj h f) (shapeDproj f) (dirOf2 f fun _ a b => match b with
    | .zero => (dBad, fstDinv)
    | _ =>
      let on := V3.mul (a.full.dot b.unit) b.unit
      renorm (if f.fn.getLsbD 0 then on else a.full.sub on)) ∧
  put (.dframe h f) (shapeDframe f) (dirOf2 f fun _ a b => frameOf a b) ∧
  put (.dslerp h f) (shapeDslerp f) fun s u => dirOf2 f (fun p a b => slerp a b (xF s u f.sc.reg p)) s u

/-- R214, R237, R238, R433 to R435: the components and products of directions, the norm-only writes, the comparison, and
refraction, whose flag Z is a free value where no rule gives it one (log 26). -/
def Sys2Proof.Claims.DirectionalScalars : Prop := ∀ (h : Hdr) (f : FmtA),
  let put (i : Instr) (sh : Shape) (e : State → Ux → Eff) : Prop := Commits i h (fun _ => sh) (fun _ _ => True) e
  put (.dtov h f) (shapeDtov f) (fun s u =>
    let r := u.active.map fun p => (p, toComponents (f.fn.getLsbD 0) (rdV s f.sa.reg p))
    { st := s
      long := r.flatMap fun x => x.2.zipIdx.flatMap fun c => longCells (regPlus f.dst c.2) 32 x.1 c.1.1
      fst := r.map fun x => (x.1.gid, x.2.foldl (fun a c => a ||| c.2) 0) }) ∧
  put (.ddot h f) (shapeDdot f) (fun s u => floatWrite u s f.dst 0 32 true fun p =>
    let r := dDot (f.fn.getLsbD 0) (rdV s f.sa.reg p) (rdV s f.sb.reg p)
    { x := r.1, fst := r.2 }) ∧
  put (.dcmp h f) (shapeDcmp f) (fun s u => { st := u.active.foldl (fun st p =>
    wrC st (f.cw.toNat % 4) p (dCmp (rdV s f.sa.reg p) (rdV s f.sb.reg p))) s }) ∧
  put (.dscl h f) (shapeDscl f) (fun s u => normWrite f u s fun p n =>
    if f.fn.getLsbD 0 then
      match xF s u f.sb.reg p with
      | .num sg m d => .ok (n + rneDiv ((if sg then -(m : Int) else m) * 32768) d)
      | _ => .error (dBad, fstDinv)
    else .ok (n + sext 24 (rd s u f.sb.reg p).toNat)) ∧
  put (.dsetn h f) (shapeDsetn f) (fun s u => normWrite f u s fun p _ =>
    if f.fn.getLsbD 0 then
      match xF s u f.sb.reg p with
      | .num sg m d => if m == 0 then .error (dNull, 0) else if sg then .error (dBad, fstDinv) else .ok (normOf m d 15)
      | _ => .error (dBad, fstDinv)
    else .ok (sext 24 (rd s u f.sb.reg p).toNat)) ∧
  put (.drefr h f) (shapeDrefr f) fun s u =>
    let r (p : Pos) : DRes × Option Bool := refract (rdV s f.sa.reg p) (rdV s f.sb.reg p) (xF s u f.sc.reg p)
    let z (p : Pos) : Bool := (r p).2.getD ((Config.freeWord (s.free + p.w)).getLsbD 0)
    let s1 := if f.cw.getLsbD 2 then
        u.active.foldl (fun st p => wrC st (f.cw.toNat % 4) p (mkFlags false (z p) false false)) s
      else s
    dirWrite f u { s1 with free := s1.free + 1024 } fun p => (r p).1

/-- R213 to R215, R235 to R238, R432 to R435: the directional instructions.
Choices of the model: logs 24, 26, 27, 44. -/
def Obligations.Directional : Prop :=
  DirectionalResults ∧ DirectionalScalars

/-- R213: a register of fields in range, with a direction that is not 0 and a norm that is neither code, reads back as those
fields; the invalid and the zero-vector code read as such. -/
def Obligations.DirectionalEncoding : Prop :=
  (∀ x y z n : Int, -8388608 ≤ x ∧ x < 8388608 → -8388608 ≤ y ∧ y < 8388608 → -8388608 ≤ z ∧ z < 8388608 →
    -8388607 ≤ n ∧ n < 8388607 → ¬ (x = 0 ∧ y = 0 ∧ z = 0) → dvalOf (dWord x y z n) = .vec x y z n) ∧
  dvalOf dBad = .invalid ∧ dvalOf dNull = .zero

/-! ### Memory, atomics, synchronisation: rows 0x9 to 0xB -/

namespace Sys2Proof.Claims

/-- The places of the lanes that an access works in, where every one of them may make it. -/
def places (f : FmtM) (k : Kind) (s : State) (u : Ux) : Except Trap (List (Pos × Site)) :=
  sitesOf s u f k (k == .load && f.cache.getLsbD 2) (workLanes u (isScalar f.data))

/-- The state that an access of places finds: with the unit's older stores performed where it follows them. -/
def found (f : FmtM) (s : State) (u : Ux) (l : List (Pos × Site)) : State := if mustFollow f l then drainUnit s u else s

/-- No slot holds an older access of the unit, where an access of places follows them, and there is room for the requests of a load
(R54, R56, R288, R291). -/
def clear (f : FmtM) (s : State) (u : Ux) (l : List (Pos × Site)) : Prop :=
  (mustFollow f l = true → unitHeld s u = false) ∧ loadStalls (found f s u l) l = false

/-- The effect of a load from places: the stash lines that it needs fill, and the words land later (R262, R439). -/
def loads (f : FmtM) (s : State) (u : Ux) (l : List (Pos × Site)) : Eff :=
  let s1 := found f s u l
  let words (x : Pos × Site) : List Nat :=
    loadWords (loadBytes s1 x.1.gid x.2.loc (sizeBytes f.size.toNat)) f.size.toNat (f.fn == 1)
  { st := l.foldl (fun st x => fillSite st x.1.gid x.2) s1
    long := (l.map fun x => (x.1, words x)).flatMap fun x => wordCells f.data x.1 x.2
    far := sitesFar s1 false l }

/-- The effect of a store to places: in ascending lane order into the queues of the groups, or at once where a page is not
plain memory, whose stores pass the L2 by, or the order is sequentially consistent (R281, R288, R291, R439). -/
def stores (f : FmtM) (s : State) (u : Ux) (l : List (Pos × Site)) : Eff :=
  let entry (x : Pos × Site) : StoreEntry := { loc := x.2.loc, bytes := storeBytes s u f.data f.size.toNat x.1 }
  { st := if mustFollow f l then l.foldl (fun st x =>
        if x.2.mt = 0 then performStore st x.1.gid (entry x) else performBypass st x.1.gid (entry x)) (drainUnit s u)
      else l.foldl (fun st x => pushStore st x.1.gid (entry x)) s }

/-- An atomic follows the unit's older stores where a lane performs, or where its order alone asks for it (R281, R290). -/
def atomFollows (f : FmtM) (l : List (Pos × Site)) : Prop := l ≠ [] ∨ f.ord = 4

/-- No slot and no transaction of another die holds what an atomic of places reaches or follows (R54, R307). -/
def atomClear (f : FmtM) (s : State) (u : Ux) (l : List (Pos × Site)) : Prop :=
  writesHeld s l = false ∧ (atomFollows f l → unitHeld s u = false)

/-- The state that an atomic of places performs on. -/
def atomFound (f : FmtM) (s : State) (u : Ux) (l : List (Pos × Site)) : State :=
  if l.isEmpty && f.ord != 4 then s else drainUnit s u

/-- The effect of an atomic whose lanes all reach places (R293, R446). -/
def performed (f : FmtM) (groups : Nat) (fp : Bool) (op : Rmw) (s : State) (u : Ux) (l : List (Pos × Site)) : Eff :=
  let d := atomAll s u f groups fp op (atomFound f s u l) l
  { st := d.1, fst := [(u.gid, d.2.2)], long := d.2.1.flatMap fun x => wordCells f.data x.1 (valueWords f.size.toNat x.2) }

/-- The lanes of an atomic; those that have performed it before a fault are not active (R316, R317). -/
def atomLanes (f : FmtM) (u : Ux) : List Pos := workLanes u (isScalar f.data)

end Sys2Proof.Claims

/-- R54, R56, R121, R437, R439 to R442: the loads. Where every working lane reaches a place, each takes its bytes there, its youngest
older store first, and the words land later. One that follows older accesses waits while a slot holds one of them, and one whose
requests find no room in its die's link queue waits for room. PREF brings the lines of the lanes that reach a place into the L2, and
no other (R442). -/
def Sys2Proof.Claims.LoadsTakeTheirBytes : Prop := ∀ (h : Hdr) (f : FmtM),
  let find (s : State) (u : Ux) : Except Trap (List (Pos × Site)) :=
    sitesOf s u f .load (f.cache.getLsbD 2) (workLanes u (isScalar f.data))
  let put (i : Instr) (sh : Shape) : Prop := ∀ l,
    Commits i h (fun _ => sh) (fun s u => find s u = .ok l ∧ clear f s u l) (fun s u => loads f s u l) ∧
    Parks i h (fun _ => sh) (fun s u => find s u = .ok l ∧ ¬ clear f s u l) fun _ _ => .slot
  put (.ld h f) (shapeLd f) ∧ put (.ldt h f) (shapeLdt f) ∧ put (.ldp h f) (shapeLdp f) ∧ put (.lds h f) (shapeLds f) ∧
  put (.ldc h f) (shapeLdc f) ∧ put (.ldgn h f) (shapeLdgn f) ∧
  ∀ l, Commits (.pref h f) h (fun _ => shapePref f)
    (fun s u => sitesOf s u f .load true (workLanes u (isScalar f.data)) = .ok l)
    fun s _ => { st := l.foldl (fun st x => if loadStalls st [x] then st else fillSite st x.1.gid x.2) s }

/-- R437, R439 to R441, R281, R288: the stores. Where every working lane reaches a place, each puts the low bytes of its source
there, in ascending lane order. One that is performed at once waits while a slot, or another transaction on a line, holds what it
reaches or follows (R54, R307). -/
def Sys2Proof.Claims.StoresPutTheirBytes : Prop := ∀ (h : Hdr) (f : FmtM),
  let find (s : State) (u : Ux) : Except Trap (List (Pos × Site)) := sitesOf s u f .store false (workLanes u (isScalar f.data))
  let may (s : State) (u : Ux) (l : List (Pos × Site)) : Prop :=
    mustFollow f l = true → unitHeld s u = false ∧ writesHeld s l = false
  let put (i : Instr) (sh : Shape) : Prop := ∀ l,
    Commits i h (fun _ => sh) (fun s u => find s u = .ok l ∧ may s u l) (fun s u => stores f s u l) ∧
    Parks i h (fun _ => sh) (fun s u => find s u = .ok l ∧ ¬ may s u l) fun _ _ => .slot
  put (.st h f) (shapeSt f) ∧ put (.stt h f) (shapeStt f) ∧ put (.stp h f) (shapeStp f) ∧ put (.sts h f) (shapeSts f) ∧
  put (.stgn h f) (shapeStgn f)

/-- R439: a load or a store with a lane that reaches no place takes the trap of the lowest such lane, and nothing of it is
performed; a load with PF and no destination makes no access in such a lane (R320). -/
def Sys2Proof.Claims.LowestFailingLaneTraps : Prop := ∀ (h : Hdr) (f : FmtM),
  let no (k : Kind) (i : Instr) (sh : Shape) : Prop := ∀ t, Traps i h (fun _ => sh) (fun s u =>
    (k = .load → f.cache.getLsbD 2 = false) ∧
      ∃ a p b, workLanes u (isScalar f.data) = a ++ p :: b ∧ (∀ q ∈ a, ∃ x, siteOf s u f k q = .ok x) ∧ siteOf s u f k p = .error t)
    fun _ _ => t
  no .load (.ld h f) (shapeLd f) ∧ no .load (.ldt h f) (shapeLdt f) ∧ no .load (.ldp h f) (shapeLdp f) ∧
  no .load (.lds h f) (shapeLds f) ∧ no .load (.ldc h f) (shapeLdc f) ∧ no .load (.ldgn h f) (shapeLdgn f) ∧
  no .store (.st h f) (shapeSt f) ∧ no .store (.stt h f) (shapeStt f) ∧ no .store (.stp h f) (shapeStp f) ∧
  no .store (.sts h f) (shapeSts f) ∧ no .store (.stgn h f) (shapeStgn f)

/-- R244, R245, R248: an access decodes its address first, then checks its alignment: an address outside the form of its space
is a WINDOW fault of that space, and one of global or constant space that is no multiple of the size a BOUNDS fault. -/
def Sys2Proof.Claims.AddressFormAndAlignment : Prop := ∀ (s : State) (gid lane space ea n : Nat) (k : Kind),
  (1 ≤ space → space ≤ 6 → inForm space ea = false → access s gid lane space ea n k = .error (memCause space 2, ea)) ∧
  (space = 1 ∨ space = 6 → ea < 2 ^ 57 → ea % n ≠ 0 → access s gid lane space ea n k = .error (memCause space 3, ea)) ∧
  (space = 3 → ea < 2 ^ 16 → (ea % n ≠ 0 ∨ 65536 < ea + n) → access s gid lane space ea n k = .error (memCause 3 3, ea)) ∧
  (space = 2 → ea < 2 ^ 21 → (ea % n ≠ 0 ∨ (s.launchOf (s.g gid).bid).tileb < ea + n) →
    access s gid lane space ea n k = .error (memCause 2 3, ea)) ∧
  (ea < 2 ^ 57 → ea % n ≠ 0 → access s gid lane 0 ea n k = .error (memCause 1 3, ea)) ∧
  (2 ≤ bits ea 63 56 → bits ea 63 56 < 0xFC → access s gid lane 0 ea n k = .error (memCause 0 2, ea))

/-- R314, R317, R350, R436 to R439: the lane whose access traps, the forms and the alignment of addresses. -/
def Obligations.AccessTraps : Prop :=
  LowestFailingLaneTraps ∧ AddressFormAndAlignment

/-- R260, R290, R443: the plane elements, where every active lane names one and no slot holds an older access: each loaded element
lands later as FP32, and the updates stand in the tile memory in ascending lane order, with the status bits of their
conversions. The older stores are performed first, without an element too where the order is sequentially consistent. -/
def Sys2Proof.Claims.PlaneElements : Prop := ∀ (h : Hdr) (f : FmtM),
  let sites (s : State) (u : Ux) : Except Trap (List (Pos × Slot × Nat × Nat × Nat)) := planeSites s u f u.active
  let core (s : State) (u : Ux) : BCore := s.bc (s.g u.gid).bid (s.g u.gid).bcore
  let ok (l : List (Pos × Slot × Nat × Nat × Nat)) (s : State) (u : Ux) : Prop :=
    sites s u = .ok l ∧ (l ≠ [] ∨ f.ord = 4 → unitHeld s u = false)
  let after (l : List (Pos × Slot × Nat × Nat × Nat)) (s : State) (u : Ux) : State :=
    if l.isEmpty && f.ord != 4 then s else drainUnit s u
  (∀ l, Commits (.ldpl h f) h (fun _ => shapeLdpl f) (ok l) fun s u =>
    let s1 := after l s u
    { st := s1, long := l.flatMap fun x => longCells f.data 32 x.1 (ldplElem (core s1 u) x.2.2.1 x.2.1 x.2.2.2.1 x.2.2.2.2) }) ∧
  ∀ l, Commits (.stpl h f) h (fun _ => shapeStpl f) (ok l) fun s u =>
    let s1 := after l s u
    let r := l.foldl (fun (a : BCore × Nat) x =>
      let y := stplElem a.1 x.2.2.1 x.2.1 x.2.2.2.1 x.2.2.2.2 (rd s u f.data x.1).toNat
      (y.1, a.2 ||| y.2)) (core s1 u, 0)
    { st := s1.modBc (s1.g u.gid).bid (s1.g u.gid).bcore fun _ => r.1, fst := [(u.gid, r.2)] }

/-- R277 to R282, R291, R439, R440: loads, stores, plane elements.
Choices of the model: logs 5, 10, 28, 118, 119, 152. -/
def Obligations.LoadsAndStores : Prop :=
  LoadsTakeTheirBytes ∧ StoresPutTheirBytes ∧ PlaneElements

/-- R261 to R265, R444, R445: cache control on stash lines, and the mapping and unmapping of a stash range, where no slot holds an
older access or a write-back that they need (R50).
Choices of the model: logs 30, 163. -/
def Obligations.StashAndCacheControl : Prop := ∀ (h : Hdr) (f : FmtM) (e : FmtE),
  let w (s : State) (u : Ux) (k : Nat) : Nat := (rdU s u (regPlus e.desc k)).toNat
  let va (s : State) (u : Ux) : Nat := w s u 1 + w s u 2 * 2 ^ 32
  let lines (s : State) (u : Ux) : Nat := w s u 3 / 128
  Commits (.cctl h f) h (fun _ => shapeCctl f) (fun s u => u.active ≠ [] ∧ unitHeld s u = false ∧
      (cctlDirty (drainUnit s u) f u && memHeld (drainUnit s u)) = false) (fun s u =>
    let s1 := drainUnit s u
    { st := s1.modBc (s1.g u.gid).bid (s1.g u.gid).bcore fun c =>
        if f.fn == 2 then { c with stashes := c.stashes.map Stash.cleaned }
        else u.active.foldl (fun c p =>
          match stashLineAt c f.space.toNat (effAddr s u f true p) with
          | none => c
          | some x => cctlLine c (f.fn == 1) x) c }) ∧
  (∀ pas, Commits (.stashMap h e) h (fun _ => shapeStashMap e) (fun s u => u.active ≠ [] ∧ unitHeld s u = false ∧
      stashConflict (drainUnit s u) ((drainUnit s u).g u.gid) (stashNum e) (w s u 0) (va s u) (w s u 3) = false ∧
      stashPas (drainUnit s u) u.gid (va s u) (lines s u) = some pas) fun s u =>
    let s1 := drainUnit s u
    { st := s1.modBc (s1.g u.gid).bid (s1.g u.gid).bcore fun c => { c with stashes := c.stashes ++
        [{ n := stashNum e, tile := w s u 0, va := va s u, lines := lines s u, st := [], pas := [] }] } }) ∧
  Traps (.stashMap h e) h (fun _ => shapeStashMap e) (fun s u => u.active ≠ [] ∧ unitHeld s u = false ∧
    stashConflict (drainUnit s u) ((drainUnit s u).g u.gid) (stashNum e) (w s u 0) (va s u) (w s u 3) = true)
    (fun _ _ => { cause := 6 * 32 + 5 }) ∧
  Commits (.stashUnmap h e) h (fun _ => shapeStashUnmap e) (fun s u => u.active ≠ [] ∧ unitHeld s u = false ∧
      (memHeld (drainUnit s u) = true → ∀ m ∈ ((drainUnit s u).bc ((drainUnit s u).g u.gid).bid
        ((drainUnit s u).g u.gid).bcore).stashes, m.n = stashNum e → m.dirty = false)) fun s u =>
    let s1 := drainUnit s u
    { st := s1.modBc (s1.g u.gid).bid (s1.g u.gid).bcore fun c =>
        { c with stashes := c.stashes.filter fun m => m.n != stashNum e } }

/-- R290, R292, R293, R446, R447: the atomics and reductions. Where every lane of them reaches a place, the lanes perform one
after another in ascending order, each on the value that the last one left, and the old values land later. They wait while a slot,
or another transaction on a line, holds what they reach or follow (R54, R307). -/
def Sys2Proof.Claims.AtomicsInLaneOrder : Prop := ∀ (h : Hdr) (f : FmtM),
  let put (i : Instr) (sh : Shape) (sizes : List Nat) (groups : Nat) (fp : Bool) (op : Rmw) : Prop := ∀ l,
    Commits i h (fun _ => sh) (fun s u => atomSites s u f sizes (atomLanes f u) = (l, none) ∧ atomClear f s u l)
      (fun s u => performed f groups fp op s u l) ∧
    Parks i h (fun _ => sh) (fun s u => (atomSites s u f sizes (atomLanes f u)).1 = l ∧ ¬ atomClear f s u l) fun _ _ => .slot
  let arith_ (i : Instr) (sh : Shape) (op : Rmw) : Prop := put i sh [2, 3] 1 false op
  let word (i : Instr) (sh : Shape) (fp : Bool) (op : Rmw) : Prop := put i sh [2] 1 fp op
  arith_ (.aadd h f) (shapeAadd f) (fun w _ m a _ => ((m + a) % 2 ^ w, 0)) ∧
  arith_ (.amin h f) (shapeAmin f) rmwMin ∧ arith_ (.amax h f) (shapeAmax f) rmwMax ∧
  arith_ (.aand h f) (shapeAand f) (fun _ _ m a _ => (m &&& a, 0)) ∧
  arith_ (.aor h f) (shapeAor f) (fun _ _ m a _ => (m ||| a, 0)) ∧
  arith_ (.axor h f) (shapeAxor f) (fun _ _ m a _ => (m ^^^ a, 0)) ∧
  arith_ (.axchg h f) (shapeAxchg f) (fun _ _ _ a _ => (a, 0)) ∧
  put (.acas h f) (shapeAcas f) [2, 3] 2 false (fun _ _ m a b => (if m == a then b else m, 0)) ∧
  put (.acas2 h f) (shapeAcas2 f) [4] 2 false (fun _ _ m a b => (if m == a then b else m, 0)) ∧
  word (.afadd h f) (shapeAfadd f) true rmwFadd ∧
  word (.ainc h f) (shapeAinc f) false (fun _ _ m a _ => (if a ≤ m then 0 else m + 1, 0)) ∧
  word (.adec h f) (shapeAdec f) false (fun _ _ m a _ => (if m == 0 || a < m then a else m - 1, 0)) ∧
  arith_ (.radd h f) (shapeRadd f) (fun w _ m a _ => ((m + a) % 2 ^ w, 0)) ∧
  arith_ (.rmin h f) (shapeRmin f) rmwMin ∧ arith_ (.rmax h f) (shapeRmax f) rmwMax ∧
  word (.rfadd h f) (shapeRfadd f) true rmwFadd

/-- R317, R404, R447: an atomic whose lane fails has performed in the lanes before it: the trap holds them in DONE, their
results are written at once, and the lanes after it have done nothing. A breakpoint is raised before any lane performs. -/
def Sys2Proof.Claims.AtomicsPartlyPerformed : Prop := ∀ (h : Hdr) (f : FmtM) (l : List (Pos × Site)) (t : Trap),
  let stops (i : Instr) (sh : Shape) (sizes : List Nat) (groups : Nat) (fp : Bool) (op : Rmw) : Prop := ∀ s s1 u,
    Runs s h sh s1 u → atomSites s1 u f sizes (atomLanes f u) = (l, some t) → atomClear f s1 u l →
      let d := atomAll s1 u f groups fp op (atomFound f s1 u l) l
      let s2 := d.2.1.foldl (fun st x => wrWords st f.data x.1 x.2 f.size.toNat) d.1
      exec i s = .next (if t.cause = 322 then takeTrap s1 u h (h.scope != .lane) { t with done := u.done }
        else takeTrap (s2.modGroup u.gid fun g => { g with fst := g.fst ||| BitVec.ofNat 6 d.2.2 }) u h
          (h.scope != .lane) { t with done := u.done ||| maskOf (d.2.1.map fun x => x.1.lane) })
  let both (i : Instr) (sh : Shape) (op : Rmw) : Prop := stops i sh [2, 3] 1 false op
  both (.aadd h f) (shapeAadd f) rmwAdd ∧ both (.amin h f) (shapeAmin f) rmwMin ∧ both (.amax h f) (shapeAmax f) rmwMax ∧
  both (.aand h f) (shapeAand f) rmwAnd ∧ both (.aor h f) (shapeAor f) rmwOr ∧ both (.axor h f) (shapeAxor f) rmwXor ∧
  both (.axchg h f) (shapeAxchg f) rmwXchg ∧ both (.radd h f) (shapeRadd f) rmwAdd ∧
  both (.rmin h f) (shapeRmin f) rmwMin ∧ both (.rmax h f) (shapeRmax f) rmwMax ∧
  stops (.acas h f) (shapeAcas f) [2, 3] 2 false rmwCas ∧ stops (.acas2 h f) (shapeAcas2 f) [4] 2 false rmwCas ∧
  stops (.afadd h f) (shapeAfadd f) [2] 1 true rmwFadd ∧ stops (.rfadd h f) (shapeRfadd f) [2] 1 true rmwFadd ∧
  stops (.ainc h f) (shapeAinc f) [2] 1 false rmwInc ∧ stops (.adec h f) (shapeAdec f) [2] 1 false rmwDec

/-- R293, R294, R446: the atomics, lane after lane, and what they leave where a later lane traps.
Choices of the model: log 5. -/
def Obligations.Atomics : Prop :=
  AtomicsInLaneOrder ∧ AtomicsPartlyPerformed

/-- R287, R299 to R304, R449 to R451: the fence, arrivals on a barrier object, its initialisation and query, and the waits for
a phase and for the operations of a class, where their wait is over, and their waits. A scalar destination of arrivals whose
lanes found different phases takes a free value (log 29). What orders older accesses, and what crosses a die edge, waits while a
slot holds them (R50, R54, R180). -/
def Sys2Proof.Claims.BarriersAndWaits : Prop := ∀ (h : Hdr) (m : FmtM) (f : FmtI),
  let k := f.imm.toNat % 64
  let here (s : State) (u : Ux) : Bar := s.bar (objCore s u.gid false) f.imm.toNat
  let far (s : State) (u : Ux) : Bar := s.bar (objCore s u.gid true) f.imm.toNat
  let named (s : State) (u : Ux) : Bar := s.bar (objCore s u.gid (tb f.imm.toNat 6)) k
  let n (u : Ux) : Nat := if u.scope == .lane then u.active.length else 1
  let arrive_ (s : State) (u : Ux) (leader : Bool) (r : List Nat × Bar) : Eff :=
    crossEff u ((drainUnit s u).setBar (objCore s u.gid leader) f.imm.toNat r.2) f.dst 32 false u.active fun p =>
      just (if u.scope == .lane then r.1.getD (u.active.findIdx fun q => q == p) 0 else r.1.headD 0)
  let free_ (s : State) (u : Ux) (leader : Bool) (r : List Nat × Bar) : Eff :=
    let s1 := (drainUnit s u).setBar (objCore s u.gid leader) f.imm.toNat r.2
    crossEff u { s1 with free := s1.free + 1 } f.dst 32 false u.active fun _ => just ((Config.freeWord s.free).toNat % 65536)
  let alike (r : List Nat × Bar) : Prop := isScalar f.dst = true → ∀ x ∈ r.1, x = r.1.headD 0
  let behind (s : State) (u : Ux) : Nat := ((named s u).phase.toNat + 65536 - (rdU s u f.sa.reg).toNat % 65536) % 65536
  let phaseWait (s : State) (u : Ux) : Wait := .phase (objCore s u.gid (tb f.imm.toNat 6)) k ((rdU s u f.sa.reg).toNat % 65536)
  let x (s : State) (u : Ux) : Nat := (rdU64 s u f.sa.reg).toNat
  let cls := f.imm.toNat % 4
  let count := f.imm.toNat / 4
  let may (s : State) (u : Ux) (leader : Bool) : Prop := unitHeld s u = false ∧ leaderHeld s u.gid leader = false
  let across (s : State) (u : Ux) : Bool := leaderHeld s u.gid (tb f.imm.toNat 6)
  Commits (.fence h m) h (fun _ => shapeFence m) (fun s u => unitHeld s u = false) (fun s u =>
    { st := if m.ord == 4 || (m.ord != 1 && u.members.length > 1) then drainUnit s u else s }) ∧
  Parks (.fence h m) h (fun _ => shapeFence m) (fun s u => unitHeld s u = true) (fun _ _ => .slot) ∧
  Parks (.arvx h f) h (fun _ => shapeArvx f) (fun s u => u.active ≠ [] ∧ leaderHeld s u.gid true = true) (fun _ _ => .slot) ∧
  (∀ r, alike r → Commits (.arv h f) h (fun _ => shapeArv f)
    (fun s u => may s u false ∧ u.active ≠ [] ∧ (here s u).act = true ∧ (here s u).arriveMany (n u) = some r) fun s u => arrive_ s u false r) ∧
  (∀ r, alike r → Commits (.arvx h f) h (fun _ => shapeArvx f)
    (fun s u => may s u true ∧ u.active ≠ [] ∧ (far s u).act = true ∧ (far s u).blk = true ∧ (far s u).arriveMany (n u) = some r)
      fun s u => arrive_ s u true r) ∧
  (∀ r, ¬ alike r → Commits (.arv h f) h (fun _ => shapeArv f)
    (fun s u => may s u false ∧ u.active ≠ [] ∧ (here s u).act = true ∧ (here s u).arriveMany (n u) = some r)
      fun s u => free_ s u false r) ∧
  (∀ r, ¬ alike r → Commits (.arvx h f) h (fun _ => shapeArvx f)
    (fun s u => may s u true ∧ u.active ≠ [] ∧ (far s u).act = true ∧ (far s u).blk = true ∧ (far s u).arriveMany (n u) = some r)
      fun s u => free_ s u true r) ∧
  Commits (.waitp h f) h (fun _ => shapeWaitp f)
    (fun s u => across s u = false ∧ (named s u).act = true ∧ (tb f.imm.toNat 6 = true → (named s u).blk = true) ∧ behind s u ≠ 0) (fun s u =>
      let lost := decide (((s.g u.gid).nar u.slices).why ≠ phaseWait s u) && decide (2 ≤ behind s u)
      { st := u.active.foldl (fun st q => wrC st (f.cw.toNat % 4) q (mkFlags false true false lost)) s }) ∧
  Parks (.waitp h f) h (fun _ => shapeWaitp f) (fun s u => across s u = true) (fun _ _ => .slot) ∧
  Parks (.waitp h f) h (fun _ => shapeWaitp f)
    (fun s u => across s u = false ∧ (named s u).act = true ∧ (tb f.imm.toNat 6 = true → (named s u).blk = true) ∧ behind s u = 0) phaseWait ∧
  Commits (.waitc h f) h (fun _ => shapeWaitc f)
    (fun s u => (s.g u.gid).counter cls ≤ count ∧ ∀ o ∈ (s.g u.gid).covered cls count, o.fault = none) (fun s u =>
      let cov := (s.g u.gid).covered cls count
      { st := s.modGroup u.gid fun g => { g with ops := g.ops.filter fun o => !cov.contains o } }) ∧
  Parks (.waitc h f) h (fun _ => shapeWaitc f) (fun s u => count < (s.g u.gid).counter cls) (fun _ u => .counter u.gid cls count) ∧
  Commits (.binit h f) h (fun _ => shapeBinit f)
    (fun s u => unitHeld s u = false ∧ u.active ≠ [] ∧ 1 ≤ x s u % 2 ^ 32 ∧ x s u % 2 ^ 32 ≤ 32768 ∧ x s u / 2 ^ 32 < 2 ^ 28 ∧
      (tb f.imm.toNat 6 = true → objCore s u.gid false = objCore s u.gid true)) (fun s u =>
      let core := objCore s u.gid false
      { st := (drainUnit s u).setBar core k { s.bar core k with
          aexp := BitVec.ofNat 16 (x s u % 2 ^ 32), acnt := 0, bexp := BitVec.ofNat 28 (x s u / 2 ^ 32), bcnt := 0,
          blk := tb f.imm.toNat 6, act := true } }) ∧
  Commits (.bqry h f) h (fun _ => shapeBqry f) (fun _ _ => True) fun s u =>
    crossEff u s f.dst 32 false u.active fun _ => just ((named s u).word (bits f.imm.toNat 8 7))

/-- R300, R304: an arrival on an object counts one, and the phase moves on with both counts at 0 exactly when it meets both
expectations; an arrival beyond the expectation is none. -/
def Sys2Proof.Claims.PhaseCompletes : Prop := ∀ (b : Bar), b.act = true → b.acnt ≠ b.aexp →
  ∃ c, b.arriveOne = some (b.phase.toNat, c) ∧ c.aexp = b.aexp ∧ c.bexp = b.bexp ∧ c.act = b.act ∧ c.blk = b.blk ∧
    (b.acnt + 1 = b.aexp ∧ b.bcnt = b.bexp → c.phase = b.phase + 1 ∧ c.acnt = 0 ∧ c.bcnt = 0) ∧
    (¬ (b.acnt + 1 = b.aexp ∧ b.bcnt = b.bexp) → c.phase = b.phase ∧ c.acnt = b.acnt + 1 ∧ c.bcnt = b.bcnt)

/-- R287, R299 to R304, R449 to R451: fences, barrier objects and waits.
Choices of the model: logs 29, 53. -/
def Obligations.Synchronisation : Prop :=
  BarriersAndWaits ∧ PhaseCompletes

/-- R170 to R173, R452: the stage rings, and the rendezvous that does nothing else. RPUT fills an EMPTY slot, RGET takes a
FULL one for every issuing lane, RREL releases the oldest HELD one; with an active lane and no ring they take 5.4 and 5.5, where no slot is
EMPTY or FULL they wait, and where none is HELD RREL takes 5.6. RPUT releases the older stores, and waits while a slot holds one
(R54, R173).
Choices of the model: logs 51, 52. -/
def Obligations.StageRings : Prop := ∀ (h : Hdr) (f : FmtA),
  let own (s : State) (u : Ux) : Option Ring := s.ring (s.g u.gid).bid (s.g u.gid).bcore (s.g u.gid).stage
  let before (s : State) (u : Ux) : Option (Nat × Ring) := takeRing s (s.g u.gid)
  let set (s : State) (u : Ux) (st : Nat) (r : Ring) : State := s.setRing (s.g u.gid).bid (s.g u.gid).bcore st r
  (∀ r, Commits (.rput h f) h (fun _ => shapeRput f)
    (fun s u => unitHeld s u = false ∧ u.active ≠ [] ∧ own s u = some r ∧ (r.slot r.pix).st = 0)
    fun s u => { st := (drainUnit s u).setRing (s.g u.gid).bid (s.g u.gid).bcore (s.g u.gid).stage (r.put (rdU s u f.sa.reg)) }) ∧
  (∀ st r, Commits (.rget h f) h (fun _ => shapeRget f)
    (fun s u => u.active ≠ [] ∧ before s u = some (st, r) ∧ (r.slot r.gix).st = 1 ∧ destinationFull f s u u.issuing)
    fun s u => crossEff u (set s u st r.take) f.dst 32 false u.issuing fun _ => just (r.slot r.gix).pay.toNat) ∧
  (∀ st r, Commits (.rrel h f) h (fun _ => shapeRrel f)
    (fun s u => u.active ≠ [] ∧ before s u = some (st, r) ∧ (r.slot r.xix).st = 2) fun s u => { st := set s u st r.release }) ∧
  Commits (.rdv h f) h (fun _ => shapeRdv f) (fun _ _ => True) (fun s _ => { st := s }) ∧
  Traps (.rput h f) h (fun _ => shapeRput f) (fun s u => u.active ≠ [] ∧ own s u = none) (fun _ _ => { cause := 164 }) ∧
  Traps (.rget h f) h (fun _ => shapeRget f) (fun s u => u.active ≠ [] ∧ before s u = none) (fun _ _ => { cause := 165 }) ∧
  Traps (.rrel h f) h (fun _ => shapeRrel f) (fun s u => u.active ≠ [] ∧ before s u = none) (fun _ _ => { cause := 165 }) ∧
  (∀ st r, Traps (.rrel h f) h (fun _ => shapeRrel f)
    (fun s u => u.active ≠ [] ∧ before s u = some (st, r) ∧ (r.slot r.xix).st ≠ 2) fun _ _ => { cause := 166 }) ∧
  (∀ r, Parks (.rput h f) h (fun _ => shapeRput f)
    (fun s u => u.active ≠ [] ∧ own s u = some r ∧ (r.slot r.pix).st = 0 ∧ unitHeld s u = true) fun _ _ => .slot) ∧
  (∀ r, Parks (.rput h f) h (fun _ => shapeRput f)
    (fun s u => u.active ≠ [] ∧ own s u = some r ∧ (r.slot r.pix).st ≠ 0)
    fun s u => .ringRoom (s.g u.gid).bid (s.g u.gid).bcore (s.g u.gid).stage) ∧
  ∀ st r, Parks (.rget h f) h (fun _ => shapeRget f)
    (fun s u => u.active ≠ [] ∧ before s u = some (st, r) ∧ (r.slot r.gix).st ≠ 1)
    fun s u => .ringData (s.g u.gid).bid (s.g u.gid).bcore st

/-- R57 to R59, R118, R452 to R455: the slot word and a claim on it, the speed request, an event record and a signal. The record
and the signal release the older accesses; they wait where the queue is full, or a slot or another transaction on a line holds
what they order or reach (R54, R307).
Choices of the model: log 31. -/
def Obligations.SlotsEventsSignals : Prop := ∀ (h : Hdr) (a : FmtA) (f : FmtI),
  let cl (s : State) (u : Ux) : Nat := clusterOf (s.g u.gid).core
  let add := f.imm.getLsbD 0
  let ea (s : State) (u : Ux) : Nat := (rdU64 s u f.sa.reg).toNat
  Commits (.mslot h a) h (fun _ => shapeMslot a) (fun _ _ => True)
    (fun s u => crossEff u s a.dst 64 true u.active fun _ => just (mslotWord (s.cluster (cl s u)).slot)) ∧
  Commits (.mswin h f) h (fun _ => shapeMswin f)
    (fun s u => u.active ≠ [] ∧ (s.cluster (cl s u)).slot.opened = false ∧ f.imm.toNat < (s.cluster (cl s u)).slot.wait)
    (fun s u => { st := s.setCluster (cl s u) { s.cluster (cl s u) with
      claims := (s.cluster (cl s u)).claims ++ [f.imm.toNat] } }) ∧
  Traps (.mswin h f) h (fun _ => shapeMswin f) (fun s u => u.active ≠ [] ∧ (s.cluster (cl s u)).slot.opened = true)
    (fun s u => { cause := 291, info := mslotWord (s.cluster (cl s u)).slot }) ∧
  Traps (.mswin h f) h (fun _ => shapeMswin f)
    (fun s u => u.active ≠ [] ∧ (s.cluster (cl s u)).slot.opened = false ∧ (s.cluster (cl s u)).slot.wait ≤ f.imm.toNat)
    (fun s u => { cause := 292, info := mslotWord (s.cluster (cl s u)).slot }) ∧
  Commits (.speed h f) h (fun _ => shapeSpeed f) (fun _ u => u.active ≠ [])
    (fun s u => { st := s.setBlock (s.g u.gid).bid { s.b (s.g u.gid).bid with speed := f.imm.toNat } }) ∧
  Commits (.evrec h f) h (fun _ => shapeEvrec f) (fun s u => unitHeld s u = false ∧ u.active ≠ [] ∧
      (s.cluster (cl s u)).eq.length < 256)
    (fun s u =>
      let s1 := drainUnit s u
      { st := s1.setCluster (cl s u) { s1.cluster (cl s u) with eq := (s1.cluster (cl s u)).eq ++
          [eqEntry (f.imm.toNat + (rdU s u f.sa.reg).toNat) (s.g u.gid).core 4 0] } }) ∧
  Parks (.evrec h f) h (fun _ => shapeEvrec f) (fun s u => u.active ≠ [] ∧ 256 ≤ (s.cluster (cl s u)).eq.length)
    (fun s u => .events (cl s u)) ∧
  ∀ x p, Commits (.signal h f) h (fun _ => shapeSignal f)
    (fun s u => unitHeld s u = false ∧ writesHeld (drainUnit s u) [(p, x)] = false ∧ u.active.head? = some p ∧ access s u.gid p.lane 1 (ea s u) 8 (if add then .atomic else .store) = .ok x ∧
      (add = true → x.mt = 0 ∧ sitePoisoned s x = false) ∧ brkHit (s.g u.gid) .store x 8 = false)
    fun s u =>
      let s1 := drainUnit s u
      let old := leVal ((List.range 8).map fun k => locByte s1 (x.loc.plus k))
      let v := (rdU64 s u f.dst).toNat
      let e : StoreEntry := { loc := x.loc, bytes := leBytes 8 ((if add then old + v else v) % 2 ^ 64) }
      { st := if x.mt = 0 then performStore s1 u.gid e else performBypass s1 u.gid e }

/-! ### Engines and the arrays: rows 0xC and 0xD -/

namespace Sys2Proof.Claims

/-- The block's async budget holds the charge of a plan (R108, R109). -/
def paid (s : State) (u : Ux) (p : Plan) : Bool :=
  !overBudget s (s.g u.gid).bid (p.charge s (s.launchOf (s.g u.gid).bid).ctx)

/-- An engine operation of a class may begin: the block's budget holds its charge, its operands are in range and clear of the
stash, the group has fewer than 63 outstanding operations of the class, and no slot holds an older access (R54, R108, R294, R297,
R458). -/
def opens (cls : Nat) (s : State) (u : Ux) (p : Plan) : Prop :=
  paid s u p = true ∧ p.bad s = none ∧ (s.g u.gid).counter cls < 63 ∧ unitHeld s u = false

/-- The effect of an engine command: after the unit's older stores the operation joins the group's outstanding ones with its charge,
its barrier and its event, and for a class-0 launch with the fault that a page of it lacks its translation, or lies in a dark stack,
which is reported (R33, R294, R297, R456 to R458). -/
def opened (f : FmtE) (cls : Nat) (s : State) (u : Ux) (job : Job) (p : Plan) : Eff :=
  let l := s.launchOf (s.g u.gid).bid
  let s1 := drainUnit s u
  let bad := if l.cls == 0 then p.untranslated s1 l.ctx job.user else none
  let flt : Option Trap := bad.map fun x => { cause := engCause cls (if 16 ≤ x.1 then 7 else x.1), faddr := x.2 }
  let s2 := match bad with
    | some x => if 16 ≤ x.1 then sendCheck s1 0x163 (x.1 - 16) [] else s1
    | none => s1
  { st := addOp s2 u cls (p.charge s l.ctx) job (if f.ben then some f.bar.toNat else none)
      (if f.evq then some (bits f.imm.toNat 15 0) else none) flt }

/-- The statement of an engine command of `nw` descriptor words, whose first check is `chk` and which does `fin` once it has begun:
where its descriptor makes a plan that may begin, it begins; where it makes none, the command takes the plan's cause; a charge
beyond the budget takes 9.1, and a range out of bounds or in a stash the engine's cause; where the class has 63 outstanding
operations, or a slot holds an older access, it waits. -/
def Engine (i : Instr) (h : Hdr) (f : FmtE) (sh : Shape) (cls op nw : Nat) (plan : State → Nat → Job → Except Nat Plan)
    (chk : State → Ux → Option Nat := fun _ _ => none) (fin : State → Ux → State → State := fun _ _ st => st) : Prop :=
  let job (s : State) (u : Ux) : Job := jobOf s u op nw f
  let made (s : State) (u : Ux) (p : Plan) : Prop := u.active ≠ [] ∧ chk s u = none ∧ plan (drainUnit s u) u.gid (job s u) = .ok p
  (∀ p, Commits i h (fun _ => sh) (fun s u => made s u p ∧ opens cls s u p)
    fun s u => { opened f cls s u (job s u) p with st := fin s u (opened f cls s u (job s u) p).st }) ∧
  (∀ c, Traps i h (fun _ => sh) (fun s u => u.active ≠ [] ∧ chk s u = some c) fun _ _ => { cause := c }) ∧
  (∀ c, Traps i h (fun _ => sh) (fun s u => u.active ≠ [] ∧ chk s u = none ∧ plan (drainUnit s u) u.gid (job s u) = .error c)
    fun _ _ => { cause := c }) ∧
  (∀ p, Traps i h (fun _ => sh) (fun s u => made s u p ∧ paid s u p = false) fun _ _ => { cause := 289 }) ∧
  (∀ p k, Traps i h (fun _ => sh) (fun s u => made s u p ∧ paid s u p = true ∧ p.bad s = some k) fun _ _ =>
    { cause := engCause cls k }) ∧
  (∀ p, Parks i h (fun _ => sh) (fun s u => made s u p ∧ paid s u p = true ∧ p.bad s = none ∧ 63 ≤ (s.g u.gid).counter cls)
    fun _ u => .opRoom u.gid cls) ∧
  ∀ p, Parks i h (fun _ => sh) (fun s u => made s u p ∧ paid s u p = true ∧ p.bad s = none ∧ (s.g u.gid).counter cls < 63 ∧
    unitHeld s u = true) fun _ _ => .slot

/-- An operation of the arrays may begin (R54, R108, R294). -/
def arrayOpens (charge : Nat) (s : State) (u : Ux) : Prop :=
  overBudget s (s.g u.gid).bid charge = false ∧ (s.g u.gid).counter 2 < 63 ∧ unitHeld s u = false

/-- No accumulator of some cores that an instruction reads holds an uncorrectable error (R312, R319). -/
def accSound (f : FmtX) (cores : List Nat) (s : State) : Bool := !cores.any (accBad s f.acc.toNat)

/-- The budget holds a charge, where the slots, the shape and the record of an instruction give one (R108, R313, log 147). -/
def affords (charge : State → Ux → Option Nat) (s : State) (u : Ux) : Prop :=
  ∀ n, charge s u = some n → overBudget s (s.g u.gid).bid n = false

/-- An instruction whose charge is known and exceeds the budget takes 9.1, before its format slots and every cause of R471 (R108,
R313). -/
def BudgetTraps (i : Instr) (h : Hdr) (sh : State → Shape) (charge : State → Ux → Option Nat) : Prop :=
  ∀ n, Traps i h sh (fun s u => u.active ≠ [] ∧ charge s u = some n ∧ overBudget s (s.g u.gid).bid n = true) fun _ _ => { cause := 289 }

/-- An instruction whose accumulator holds an uncorrectable error takes 1.15, where the budget holds its charge. INFO names a free
register, since no rule gives an accumulator a code (log 124). -/
def AccErrorTraps (i : Instr) (h : Hdr) (f : FmtX) (sh : State → Shape) (cores : State → Ux → List Nat)
    (charge : State → Ux → Option Nat := fun _ _ => none) : Prop :=
  ∀ s s1 u, Runs s h (sh s) s1 u → u.active ≠ [] → affords charge s1 u → accSound f (cores s1 u) s1 = false →
    exec i s = .next (takeTrap { s1 with free := s1.free + 1 } u h (h.scope != .lane)
      { cause := 47, info := (Config.freeWord s1.free).toNat % 1024 })

/-- The effect of an array instruction: after the unit's older stores the operation joins the group's outstanding ones, and the
order of the arrays of some cores (R294, R297, R469). -/
def arrayOpened (s : State) (u : Ux) (job : Job) (cores : List Nat) (charge : Nat) (bar evq : Option Nat) : Eff :=
  { st := reachArrays (addOp (drainUnit s u) u 2 charge job bar evq none) u.gid (s.g u.gid).seq cores }

/-- The array of the group's own core. -/
def own (s : State) (u : Ux) : List Nat := [(s.g u.gid).core]

/-- Every check of a list passes. -/
def passes (l : List (Option Nat)) : Prop := ∀ x ∈ l, x = none

/-- The effect of an array move: the window's cells go empty in the active lanes, and the values form when the array reaches
the move (R477, R484). -/
def moved (s : State) (u : Ux) (job : Job) (cells : List Cell) : Eff :=
  let s1 := drainUnit s u
  let n := (s1.g u.gid).seq
  let s2 := s1.modGroup u.gid fun g =>
    let g1 := cells.foldl (fun g c => g.markEmpty c) g
    { g1 with pend := g1.pend ++ [{ n := n, writes := [], job := some job }], seq := n + 1 }
  { st := reachArrays s2 u.gid n [(s1.g u.gid).core] }

/-- The panels that fit from a place of a weight region on, none outside every region (R483). -/
def panelSpace (l : Launch) (at_ panel : Nat) : Nat :=
  match l.regs.find? fun r => r.kind == 2 && 512 * r.base ≤ at_ && at_ < 512 * (r.base + r.rows) with
  | some r => (512 * (r.base + r.rows) - at_) / panel
  | none => 0

end Sys2Proof.Claims

/-- R456 to R468: the commands of the copy engine, the sparse engine, the links and the collective engine. CPYPL finds a fault of
its slot first (R232, R313), and NRECV takes its place among those of its core's direction (R467). -/
def Sys2Proof.Claims.EngineCommands : Prop := ∀ (h : Hdr) (f : FmtE),
  Engine (.cpy h f) h f (shapeCpy f) 0 0xC0 5 planCpy ∧ Engine (.cpy2d h f) h f (shapeCpy2d f) 0 0xC1 8 planCpy2d ∧
  Engine (.cpyt h f) h f (shapeCpyt f) 0 0xC2 8 planCpyt ∧ Engine (.stsp h f) h f (shapeStsp f) 1 0xC5 6 (planSparse true) ∧
  Engine (.ldsp h f) h f (shapeLdsp f) 1 0xC6 6 (planSparse false) ∧ Engine (.cpypl h f) h f (shapeCpypl f) 0 0xC7 7 planCpypl (fun s u =>
    let sl := slotAt s u.gid (bits f.imm.toNat 18 16)
    slotFault sl sl.elem) ∧
  Engine (.coll h f) h f (shapeColl f) 3 0xC8 5 planColl ∧ Engine (.rdma h f) h f (shapeRdma f) 3 0xC9 7 planRdma ∧
  Engine (.nsend h f) h f (shapeNsend f) 0 0xCA 3 (planLink false) ∧
  Engine (.nrecv h f) h f (shapeNrecv f) 0 0xCB 3 (planLink true) (fun _ _ => none)
    (fun s u st => queueRecv st u.gid (s.g u.gid).seq (bits f.imm.toNat 17 16)) ∧
  Engine (.cinv h f) h f (shapeCinv f) 0 0xCD 3 planCinv

/-- R295, R461, R468: CFILL, GATH and SCAT, whose operation takes the pattern or the indices with it, and completes faulted where an
index holds an uncorrectable error; CSTAT, which reads the
four counters; and CABORT, which ends every outstanding operation of a class without a fault. -/
def Sys2Proof.Claims.FillGatherAndCounters : Prop := ∀ (h : Hdr) (f : FmtE),
  let fill (s : State) (u : Ux) : Job :=
    { jobOf s u 0xCC 3 f with args := (jobOf s u 0xCC 3 f).args ++ [(rdU s u f.sa.reg).toNat] }
  let with_ (op : Nat) (ix : List Nat) (s : State) (u : Ux) : Job :=
    { jobOf s u op 7 f with args := (jobOf s u op 7 f).args ++ ix }
  let gather (i : Instr) (sh : Shape) (op : Nat) (scat : Bool) : Prop :=
    let indexed (s : State) (u : Ux) (ix : List Nat) : Prop := u.active ≠ [] ∧ gathIdx s u.gid (jobOf s u op 7 f) = .ok ix
    let planned (s : State) (u : Ux) (ix : List Nat) (p : Plan) (l : ELoc) : Prop := indexed s u ix ∧
      planGather scat s u.gid (with_ op ix s u) = .ok p ∧ engLoc s u.gid ((jobOf s u op 7 f).addr 5) = some l
    (∀ ix p l, Commits i h (fun _ => sh) (fun s u => planned s u ix p l ∧ rangeStashed s (l, 4 * ix.length) = false ∧
      rangePoisoned s (l, 4 * ix.length) = false ∧ opens 1 s u p) fun s u => opened f 1 s u (with_ op ix s u) p) ∧
    (∀ ix p l, Commits i h (fun _ => sh) (fun s u => planned s u ix p l ∧ rangeStashed s (l, 4 * ix.length) = false ∧
      rangePoisoned s (l, 4 * ix.length) = true ∧ opens 1 s u p) fun s u =>
      let o := opened f 1 s u (with_ op ix s u) p
      { o with st := failOp o.st u.gid (s.g u.gid).seq { cause := engCause 1 7 } }) ∧
    (∀ c, Traps i h (fun _ => sh) (fun s u => u.active ≠ [] ∧ gathIdx s u.gid (jobOf s u op 7 f) = .error c) fun _ _ => { cause := c }) ∧
    (∀ ix c, Traps i h (fun _ => sh) (fun s u => indexed s u ix ∧ planGather scat s u.gid (with_ op ix s u) = .error c) fun _ _ =>
      { cause := c }) ∧
    ∀ ix p l, Traps i h (fun _ => sh) (fun s u => planned s u ix p l ∧ rangeStashed s (l, 4 * ix.length) = true) fun _ _ =>
      { cause := engCause 1 5 }
  let cls := bits f.imm.toNat 17 16
  let hit (o : AsyncOp) : Bool := o.cls == cls && !o.complete
  (∀ p, Commits (.cfill h f) h (fun _ => shapeCfill f)
    (fun s u => u.active ≠ [] ∧ planCfill s u.gid (fill s u) = .ok p ∧ opens 0 s u p) fun s u => opened f 0 s u (fill s u) p) ∧
  gather (.gath h f) (shapeGath f) 0xC3 false ∧ gather (.scat h f) (shapeScat f) 0xC4 true ∧
  Commits (.cstat h f) h (fun _ => shapeCstat f) (fun _ _ => True) (fun s u =>
    let n (k : Nat) : Nat := (s.g u.gid).counter k
    { st := writeLanes s u f.desc 32 0 fun _ => (n 0 + n 1 * 2 ^ 8 + n 2 * 2 ^ 16 + n 3 * 2 ^ 24, 0) }) ∧
  Commits (.cabort h f) h (fun _ => shapeCabort f) (fun _ u => u.active ≠ []) fun s u =>
    let cut (o : AsyncOp) : AsyncOp := if hit o then { o with aborted := true, complete := true, fault := none } else o
    { st := ((s.g u.gid).ops.filter hit).foldl (fun st o => opEvent st u.gid o 2)
        (s.modGroup u.gid fun g => { g with ops := g.ops.map cut }) }

/-- R295, R456 to R468: the engine commands. The plan's own cause, then 9.1, then the registers, ranges and stash are tested in this
order.
Choices of the model: logs 33, 49, 50, 54, 55, 125, 147. -/
def Obligations.Engines : Prop :=
  EngineCommands ∧ FillGatherAndCounters

/-- R313, R471, R473 to R475: MMA and its forms. Where every check passes, the accumulator is sound, the budget holds the bytes
that it moves and the class has room, the operation takes its place on the group's array, and under a bound follower on that of the
partner core too; else 9.1 comes first, then an accumulator's error, and then the first check that fails gives the cause.
Choices of the model: logs 34, 124, 147. -/
def Obligations.MatrixMultiplies : Prop := ∀ (h : Hdr) (f : FmtX),
  let put (i : Instr) (sh : Shape) (op : Nat) (tri pair : Bool) : Prop :=
    let cores (s : State) (u : Ux) : List Nat := if pair then [(s.g u.gid).core, (s.g u.gid).core + 1] else own s u
    let charge (s : State) (u : Ux) : Option Nat := mmaCharge f pair u s
    Commits i h (fun _ => sh) (fun s u => u.active ≠ [] ∧ accSound f (cores s u) s = true ∧ passes (mmaChecks f tri pair u s) ∧
      arrayOpens (mmaBytes f pair u s) s u) (fun s u =>
      arrayOpened s u (jobX s u op f (mmaWords f u s)) (cores s u) (mmaBytes f pair u s) none none) ∧
    BudgetTraps i h (fun _ => sh) charge ∧ AccErrorTraps i h f (fun _ => sh) cores charge ∧
    ∀ c, Traps i h (fun _ => sh)
      (fun s u => u.active ≠ [] ∧ affords charge s u ∧ accSound f (cores s u) s = true ∧ ∃ a b, mmaChecks f tri pair u s = a ++ some c :: b ∧ passes a) fun _ _ => { cause := c }
  put (.mma h f) (shapeMma f) 0xD0 false false ∧ put (.mmap h f) (shapeMmap f) 0xD1 false true ∧
  put (.mmat h f) (shapeMmat f) 0xD2 true false ∧ put (.mmapt h f) (shapeMmapt f) 0xD3 true true

/-- R471, R476 to R480, R484: the accumulator instructions, the array moves and the plane query. Each byte between tile memory and
the array counts 1 of the async budget (R109), and a charge beyond it takes 9.1 first (R313); an instruction that reads an accumulator
with an uncorrectable error takes 1.15.
Choices of the model: logs 33, 61, 124, 147. -/
def Obligations.AccumulatorInstructions : Prop := ∀ (h : Hdr) (f : FmtX),
  let g (s : State) (u : Ux) : Group := s.g u.gid
  let l (s : State) (u : Ux) : Launch := s.launchOf (g s u).bid
  let a (s : State) (u : Ux) : Nat := uniX s u f.abase 0
  let b (s : State) (u : Ux) : Nat := uniX s u f.bbase 0
  let w (s : State) (u : Ux) : Nat := uniX s u f.shape 0
  let pitch (s : State) (u : Ux) : Nat := bits (w s u) 16 0
  let clear (s : State) (u : Ux) (r : List (Nat × Nat)) : Prop :=
    elemClear (l s u) r = none ∧ elemInside (l s u) r = none ∧ stashClear s (g s u).bid (g s u).bcore r = none
  let put (i : Instr) (sh : State → Shape) (op : Nat) (reads : Bool) (ok : State → Ux → Prop) (words : State → Ux → List Nat)
      (bytes : State → Ux → Nat) (known : State → Ux → Bool := fun _ _ => true) : Prop :=
    let charge (s : State) (u : Ux) : Option Nat := if known s u then some (bytes s u) else none
    Commits i h sh (fun s u => u.active ≠ [] ∧ f.acc.toNat < 4 ∧ (reads = true → accSound f (own s u) s = true) ∧ ok s u ∧
      arrayOpens (bytes s u) s u)
      (fun s u => arrayOpened s u (jobX s u op f (words s u)) (own s u) (bytes s u) none none) ∧
    BudgetTraps i h sh charge ∧ (reads = true → AccErrorTraps i h f sh own charge)
  let sl (s : State) (u : Ux) : Slot := slotAt s u.gid f.sla.toNat
  let row (s : State) (u : Ux) : Nat := 8 * (sl s u).F.storeBits
  let scale (s : State) (u : Ux) : Nat := if (sl s u).scUsed then b s u else 0
  let scales (s : State) (u : Ux) : List (Nat × Nat) :=
    if (sl s u).smode == 1 then [(scale s u, 128)] else if (sl s u).smode == 2 then [(scale s u, 256)] else []
  let use := msclUse (f.fn.toNat % 4)
  let bias := tb f.fn.toNat 3
  let n := 2 ^ bits f.fn.toNat 18 16
  let vf := bits f.fn.toNat 7 0
  let window (s : State) (u : Ux) : List Nat :=
    u.active.flatMap fun p => (List.range n).map fun k => (rd s u (.v (vf + k)) p).toNat
  put (.acz h f) (fun _ => shapeAcz f) 0xD4 false (fun _ _ => True) (fun _ _ => []) (fun _ _ => 0) ∧
  put (.acld h f) (fun _ => shapeAcld f) 0xD5 false (fun s u => clear s u [(a s u, 63 * pitch s u + 256)] ∧
    pitch s u % 4 = 0 ∧ 256 ≤ pitch s u ∧ pitch s u ≤ 65536) (fun s u => [a s u, w s u]) (fun _ _ => 16384) ∧
  put (.acst h f) (fun s => shapeAcst f (slotX s f)) 0xD6 true (fun s u =>
    clear s u ((a s u, 63 * pitch s u + row s u) :: scales s u) ∧ slotFault (sl s u) true = none ∧
      pitch s u % 4 = 0 ∧ row s u ≤ pitch s u ∧ pitch s u ≤ 65536) (fun s u => [a s u, w s u, scale s u])
    (fun s u => 64 * row s u + (if (sl s u).smode == 1 then 128 else if (sl s u).smode == 2 then 256 else 0))
    (fun s u => (slotFault (sl s u) true).isNone) ∧
  put (.mscl h f) (fun _ => shapeMscl f) 0xDC true (fun s u =>
    clear s u ((if use.a then [(a s u, 256)] else []) ++ (if use.b then [(b s u, 256)] else [])))
    (fun s u => [if use.a then a s u else 0, if use.b then b s u else 0, if use.sh == 0 then 0 else w s u])
    (fun _ _ => 256 * (b2n use.a + b2n use.b)) ∧
  put (.msoft h f) (fun _ => shapeMsoft f) 0xDD true (fun _ _ => True) (fun _ _ => []) (fun _ _ => 0) ∧
  put (.mepi h f) (fun _ => shapeMepi f) 0xDF true (fun s u => clear s u (if bias then [(b s u, 256)] else []))
    (fun s u => [if bias then b s u else 0]) (fun _ _ => if bias then 256 else 0) ∧
  (tb f.fn.toNat 8 = false → AccErrorTraps (.acmv h f) h f (fun _ => shapeAcmv f) own) ∧
  Commits (.acmv h f) h (fun _ => shapeAcmv f) (fun s u => u.active ≠ [] ∧ f.acc.toNat < 4 ∧ unitHeld s u = false ∧
      (tb f.fn.toNat 8 = false → accSound f (own s u) s = true)) (fun s u =>
    if tb f.fn.toNat 8 then moved s u (jobX s u 0xD7 f (window s u)) []
    else moved s u (jobX s u 0xD7 f []) (windowCells u vf n)) ∧
  Commits (.plq h f) h (fun _ => shapePlq f)
    (fun s u => u.active ≠ [] ∧ f.acc.toNat < 4 ∧ unitHeld s u = false ∧
      ∃ r ∈ (l s u).regs, r.kind = 2 ∧ panelsOk (l s u) r.slot (a s u) 1 (slotAt s u.gid r.slot) = true)
    fun s u => moved s u (jobX s u 0xDB f [a s u]) (windowCells u vf 7)

/-- R54, R313, R474, R481 to R483: the network instructions, the plane conversion, and the pairing of two cores. A charge that is known
and exceeds the budget takes 9.1 first; then NETR takes the cause of a window beyond the declaration; where a slot holds the shape record
a network waits once its slots and planes pass.
Choices of the model: logs 33, 60, 64, 147. -/
def Obligations.NetworksPlanesAndPairs : Prop := ∀ (h : Hdr) (f : FmtX) (e : FmtE) (m : FmtI),
  let g (s : State) (u : Ux) : Group := s.g u.gid
  let l (s : State) (u : Ux) : Launch := s.launchOf (g s u).bid
  let slA (s : State) (u : Ux) : Slot := slotAt s u.gid f.sla.toNat
  let slB (s : State) (u : Ux) : Slot := slotAt s u.gid f.slb.toNat
  let a (s : State) (u : Ux) : Nat := uniX s u f.abase 0
  let panel (s : State) (u : Ux) : Nat := 512 * (slA s u).panelRows
  let ea (s : State) (u : Ux) : Nat := uniX s u f.shape 0 + 2 ^ 32 * uniX s u f.shape 1
  let charge (bs : List Byte) (s : State) (u : Ux) (more : Nat) : Nat := netCharge s (g s u).bid (netRec bs) (slB s u).F + more
  let record (bs : List Byte) (s : State) (u : Ux) (more : Nat) : Prop :=
    u.active ≠ [] ∧ passes (netSlots f (slA s u) (slB s u)) ∧ netHeld s u (ea s u) = false ∧ readNetRec s u (ea s u) = .ok bs ∧
      netBad (netRec bs) (slA s u) (slB s u) = none ∧ arrayOpens (charge bs s u more) s u
  let rows (bs : List Byte) (u : Ux) : Nat := 4 * (netRec bs).wd 0 * u.active.length
  let win (bs : List Byte) : RegUse := { o := .v (bits f.fn.toNat 7 0), n := (netRec bs).wd 0, align := false }
  let k := bits e.imm.toNat 23 16 % 8
  let pw (s : State) (u : Ux) (n : Nat) : Nat := (jobOf s u 0xDA 3 e).w n
  let sl (s : State) (u : Ux) : Slot := slotAt s u.gid k
  let next (s : State) (u : Ux) : Core := s.core ((g s u).core + 1)
  let known (s : State) (u : Ux) : Option NetRec := netKnown s u (ea s u) (slA s u) (slB s u)
  let netCost (s : State) (u : Ux) : Option Nat := (known s u).map fun r => netCharge s (g s u).bid r (slB s u).F + panel s u
  let netrCost (s : State) (u : Ux) : Option Nat := (known s u).map fun r =>
    netCharge s (g s u).bid r (slB s u).F + 4 * r.wd 0 * u.active.length
  let space (s : State) (u : Ux) : Nat := panelSpace (l s u) (pw s u 1) (512 * (sl s u).panelRows)
  let fits (s : State) (u : Ux) : Bool := decide (1 ≤ pw s u 2) && decide (pw s u 2 ≤ space s u)
  let plcvCost (s : State) (u : Ux) : Option Nat :=
    if fits s u && (slotFault (sl s u) (sl s u).elem).isNone then some (16384 * pw s u 2) else none
  BudgetTraps (.net h f) h (fun _ => shapeNet f) netCost ∧ BudgetTraps (.netr h f) h (fun _ => shapeNetr f) netrCost ∧
  BudgetTraps (.plcv h e) h (fun _ => shapePlcv e) plcvCost ∧
  (∀ bs c o, Traps (.netr h f) h (fun _ => shapeNetr f) (fun s u => u.active ≠ [] ∧ affords netrCost s u ∧ netHeld s u (ea s u) = false ∧
      readNetRec s u (ea s u) = .ok bs ∧ (netRec bs).ok = true ∧ useFault (l s u) (win bs) = some (c, o))
    fun _ u => { cause := c, info := regInfo o (u.active.headD ⟨0, u.gid, 0⟩) }) ∧
  Parks (.net h f) h (fun _ => shapeNet f) (fun s u => u.active ≠ [] ∧ passes (netSlots f (slA s u) (slB s u)) ∧
      a s u + panel s u ≤ (l s u).tileb ∧ panelsOk (l s u) f.sla.toNat (a s u) 1 (slA s u) = true ∧ netHeld s u (ea s u) = true)
    (fun _ _ => .slot) ∧
  Parks (.netr h f) h (fun _ => shapeNetr f) (fun s u => u.active ≠ [] ∧ passes (netSlots f (slA s u) (slB s u)) ∧
      netHeld s u (ea s u) = true) (fun _ _ => .slot) ∧
  (∀ bs, Commits (.net h f) h (fun _ => shapeNet f) (fun s u => record bs s u (panel s u) ∧ a s u + panel s u ≤ (l s u).tileb ∧
      panelsOk (l s u) f.sla.toNat (a s u) 1 (slA s u) = true ∧
      stashClear s (g s u).bid (g s u).bcore [(a s u, panel s u)] = none) fun s u =>
    arrayOpened s u (jobX s u 0xD8 f [a s u, ea s u, leVal bs]) (own s u) (charge bs s u (panel s u)) none none) ∧
  (∀ bs, Commits (.netr h f) h (fun _ => shapeNetr f) (fun s u => record bs s u (rows bs u) ∧ useFault (l s u) (win bs) = none ∧
      needCells s [(win bs, u.active)] = none) fun s u =>
    arrayOpened s u (jobX s u 0xD9 f ([0, ea s u, leVal bs] ++ netrInputs s u (slA s u) (bits f.fn.toNat 7 0) ((netRec bs).wd 0)))
      (own s u) (charge bs s u (rows bs u)) none none) ∧
  (∀ r, Commits (.plcv h e) h (fun _ => shapePlcv e) (fun s u => u.active ≠ [] ∧ slotFault (sl s u) (sl s u).elem = none ∧
      (l s u).regs.find? (fun r => r.kind == 2 && 512 * r.base ≤ pw s u 1 && pw s u 1 < 512 * (r.base + r.rows)) = some r ∧
      1 ≤ pw s u 2 ∧ pw s u 2 ≤ (512 * (r.base + r.rows) - pw s u 1) / (512 * (sl s u).panelRows) ∧ (sl s u).smode ≠ 2 ∧
      panelsOk (l s u) k (pw s u 1) (pw s u 2) (sl s u) = true ∧ elemClear (l s u) [(pw s u 0, 16384 * pw s u 2)] = none ∧
      elemInside (l s u) [(pw s u 0, 16384 * pw s u 2)] = none ∧ stashClear s (g s u).bid (g s u).bcore
        [(pw s u 1, pw s u 2 * (512 * (sl s u).panelRows)), (pw s u 0, 16384 * pw s u 2)] = none ∧ arrayOpens (16384 * pw s u 2) s u) fun s u =>
    arrayOpened s u (jobOf s u 0xDA 3 e) (own s u) (16384 * pw s u 2) (if e.ben then some e.bar.toNat else none)
      (if e.evq then some (bits e.imm.toNat 15 0) else none)) ∧
  Commits (.mpairBind h m) h (fun _ => shapeMpair m) (fun s u => u.active ≠ [] ∧ (g s u).core % 2 = 0 ∧
      (∃ c ∈ (s.b (g s u).bid).cores, c.core = (g s u).core + 1) ∧
      ((next s u).bound = none ∨ (next s u).bound = some (g s u).bid)) (fun s u =>
    { st := s.setCore ((g s u).core + 1) { next s u with bound := some (g s u).bid } }) ∧
  Commits (.mpairRel h m) h (fun _ => shapeMpair m) (fun s u => u.active ≠ [] ∧ (g s u).core % 2 = 0 ∧
      (next s u).bound = some (g s u).bid ∧ pairBusy s (g s u).bid = false) (fun s u =>
    { st := s.setCore ((g s u).core + 1) { next s u with bound := none } }) ∧
  Parks (.mpairRel h m) h (fun _ => shapeMpair m) (fun s u => u.active ≠ [] ∧ (g s u).core % 2 = 0 ∧
      (next s u).bound = some (g s u).bid ∧ pairBusy s (g s u).bid = true) (fun s u => .pairOps (g s u).bid) ∧
  Traps (.mpairBind h m) h (fun _ => shapeMpair m) (fun s u => u.active ≠ [] ∧ (g s u).core % 2 ≠ 0) fun _ _ => { cause := 226 }

/-! ### Graphics and rays: row 0xE -/

/-- R485 to R487, R132 to R134, R138: DRAWX puts a draw in flight with its two launches, the translations of its pages and the
directory of its tiles, whose bytes are free values, where its record is right, and waits while sixteen are, or a slot holds an older
access, the record or the directory; EMIT and EMITV add one record for each active lane to the draw of a mesh-stage group, and the bytes
of the emit buffer that they take hold free values.
Choices of the model: logs 69, 71, 72, 128. -/
def Obligations.DrawsAndEmission : Prop := ∀ (h : Hdr) (e : FmtE) (f : FmtA),
  let s0 (s : State) (u : Ux) : State := drainUnit s u
  let l (s : State) (u : Ux) : Launch := (s0 s u).launchOf ((s0 s u).g u.gid).bid
  let lid (s : State) (u : Ux) : Nat := ((s0 s u).b ((s0 s u).g u.gid).bid).lid
  let va (s : State) (u : Ux) : Nat := (rdU64 (s0 s u) u e.desc).toNat
  let fresh (s : State) (u : Ux) : Draw :=
    let d := Draw.fresh (lid s u) ((s0 s u).g u.gid).bid
      (wordsOf 16 ((vRead (s0 s u) (l s u).ctx sysRead (va s u) 128).getD [])) (s0 s u).nextLaunch ((s0 s u).nextLaunch + 1)
    { d with leaves := (d.pagesOf (s0 s u) (l s u).ctx).getD [] }
  let recordHeld (s : State) (u : Ux) : Bool := vHeld (s0 s u) ((s0 s u).g u.gid).core ((s0 s u).launchOf ((s0 s u).g u.gid).bid).ctx
    (ownWant (s0 s u) u.gid false) (va s u) 128
  let listHeld (s : State) (u : Ux) : Bool :=
    vHeld (s0 s u) ((s0 s u).g u.gid).core (l s u).ctx sysWrite (fresh s u).pbase (16 * (fresh s u).ntiles)
  let emits (i : Instr) (sh : State → Shape) (gauss : Bool) (n size : State → Nat) : Prop := ∀ k d, Commits i h sh
    (fun s u => u.active ≠ [] ∧ drawOf s u.gid = some (k, d, true) ∧ d.count + u.active.length ≤ 2 ^ 32 ∧
      (s.b (s.g u.gid).bid).emitted + size s * u.active.length ≤ d.emitb) fun s u =>
    let b := s.b (s.g u.gid).bid
    let rec_ (p : Pos) : Nat × Nat × Prim := ((s.g u.gid).idx, p.lane,
      { gauss := gauss, seq := 0, words := (List.range (n s)).map fun i => rd s u (.v (f.fn.toNat % 256 + i)) p })
    let d1 := { d with count := d.count + u.active.length,
                       emitted := FMap.set [] d.emitted b.lin (FMap.get [] d.emitted b.lin ++ u.active.map rec_) }
    let s1 := fillEmit (s.setDraw k d1) (s.g u.gid).bid d (size s * u.active.length)
    { st := s1.setBlock (s.g u.gid).bid { s1.b (s.g u.gid).bid with emitted := b.emitted + size s * u.active.length } }
  let right (s : State) (u : Ux) (m r : Launch) : Prop := u.active ≠ [] ∧ drawsInFlight s < 16 ∧ unitHeld s u = false ∧
    va s u % 64 = 0 ∧ readFail (s0 s u) (l s u).ctx false (va s u) 128 = none ∧ recordHeld s u = false ∧ (fresh s u).fieldsOk = true ∧
    (fresh s u).recordsOk (s0 s u) (l s u).ctx = true ∧ (fresh s u).pagesFit (s0 s u) (l s u).ctx = true ∧
    drawLaunch (s0 s u) (l s u) ((fresh s u).w 0) = some m ∧ drawLaunch (s0 s u) (l s u) ((fresh s u).w 1) = some r
  (∀ m r, Commits (.drawx h e) h (fun _ => shapeDrawx e) (fun s u => right s u m r ∧ listHeld s u = false) fun s u =>
    let t := s0 s u
    let s1 := ((writeDirectory t (fresh s u)).setLaunch t.nextLaunch { m with st := .waiting }).setLaunch (t.nextLaunch + 1) { r with st := .running }
    { st := { s1.setDraw t.nextDraw (fresh s u) with nextDraw := t.nextDraw + 1, nextLaunch := t.nextLaunch + 2 } }) ∧
  Parks (.drawx h e) h (fun _ => shapeDrawx e) (fun s u => u.active ≠ [] ∧ 16 ≤ drawsInFlight s) (fun _ _ => .draws) ∧
  Parks (.drawx h e) h (fun _ => shapeDrawx e) (fun s u => u.active ≠ [] ∧ drawsInFlight s < 16 ∧ (unitHeld s u = true ∨
      va s u % 64 = 0 ∧ readFail (s0 s u) (l s u).ctx false (va s u) 128 = none ∧ recordHeld s u = true)) (fun _ _ => .slot) ∧
  (∀ m r, Parks (.drawx h e) h (fun _ => shapeDrawx e) (fun s u => right s u m r ∧ listHeld s u = true) (fun _ _ => .slot)) ∧
  emits (.emit h f) (fun s => shapeEmit f (attrHere s)) false (fun s => 12 + 3 * attrHere s)
    (fun s => 64 + 16 * cdiv (3 * attrHere s) 4) ∧
  emits (.emitv h f) (fun _ => shapeEmitv f) true (fun _ => 11) (fun _ => 64) ∧
  ∀ i sh, (i = .emit h f ∧ sh = fun s => shapeEmit f (attrHere s)) ∨ (i = .emitv h f ∧ sh = fun _ => shapeEmitv f) →
    Traps i h sh (fun s u => u.active ≠ [] ∧ ∀ k d, drawOf s u.gid ≠ some (k, d, true)) fun _ _ => { cause := drawCause 13 }

/-- R148, R488 to R491, R504, R506: the accesses of a fragment wave to its tile, once no wave of an earlier triangle of the tile is left
and no checkpoint operation of one is outstanding; outside a wave they take 8.10. The stores of TRES to a window or uncached page wait
while a slot or another transaction on a line holds them (R54, R307). TLCK and TLRST issue at once, and their operations take their
place in the order of the tile's waves (log 126): TLRST reads its record's header behind the unit's older stores, waits while a slot
holds it, refuses one that holds no checkpoint (8.11) or that of another tile or no earlier triangle (6.6), and completes faulted where
it cannot be read (R491).
Choices of the model: logs 36, 74, 79, 126. -/
def Obligations.FragmentWaves : Prop := ∀ (h : Hdr) (f : FmtA) (e : FmtE),
  let turn (s : State) (u : Ux) (k : Nat) (d : Draw) (w : Wave) : Prop :=
    u.active ≠ [] ∧ waveOf s u.gid = some (k, d, w) ∧ mustWait s k d w = false
  let at2 (w : Wave) (p : Pos) : Nat := pixelIn (w.pixel p.lane).1 (w.pixel p.lane).2
  let seen (s : State) (u : Ux) (p : Pos) : Nat := rdF s u f.sa.reg p
  let pass (d : Draw) (w : Wave) (s : State) (u : Ux) (p : Pos) : Bool :=
    !d.zfmt || depthPasses (f.fn.toNat % 8) (seen s u p) ((d.tile w.tile).depthAt (at2 w p))
  let blend (s : State) (u : Ux) (d : Draw) (w : Wave) (x : Draw) (p : Pos) : Draw := commitPixel x w p.lane fun t px =>
    let src := (List.range 4).map fun i => (rd s u (.v (f.fn.toNat % 256 + i)) p).toNat
    t.setColour px ((blendColour (bits f.fn.toNat 9 8) src ((t.colourAt px).map (readChannel d.cfmt))).map (writeChannel d.cfmt))
  let vals (d : Draw) (w : Wave) (p : Pos) : List Nat :=
    ((d.tile w.tile).colourAt (at2 w p)).map (readChannel d.cfmt) ++
      [if d.zfmt then (d.tile w.tile).depthAt (at2 w p) else 0x3F800000]
  let put (d : Draw) (w : Wave) (st : State) (p : Pos) : State :=
    (vals d w p).zipIdx.foldl (fun st x => wr st (.v (f.fn.toNat % 256 + x.2)) p (BitVec.ofNat 32 x.1)) st
  let toTargets (d : Draw) (w : Wave) (u : Ux) : List (Pos × Nat × List Byte) := if f.fn.getLsbD 8 then
      u.active.flatMap fun p =>
        (resolveStores d (d.tile w.tile) (w.pixel p.lane).1 (w.pixel p.lane).2).map fun x => (p, x.1, x.2)
    else []
  let job (op : Nat) (s : State) (u : Ux) (more : List Nat) : Job :=
    { jobOf s u op 2 e with args := (jobOf s u op 2 e).args ++ more }
  let place (s : State) (u : Ux) (op : Nat) (k : Nat) (d : Draw) (w : Wave) (x : ELoc) : Prop :=
    u.active ≠ [] ∧ waveOf s u.gid = some (k, d, w) ∧ engLoc s u.gid ((jobOf s u op 2 e).addr 0) = some x
  let of (k : Nat) (w : Wave) : List Nat := [k, w.tile, w.seq, w.first]
  let entry (x : Pos × Site × List Byte) : StoreEntry := { loc := x.2.1.loc, bytes := x.2.2 }
  let store (d : Draw) (x : ELoc) : Plan := { writes := [(x, d.recordBytes)], parts := [(none, some x, d.recordBytes)] }
  let load (d : Draw) (x : ELoc) : Plan := { reads := [(x, d.recordBytes)], parts := [(some x, none, d.recordBytes)] }
  let restores (s : State) (u : Ux) (d : Draw) (x : ELoc) : Prop :=
    paid s u (load d x) = true ∧ (load d x).bad s = none ∧ unitHeld s u = false ∧ opens 0 (drainUnit s u) u (load d x)
  let slotFree (s : State) (u : Ux) (x : ELoc) : Prop :=
    (memHeld (drainUnit s u) && rangeFar (drainUnit s u) u.gid (false, x, 64)) = false
  (∀ k d w, Commits (.ztest h f) h (fun _ => shapeZtest f) (fun s u => turn s u k d w) fun s u =>
    let d1 := if d.zfmt && f.fn.getLsbD 3 then
        (u.active.filter (pass d w s u)).foldl (fun x p => commitPixel x w p.lane fun t px => t.setDepth px (seen s u p)) d
      else d
    { st := writeLanes (s.setDraw k d1) u f.dst 32 f.cw fun p =>
        (b2n (pass d w s u p), mkFlags false (!pass d w s u p) false false) }) ∧
  (∀ k d w, Commits (.blend h f) h (fun _ => shapeBlend f) (fun s u => turn s u k d w) fun s u =>
    { st := s.setDraw k (u.active.foldl (blend s u d w) d) }) ∧
  (∀ k d w l, Commits (.tres h f) h (fun _ => shapeTres f)
    (fun s u => turn s u k d w ∧ tresStores u s (toTargets d w u) = .ok l ∧ ∀ x ∈ l, x.2.1.mt = 0) fun s u =>
    { st := l.foldl (fun st x => pushStore st x.1.gid (entry x)) (u.active.foldl (put d w) s) }) ∧
  (∀ k d w l, Commits (.tres h f) h (fun _ => shapeTres f)
    (fun s u => turn s u k d w ∧ tresStores u s (toTargets d w u) = .ok l ∧ (∃ x ∈ l, x.2.1.mt ≠ 0) ∧ unitHeld s u = false ∧
      writesHeld (drainUnit s u) (l.map fun x => (x.1, x.2.1)) = false) fun s u =>
    { st := l.foldl (fun st x => if x.2.1.mt = 0 then performStore st x.1.gid (entry x) else performBypass st x.1.gid (entry x))
        (u.active.foldl (put d w) (drainUnit s u)) }) ∧
  (∀ k d w l, Parks (.tres h f) h (fun _ => shapeTres f)
    (fun s u => turn s u k d w ∧ tresStores u s (toTargets d w u) = .ok l ∧ (∃ x ∈ l, x.2.1.mt ≠ 0) ∧ (unitHeld s u = true ∨
      writesHeld (drainUnit s u) (l.map fun x => (x.1, x.2.1)) = true)) fun _ _ => .slot) ∧
  (∀ k d w x, Commits (.tlck h e) h (fun _ => shapeTlck e) (fun s u => place s u 0xED k d w x ∧ opens 0 s u (store d x))
    fun s u => opened e 0 s u (job 0xED s u (of k w)) (store d x)) ∧
  (∀ k d w x bs, Commits (.tlrst h e) h (fun _ => shapeTlrst e) (fun s u => place s u 0xEE k d w x ∧ restores s u d x ∧
      slotFree s u x ∧ headerOf (drainUnit s u) u.gid (jobOf s u 0xEE 2 e).user x = .ok bs ∧ field bs 8 8 % 2 = 1 ∧
      field bs 0 2 = w.tile % d.ntx ∧ field bs 2 2 = w.tile / d.ntx ∧ field bs 4 4 < w.seq)
    fun s u => opened e 0 (drainUnit s u) u (job 0xEE s u (of k w)) (load d x)) ∧
  (∀ k d w x t, Commits (.tlrst h e) h (fun _ => shapeTlrst e) (fun s u => place s u 0xEE k d w x ∧ restores s u d x ∧
      slotFree s u x ∧ headerOf (drainUnit s u) u.gid (jobOf s u 0xEE 2 e).user x = .error t) fun s u =>
    let o := opened e 0 (drainUnit s u) u (job 0xEE s u (of k w)) (load d x)
    { o with st := failOp o.st u.gid (s.g u.gid).seq t }) ∧
  (∀ k d w x bs c, Traps (.tlrst h e) h (fun _ => shapeTlrst e) (fun s u => place s u 0xEE k d w x ∧ restores s u d x ∧
      slotFree s u x ∧ headerOf (drainUnit s u) u.gid (jobOf s u 0xEE 2 e).user x = .ok bs ∧
      c = (if field bs 8 8 % 2 = 0 then drawCause 11 else engCause 0 6) ∧
      ¬ (field bs 8 8 % 2 = 1 ∧ field bs 0 2 = w.tile % d.ntx ∧ field bs 2 2 = w.tile / d.ntx ∧ field bs 4 4 < w.seq))
    fun _ _ => { cause := c }) ∧
  (∀ k d w x, Parks (.tlrst h e) h (fun _ => shapeTlrst e) (fun s u => place s u 0xEE k d w x ∧ paid s u (load d x) = true ∧
      (load d x).bad s = none ∧ (unitHeld s u = true ∨ ¬ slotFree s u x)) fun _ _ => .slot) ∧
  (∀ i sh, (i = .tlck h e ∧ sh = shapeTlck e) ∨ (i = .tlrst h e ∧ sh = shapeTlrst e) →
    Traps i h (fun _ => sh) (fun s u => u.active ≠ [] ∧ waveOf s u.gid = none) (fun _ _ => { cause := engCause 0 6 })) ∧
  ∀ i sh, (i = .ztest h f ∧ sh = shapeZtest f) ∨ (i = .blend h f ∧ sh = shapeBlend f) ∨ (i = .tres h f ∧ sh = shapeTres f) →
    Traps i h (fun _ => sh) (fun s u => u.active ≠ [] ∧ waveOf s u.gid = none) (fun _ _ => { cause := drawCause 10 }) ∧
    Parks i h (fun _ => sh) (fun s u => u.active ≠ [] ∧ ∃ k d w, waveOf s u.gid = some (k, d, w) ∧ mustWait s k d w = true)
      fun _ u => .wave u.gid

/-- R154, R492, R493: the splat commands, and the building of a structure: its opening with the lowest free handle of the die,
each addition of records as it issues, and its closing. -/
def Sys2Proof.Claims.SplatsAndBuilds : Prop := ∀ (h : Hdr) (f : FmtE),
  let die (s : State) (u : Ux) : Nat := buildDie s (s.g u.gid).bid
  let grows (i : Instr) (sh : Shape) (op : Nat) (plan : State → Nat → Job → Except Nat Plan) (how : Job → Build → Build) : Prop :=
    ∀ p, Commits i h (fun _ => sh)
      (fun s u => u.active ≠ [] ∧ plan (drainUnit s u) u.gid (jobOf s u op 4 f) = .ok p ∧ opens 0 s u p) fun s u =>
      let j := jobOf s u op 4 f
      { opened f 0 s u j p with st := modBuild (opened f 0 s u j p).st (die s u) (j.w 0) (how j) }
  Engine (.splat h f) h f (shapeSplat f) 0 0xE5 7 planSplat ∧ Engine (.splatc h f) h f (shapeSplatc f) 0 0xE6 7 planSplat ∧
  (∀ k, Commits (.bldfOpen h f) h (fun _ => shapeBldfOpen f) (fun s u => u.active ≠ [] ∧ freeHandle s (die s u) = some k) fun s u =>
    { st := wr { s with builds := s.builds ++ [{ die := die s u, handle := k, recs := [], count := 0, closing := false }] } f.desc
        ⟨0, u.gid, 0⟩ (BitVec.ofNat 32 k) }) ∧
  Parks (.bldfOpen h f) h (fun _ => shapeBldfOpen f) (fun s u => u.active ≠ [] ∧ freeHandle s (die s u) = none)
    (fun s u => .handle (die s u)) ∧
  grows (.bldfAdd h f) (shapeBldfAdd f) 0xEB planBldf (fun j b => { b with count := b.count + j.w 1 }) ∧
  grows (.bldc h f) (shapeBldc f) 0xEC planBldc fun _ b => { b with closing := true }

/-- R157, R158, R494 to R496: TRACE begins one ray for each active lane over a structure that memory holds, RQRY reads the
candidate at hand, HIT decides it and ends the hit program, and SPAWN pushes a child of fewer than eight. -/
def Sys2Proof.Claims.RaysAndHits : Prop := ∀ (h : Hdr) (f : FmtA),
  let s0 (s : State) (u : Ux) : State := drainUnit s u
  let l (s : State) (u : Ux) : Launch := (s0 s u).launchOf ((s0 s u).g u.gid).bid
  let user (s : State) (u : Ux) : Bool := !((s0 s u).g u.gid).sys
  let sa (s : State) (u : Ux) : Nat := (rdU64 (s0 s u) u f.sc.reg).toNat
  let table (s : State) (u : Ux) : Nat := (rdU64 (s0 s u) u (regPlus f.sc.reg 2)).toNat
  let recordHeld (s : State) (u : Ux) : Bool := vHeld (s0 s u) ((s0 s u).g u.gid).core (l s u).ctx
    { write := false, fetch := false, user := user s u } (sa s u) 64
  let root (s : State) (u : Ux) : Nat := (vAddr (s0 s u) (l s u).ctx sysRead (sa s u)).getD 0
  let words (s : State) (p : Pos) : List Nat := match candRay s p with
    | some (_, r, c) => hitWords c 4 r.gen
    | none => List.replicate 8 0
  (∀ recs, Commits (.trace h f) h (fun _ => shapeTrace f) (fun s u => u.active ≠ [] ∧ unitHeld s u = false ∧ table s u % 64 = 0 ∧
      readFail (s0 s u) (l s u).ctx (user s u) (sa s u) 64 = none ∧ structAt (s0 s u) (root s u) = some recs ∧
      field ((vRead (s0 s u) (l s u).ctx sysRead (sa s u) 64).getD []) 48 4 = 1 ∧
      readFail (s0 s u) (l s u).ctx (user s u) (sa s u) (structBytes recs.length) = none ∧
      recordHeld s u = false ∧ stackBytes (s0 s u) u.gid ≤ (l s u).tileb) fun s u =>
    { st := u.active.foldl (startRay f (root s u) (table s u) u) (s0 s u) }) ∧
  Parks (.trace h f) h (fun _ => shapeTrace f) (fun s u => u.active ≠ [] ∧ (unitHeld s u = true ∨ table s u % 64 = 0 ∧
      readFail (s0 s u) (l s u).ctx (user s u) (sa s u) 64 = none ∧ recordHeld s u = true)) (fun _ _ => .slot) ∧
  Commits (.rqry h f) h (fun _ => shapeRqry f) (fun _ _ => True) (fun s u =>
    { st := s, long := u.active.flatMap fun p => wordCells f.dst p (words s p) }) ∧
  Commits (.hit h f) h (fun _ => shapeHit f) (fun s u => ∀ p ∈ u.active, candRay s p ≠ none) (fun s u =>
    { st := u.active.foldl (decideHit f.fn.toNat) s, exits := u.active, ends := true }) ∧
  Traps (.hit h f) h (fun _ => shapeHit f) (fun s u => ∃ p ∈ u.active, candRay s p = none) (fun _ _ => { cause := drawCause 9 }) ∧
  Commits (.spawn h f) h (fun _ => shapeSpawn f)
    (fun s u => ∀ p ∈ u.active, ∃ hg r c, candRay s p = some (hg, r, c) ∧ r.pushed < 8) fun s u =>
    { st := u.active.foldl (pushChild f u) s }

/-- R154, R157, R158, R492 to R496: splats, builds, rays and hits.
Choices of the model: logs 37, 68, 71, 77, 80, 160. -/
def Obligations.RaysSplatsAndBuilds : Prop :=
  SplatsAndBuilds ∧ RaysAndHits

/-! ### System instructions: row 0xF -/

/-- R198, R199, R396, R395, R401, R402: the queries. RDSR and WRSR reach every system register, WAKE, DIEQ, LOGR, PERF and BUD
answer in every active lane or once.
Choices of the model: log 21. -/
def Obligations.SystemRegistersAndQueries : Prop := ∀ (h : Hdr) (f : FmtI),
  let k := f.imm.toNat
  let tell (i : Instr) (sh : Shape) (n : Nat) (x : State → Ux → Nat) : Prop :=
    Commits i h (fun _ => sh) (fun _ u => u.active ≠ []) fun s u => { st := writeLanes s u f.dst (32 * n) 0 fun _ => (x s u, 0) }
  let g (s : State) (u : Ux) : Group := s.g u.gid
  let l (s : State) (u : Ux) : Launch := s.launchOf (g s u).bid
  tell (.rdsr h f) (shapeRdsr f) (sysRegN k) (fun s u => readSysReg s u.gid k) ∧
  Commits (.wrsr h f) h (fun _ => shapeWrsr f) (fun _ u => u.active ≠ []) (fun s u =>
    let x := if sysRegN k == 2 then (rdU64 s u f.sa.reg).toNat else (rdU s u f.sa.reg).toNat
    { st := writeSysReg s u.gid k x }) ∧
  Commits (.wake h f) h (fun _ => shapeWake f) (fun _ u => u.active ≠ []) (fun s u =>
    { st := writeLanes (s.modBc (g s u).bid (g s u).bcore fun c => { c with wake := max c.wake (k % 32) }) u f.dst (32 * 1) 0
        fun _ => (awakeFree s (g s u).core, 0) }) ∧
  tell (.dieq h f) (shapeDieq f) 2 (fun s _ => if k == 8 then onlineMask s else dstatWord (s.die k)) ∧
  tell (.logr h f) (shapeLogr f) 1 (fun s u => FMap.get 0 (s.core (g s u).core).errs k) ∧
  tell (.perf h f) (shapePerf f) (if k == 0 || k == 5 then 2 else 1) (fun s u => perfValue s u k) ∧
  (k = 0 → tell (.bud h f) (shapeBud f) 1 fun s u =>
    if (l s u).cls != 0 then 2 ^ 32 - 1 else (l s u).qmax - quiresNow (g s u) ((g s u).nar u.slices)) ∧
  (k ≠ 0 → tell (.bud h f) (shapeBud f) 2 fun s u =>
    if (l s u).cls != 0 then 2 ^ 64 - 1 else (l s u).abytes - (s.b (g s u).bid).abytes)

/-- R198, R328, R197: the trap registers read back as written: TVEC and TFAREA at a multiple of 64, TFRAME at the group's place
of the frame area, FTRAP and the scratch registers whole; FST clears the bits that are written as 1; MODE reads the mode.
Choices of the model: log 23. -/
def Obligations.TrapRegistersReadBack : Prop := ∀ (s : State) (gid v : Nat), s.group gid ≠ none →
  FMap.wf Core.reset s.cores = true → FMap.wf 0 (s.g gid).tscr = true →
  (v < 2 ^ 57 → readSysReg (writeSysReg s gid 0x100 v) gid 0x100 = v / 64 * 64) ∧
  (v < 2 ^ 64 → readSysReg (writeSysReg s gid 0x101 v) gid 0x101 = v / 64 * 64 ∧
    readSysReg (writeSysReg s gid 0x101 v) gid 0x102 = (v / 64 * 64 + (s.g gid).slot * 0x480) % 2 ^ 64) ∧
  (v < 64 → readSysReg (writeSysReg s gid 0x103 v) gid 0x103 = v ∧
    (writeSysReg s gid 3 v).g gid = { s.g gid with fst := (s.g gid).fst &&& ~~~ BitVec.ofNat 6 v }) ∧
  (∀ k, 0x108 ≤ k → k ≤ 0x10F → v < 2 ^ 64 → readSysReg (writeSysReg s gid k v) gid k = v) ∧
  readSysReg s gid 4 = b2n (s.g gid).sys

/-- R397, R398: SAVE writes the group's record, REST reads the registers and status bits back, and CTXSW exchanges the group's
state with a record of state 0 or 6, once no producer of the group is pending, no slot holds an older access of it or a line of the
record, no other transaction a line that it writes, and the record's pages may be reached; before that they wait (R50, R54, R307). -/
def Obligations.GroupRecords : Prop := ∀ (h : Hdr) (f : FmtI),
  let s0 (s : State) (u : Ux) : State := drainUnit s u
  let g (s : State) (u : Ux) : Group := (s0 s u).g u.gid
  let l (s : State) (u : Ux) : Launch := (s0 s u).launchOf (g s u).bid
  let va (s : State) (u : Ux) : Nat := (rdU64 s u f.sa.reg).toNat
  let ready (s : State) (u : Ux) : Prop := u.active ≠ [] ∧ producersWait s u = none ∧ unitHeld s u = false
  let record (s : State) (u : Ux) (head : RecordHead) : List Byte :=
    recordBytes (l s u) (g s u) (quiresNow (g s u) ((g s u).nar u.slices)) head
  let read (s : State) (u : Ux) : Option (List Byte) :=
    vRead (s0 s u) (l s u).ctx (ownWant (s0 s u) u.gid false) (va s u) (recordSize (l s u))
  let write (s : State) (u : Ux) (bs : List Byte) : Option State :=
    vWrite (s0 s u) (l s u).ctx (ownWant (s0 s u) u.gid true) (va s u) bs (g s u).bid (g s u).bcore
  let held (s : State) (u : Ux) (w : Bool) : Bool :=
    vHeld (s0 s u) (g s u).core (l s u).ctx (ownWant (s0 s u) u.gid w) (va s u) (recordSize (l s u))
  let passes_ (s : State) (u : Ux) (w : Bool) : Prop := recordFault (s0 s u) u.gid w (va s u) (recordSize (l s u)) = none
  let reach_ (s : State) (u : Ux) (w : Bool) : Prop := passes_ s u w ∧ held s u w = false
  (∀ t, Commits (.save h f) h (fun _ => shapeSave f) (fun s u => ready s u ∧ saveEcc (g s u) = none ∧ reach_ s u true ∧
      write s u (record s u (saveHead u false false)) = some t) fun _ _ => { st := t }) ∧
  (∀ bs, Commits (.rest h f) h (fun _ => shapeRest f) (fun s u => ready s u ∧ reach_ s u false ∧ read s u = some bs) fun s u =>
    { st := (s0 s u).modGroup u.gid fun g => restoreRegs (l s u) g bs }) ∧
  (∀ bs t, leVal (bs.take 1) % 8 = 0 ∨ leVal (bs.take 1) % 8 = 6 → Commits (.ctxsw h f) h (fun _ => shapeCtxsw f)
    (fun s u => ready s u ∧ saveEcc (g s u) = none ∧ reach_ s u true ∧ read s u = some bs ∧
      write s u (record s u { saveHead u true true with wdog := (g s u).wdog }) = some t) fun s u =>
    { st := t.modGroup u.gid fun g => switchTo (l s u) g bs, jumped := true }) ∧
  (∀ bs, leVal (bs.take 1) % 8 ≠ 0 → leVal (bs.take 1) % 8 ≠ 6 → Traps (.ctxsw h f) h (fun _ => shapeCtxsw f)
    (fun s u => ready s u ∧ saveEcc (g s u) = none ∧ reach_ s u true ∧ read s u = some bs) fun s u =>
    { cause := memCause 1 3, faddr := va s u }) ∧
  ∀ i sh wr, (i = .save h f ∧ sh = shapeSave f ∧ wr = true) ∨ (i = .rest h f ∧ sh = shapeRest f ∧ wr = false) ∨
      (i = .ctxsw h f ∧ sh = shapeCtxsw f ∧ wr = true) →
    Parks i h (fun _ => sh) (fun s u => u.active ≠ [] ∧ producersWait s u = none ∧ (unitHeld s u = true ∨
      (wr = true → saveEcc (g s u) = none) ∧ passes_ s u wr ∧ held s u wr = true)) (fun _ _ => .slot) ∧
    ∀ w, Parks i h (fun _ => sh) (fun s u => u.active ≠ [] ∧ producersWait s u = some (.wait w)) fun _ _ => w

/-- R399, R400, R403, R404: the TLB and cache maintenance, the halt, the debug operations and the data breakpoint. Where a slot
holds an older access, or a write-back of the flush, or a line of it has a transaction at hand, the instruction waits (R50, R307).
Choices of the model: log 10. -/
def Obligations.MaintenanceAndDebug : Prop := ∀ (h : Hdr) (f : FmtI),
  let kind := f.imm.toNat % 4
  let s0 (s : State) (u : Ux) : State := drainUnit s u
  let va (s : State) (u : Ux) : Nat := (rdU64 s u f.sa.reg).toNat
  let lg := f.imm.toNat / 4
  Commits (.tlbi h f) h (fun _ => shapeTlbi f) (fun s u => u.active ≠ [] ∧ unitHeld s u = false) (fun s u =>
    { st := tlbDrop (s0 s u) kind (bits f.imm.toNat 15 8) (va s u) }) ∧
  (kind = 2 → Commits (.cflush h f) h (fun _ => shapeCflush f) (fun s u => u.active ≠ [] ∧ unitHeld s u = false ∧
      (memHeld (s0 s u) = true → ∀ e ∈ (s0 s u).dir, e.2.st ≠ 2 ∧ e.2.st ≠ 3) ∧ linesBusy (s0 s u) = false) fun s u =>
    { st := (s0 s u).dir.foldl (fun st e => st.setLine e.1 (flushLine e.2 true)) (s0 s u) }) ∧
  (kind = 3 → Commits (.cflush h f) h (fun _ => shapeCflush f) (fun s u => u.active ≠ [] ∧ unitHeld s u = false)
    fun s u => { st := s0 s u }) ∧
  (kind < 2 → ∀ x pa, x.loc = .phys pa → Commits (.cflush h f) h (fun _ => shapeCflush f) (fun s u => u.active ≠ [] ∧
      unitHeld s u = false ∧ (memHeld (s0 s u) && lineDirty (s0 s u) pa) = false ∧ ((s0 s u).line (lineOf pa)).busy = false ∧
      va s u < 2 ^ 57 ∧ reach (s0 s u) ((s0 s u).launchOf ((s0 s u).g u.gid).bid).ctx (!((s0 s u).g u.gid).sys) false 1
        (va s u) = .ok x) fun s u =>
    let s1 := cleanStashes (s0 s u) pa (kind == 1)
    { st := s1.setLine (lineOf pa) (flushLine (s1.line (lineOf pa)) (kind == 1)) }) ∧
  (∀ i sh, (i = .tlbi h f ∧ sh = shapeTlbi f) ∨ (i = .cflush h f ∧ sh = shapeCflush f) →
    Parks i h (fun _ => sh) (fun s u => u.active ≠ [] ∧ unitHeld s u = true) fun _ _ => .slot) ∧
  (kind = 2 → Parks (.cflush h f) h (fun _ => shapeCflush f) (fun s u => u.active ≠ [] ∧ linesBusy (s0 s u) = true)
    fun _ _ => .slot) ∧
  Commits (.halt h f) h (fun _ => shapeHalt f) (fun _ u => u.active ≠ []) (fun s _ => { st := s, halts := true }) ∧
  Commits (.dbg h f) h (fun _ => shapeDbg f) (fun _ u => u.active ≠ []) (fun s u =>
    let slot := (rdU s u f.sa.reg).toNat % 64
    let how (g : Group) : Group := match f.imm.toNat with
      | 0 => { g with halted := false }
      | 1 => { g with step := true }
      | _ => { g with step := false, stepDue := false }
    { st := (inSlot s (s.g u.gid).core slot).foldl (fun st x => st.modGroup x how) s }) ∧
  Commits (.brks h f) h (fun _ => shapeBrks f) (fun _ u => u.active ≠ []) fun s u =>
    let point : Brk := { kind := kind, base := va s u / 2 ^ lg * 2 ^ lg, lg := lg }
    { st := s.modGroup u.gid fun g => { g with brk := if kind == 0 then none else some point } }

/-- R340: an instruction whose guard holds in no lane advances and ends its quire as its END bit says, and has no other
effect: the engine and array commands, barrier, ring, slot, graphics and system instructions that act once for their unit
do nothing. An atomic or a reduction performs in no lane and sets no status bit; one of a sequentially consistent order still
orders the unit's stores (R290). -/
def Obligations.NoActiveLaneNoEffect : Prop := ∀ (h : Hdr) (e : FmtE) (x : FmtX) (i : FmtI) (a : FmtA) (m : FmtM),
  let none_ (l : List (Instr × Shape)) : Prop := ∀ y ∈ l, Commits y.1 h (fun _ => y.2) (fun _ u => u.active = []) fun s _ => { st := s }
  none_ [(.cpy h e, shapeCpy e), (.cpy2d h e, shapeCpy2d e), (.cpyt h e, shapeCpyt e), (.gath h e, shapeGath e),
    (.scat h e, shapeScat e), (.stsp h e, shapeStsp e), (.ldsp h e, shapeLdsp e), (.cpypl h e, shapeCpypl e),
    (.coll h e, shapeColl e), (.rdma h e, shapeRdma e), (.nsend h e, shapeNsend e), (.nrecv h e, shapeNrecv e),
    (.cfill h e, shapeCfill e), (.cinv h e, shapeCinv e), (.cabort h e, shapeCabort e)] ∧
  none_ [(.mma h x, shapeMma x), (.mmap h x, shapeMmap x), (.mmat h x, shapeMmat x), (.mmapt h x, shapeMmapt x),
    (.acz h x, shapeAcz x), (.acld h x, shapeAcld x), (.acmv h x, shapeAcmv x), (.plq h x, shapePlq x), (.mscl h x, shapeMscl x),
    (.msoft h x, shapeMsoft x), (.mepi h x, shapeMepi x), (.net h x, shapeNet x), (.netr h x, shapeNetr x), (.plcv h e, shapePlcv e),
    (.mpairBind h i, shapeMpair i), (.mpairRel h i, shapeMpair i)] ∧
  none_ [(.arv h i, shapeArv i), (.arvx h i, shapeArvx i), (.binit h i, shapeBinit i), (.mswin h i, shapeMswin i),
    (.speed h i, shapeSpeed i), (.evrec h i, shapeEvrec i), (.signal h i, shapeSignal i), (.cctl h m, shapeCctl m),
    (.stashMap h e, shapeStashMap e), (.stashUnmap h e, shapeStashUnmap e), (.rput h a, shapeRput a), (.rget h a, shapeRget a),
    (.rrel h a, shapeRrel a)] ∧
  (∀ y ∈ [(Instr.aadd h m, shapeAadd m), (.acas h m, shapeAcas m), (.radd h m, shapeRadd m)],
    Commits y.1 h (fun _ => y.2) (fun s u => u.active = [] ∧ (m.ord = 4 → unitHeld s u = false))
      fun s u => { st := if m.ord = 4 then drainUnit s u else s, fst := [(u.gid, 0)] }) ∧
  none_ [(.drawx h e, shapeDrawx e), (.emitv h a, shapeEmitv a), (.ztest h a, shapeZtest a), (.blend h a, shapeBlend a),
    (.tres h a, shapeTres a), (.tlck h e, shapeTlck e), (.tlrst h e, shapeTlrst e), (.splat h e, shapeSplat e),
    (.splatc h e, shapeSplatc e), (.bldfOpen h e, shapeBldfOpen e), (.bldfAdd h e, shapeBldfAdd e), (.bldc h e, shapeBldc e),
    (.trace h a, shapeTrace a)] ∧
  none_ [(.rdsr h i, shapeRdsr i), (.wrsr h i, shapeWrsr i), (.save h i, shapeSave i), (.rest h i, shapeRest i),
    (.ctxsw h i, shapeCtxsw i), (.tlbi h i, shapeTlbi i), (.cflush h i, shapeCflush i), (.wake h i, shapeWake i),
    (.dieq h i, shapeDieq i), (.logr h i, shapeLogr i), (.perf h i, shapePerf i), (.bud h i, shapeBud i), (.halt h i, shapeHalt i),
    (.dbg h i, shapeDbg i), (.brks h i, shapeBrks i)]

/-! ### The machine: reset, the step, encodings and invariants -/

/-- R27, R37, R40, R68, R74, R102, R152, R267: what a module reset leaves: the queue words, the die states, the rails, the
clock and reserve registers, the opacity threshold and the slice table, and no context, launch, block, group or draw. -/
def Obligations.ResetValues : Prop :=
  let s := State.reset
  (∀ n, (List.range 8).map (queueWord s n) = [0, 0x304, 0, 0, 0, 4, 0, 0]) ∧
  (∀ d, dstatWord (s.die d) = 0) ∧
  (∀ k, railWord s k = 0xC * 2 ^ 24 + 3 * 2 ^ 20 + 12 * phaseShare k) ∧
  (∀ c, (s.cluster c).ratio = 0 ∧ (s.cluster c).cls = 0 ∧ (s.cluster c).ratioNext = none ∧ (s.cluster c).c0rsv = 0) ∧
  (∀ c, (s.core c).opth = 0x3F7FBE77) ∧
  (∀ b, sliceOf s b = b % 96) ∧
  s.ctxs = [] ∧ s.launches = [] ∧ s.blocks = [] ∧ s.groups = [] ∧ s.draws = [] ∧ s.cur = none

/-- R130, R182, R185, R206, R319, R333 to R336, R403: a step of the machine with no input, no fatal error and a unit that may go
on runs the instruction that its decoder reads from the word it fetches; a narrow group of a split group that begins a quire
at a join point waits there, a word that cannot be fetched takes its fault, and a trap that is due comes before the fetch; the
watchdog's takes the count back to 0. A fault or a trap waits while a slot or a transaction holds its frame (R50, R54, R307). An input that is a device or host step runs as its instruction.
Choices of the model: log 12. -/
def Obligations.StepRunsDecoded : Prop := ∀ (s : State) (gid slices : Nat),
  let g := s.g gid
  let n := g.nar slices
  s.inbox = [] → s.cur = some (gid, slices) → s.host.fatal = none → unitRuns s gid slices = true →
  (∀ t, dueTrap s g n = some t → trapHeld s gid = true →
    step s = .next (settle (park s (soloUnit s plainHdr gid slices) .slot))) ∧
  (∀ t, dueTrap s g n = some t → trapHeld s gid = false →
    step s = .next (settle (trapBefore (s.modGroup gid fun x =>
      { x with eccDue := none, wdog := if t.cause = 0x122 then 0 else g.wdog }) gid slices t))) ∧
  (dueTrap s g n = none →
    (∀ w join s1, fetchWord s gid (g.issuePc n) = .word w join s1 → joinWaits g n join = false →
      step s = settled (exec (decodeWord (seenWord g w)) s1)) ∧
    (∀ w s1, fetchWord s gid (g.issuePc n) = .word w true s1 → joinWaits g n true = true →
      step s = .next (settle { (s1.modGroup gid fun g => g.modNar slices fun n => { n with st := .joinWait }) with cur := none })) ∧
    (∀ c fa s1, fetchWord s gid (g.issuePc n) = .fault c fa s1 → trapHeld s gid = true →
      step s = .next (settle (park s (soloUnit s plainHdr gid slices) .slot))) ∧
    ∀ c fa s1, fetchWord s gid (g.issuePc n) = .fault c fa s1 → trapHeld s gid = false →
      step s = .next (settle (takeTrap s1 (soloUnit s1 plainHdr gid slices) plainHdr false { cause := c, faddr := fa }))) ∧
  ∀ i rest, step { s with inbox := .event i :: rest } =
    if i.coded then .next { s with inbox := rest } else settled (exec i { s with inbox := rest })

/-- R339 to R355: words that the spec's examples write out decode to the instructions that they stand for: FFMA with a guard
and an EP and an LR source, IADDC, EXIT, LRED and FENCE at set scope, LD, DREFL, MMA, STSP, LDSP, NET, BLEND, TRACE and SPAWN. -/
def Obligations.DecodedWords : Prop :=
  let src (o : Opnd) : Src := { ep := false, lr := false, reg := o }
  let none_ : Src := src .zr
  let plain : Hdr := { scope := .lane, gc := 0, cond := .al, fin := false }
  let a (dst : Opnd) (cw : BitVec 3) (x y z : Opnd) (fn : BitVec 30) : FmtA :=
    { dst := dst, cw := cw, sa := src x, sb := src y, sc := src z, fn := fn }
  let e (desc : Opnd) (bar : BitVec 6) (ben : Bool) (fn : BitVec 13) : FmtE :=
    { desc := desc, bar := bar, ben := ben, evq := false, sa := none_, sb := none_, imm := 0, fn := fn }
  decodeWord 0x431200910080_0E0240000000 = .ffma { plain with gc := 1, cond := .ne }
    { dst := .v 4, cw := 4, sa := { ep := false, lr := true, reg := .v 2 }, sb := src (.v 3)
      sc := { ep := true, lr := false, reg := .v 9 }, fn := 0 } ∧
  decodeWord 0x1C0000F400C0_148800000001 = .iaddc plain (a (.v 7) 5 (.v 3) (.v 5) (.c 0) 1) ∧
  decodeWord 0x0700FFE0FFCF_FCFFC0000000 = .exit { plain with fin := true } (a .zr 0 .zr .zr .zr 0) ∧
  decodeWord 0x758022A0984F_FCFFC0000000 = .lred { plain with scope := .set } (a (.s 21) 0 (.imm 1) .zr .zr 0) ∧
  decodeWord 0xB0807FE8FFCF_FC0000008C00 = .fence { plain with scope := .set }
    { data := .zr, ord := 2, base := none_, index := none_, off := 0, space := 1, size := 0, mscope := 6, cache := 0, scl := 0, fn := 0 } ∧
  decodeWord 0x90000064008F_FC000000AC00 = .ld plain
    { data := .v 3, ord := 1, base := src (.v 2), index := none_, off := 0, space := 1, size := 2, mscope := 6, cache := 0, scl := 0, fn := 0 } ∧
  decodeWord 0x850042408408_44FFC0000000 = .drefl plain (a (.d 2) 0 (.d 0) (.d 1) .zr 0) ∧
  decodeWord 0xD00002890410_414418000000 = .mma plain
    { acc := 0, sla := 1, slb := 2, pa := 2, pb := 4, abase := src (.s 4), bbase := src (.s 5), shape := src (.s 6)
      tri := 0, mask := 0, fn := 0 } ∧
  decodeWord 0xC5002101C7FE_7FE000000001 = .stsp plain (e (.s 8) 3 true 1) ∧
  decodeWord 0xC600220007FE_7FE000000001 = .ldsp plain (e (.s 16) 0 false 1) ∧
  decodeWord 0xD80002800410_FFC400000000 = .net plain
    { acc := 0, sla := 1, slb := 2, pa := 0, pb := 0, abase := src (.s 4), bbase := none_, shape := src (.s 0)
      tri := 0, mask := 0, fn := 0 } ∧
  decodeWord 0xE2007FE0FFCF_FCFFC0000104 = .blend plain (a .zr 0 .zr .zr .zr 0x104) ∧
  decodeWord 0xE70004000008_404100000000 = .trace plain (a (.v 32) 0 (.v 0) (.d 0) (.s 4) 0) ∧
  decodeWord 0xE8007FE00308_5CFFC0000000 = .spawn plain (a .zr 0 (.v 12) (.d 7) .zr 0)

/-- R338 to R356: the decoder reads every well-formed encoded instruction back from its word, with every operand, modifier and
immediate. -/
def Obligations.DecodeReadsEncoding : Prop := ∀ (i : Instr) (w : Word96),
  i.wf = true → encodeWord i = some w → decodeWord w = i

namespace Sys2Proof.Claims

/-- What every step leaves: after a fatal error no unit holds the issue slot (R82), and a fragment wave whose group holds no
thread any more has ended (R148). -/
def Settled (s : State) : Prop :=
  (s.host.fatal.isSome = true → s.cur = none) ∧
  ∀ k d, s.draw k = some d → ∀ w ∈ d.waves, (s.g w.gid).alive = 0 → w.ended = true

end Sys2Proof.Claims

/-- R82, R148: every step keeps the invariant `Settled`.
Choices of the model: log 111. -/
def Obligations.StepKeepsSettled : Prop := ∀ s t, Settled s → step s = .next t → Settled t

/-- The state after reset meets the invariant `Settled`. -/
def Obligations.ResetSettled : Prop := Settled State.reset

/-- R15, R33: bytes written at a physical address outside the register window read back, every other byte reads as before, and
memory stays in its canonical form, which reset gives it. -/
def Obligations.MemoryHoldsWrites : Prop :=
  Memory.wf State.reset = true ∧
  ∀ (s : State) (pa : Nat) (bs : List Byte) (b c : Nat), Memory.wf s = true → isWindow pa = false →
    Memory.wf (writePhys s pa bs b c) = true ∧
    ∀ a, physByte (writePhys s pa bs b c) a =
      if isWindow a = false ∧ pa ≤ a ∧ a < pa + bs.length then bs.getD (a - pa) 0 else physByte s a

/-! ### Exceptions -/

namespace Sys2Proof.Claims

/-- R315, with TVEC not 0 in user mode, no slot or transaction that holds the frame, and the frame written: the group holds its PCs and narrow groups aside, enters system
mode and runs from TVEC with one narrow group of all its threads and zero temporaries; its registers stay, and a quire that the instruction
began counts (R108). The groups that a
wide fault suspends wait for it. -/
def HandlerEntry : Prop := ∀ (s s2 : State) (u : Ux) (h : Hdr) (once : Bool) (t : Trap),
  let s0 := drainAll s u.gid
  let g := s0.g u.gid
  let g2 := s2.g u.gid
  let tvec := (s0.core g.core).tvec
  trapHeld s u.gid = false → t.cause / 32 ≠ 11 → g.sys = false → tvec ≠ 0 → (s2.group u.gid).isSome →
  vWrite s0 (s0.launchOf g.bid).ctx sysWrite (frameVa s0 g) (frameBytes g (g.nar u.slices) u h once t) g.bid g.bcore = some s2 →
  let t1 := takeTrap s u h once t
  let g1 := t1.g u.gid
  let begun := quireBegun (s2.launchOf g2.bid) u.slices t.cause g2
  g1.sys = true ∧ g1.quires = begun.quires ∧ g1.narrows = [Narrow.fresh 255] ∧ (∀ k, k < 32 → g2.alive.getLsbD k = true → g1.pc k = tvec.toNat) ∧
  (∃ x, g1.held = some x ∧ x.pcs = g2.pcs ∧ x.narrows = begun.narrows ∧ x.trap = t ∧ x.wide = once ∧ x.scope = h.scope) ∧
  g1.t = [] ∧ g1.v = g2.v ∧ g1.s = g2.s ∧ g1.c = g2.c ∧ g1.d = g2.d ∧ g1.tscr = g2.tscr ∧ g1.alive = g2.alive ∧ g1.fst = g2.fst ∧
  t1.mem = s2.mem ∧ t1.cur = none ∧
  ∀ m ∈ suspendedBy s2 u.gid once h.scope, (t1.group m).isSome = (s2.group m).isSome ∧
    ((s2.group m).isSome = true → u.gid ∈ (t1.g m).susp)

/-- R314: the frame is 1,152 bytes long. Its read-only word holds the cause, the index in the quire and RESUME; the fields that
a handler may write read back as the PC, a pointer of a folio and a slot, SKIP 0 and the lanes performed. -/
def FrameReadsBack : Prop := ∀ (g : Group) (n : Narrow) (u : Ux) (h : Hdr) (wide : Bool) (t : Trap),
  u.pc < 2 ^ 57 → u.pc % 64 < 8 → n.idx < 32 → t.cause < 2 ^ 9 → t.done < 2 ^ 32 →
  let bs := frameBytes g n u h wide t
  let w2 := leVal ((bs.drop 16).take 8)
  bs.length = 1152 ∧ bits w2 8 0 = t.cause ∧ bits w2 14 10 = n.idx ∧
    w2.testBit 18 = !(t.cause == 0x120 || t.cause == 0x121 || t.cause / 32 == 11 || (24 ≤ t.cause && t.cause ≤ 26)) ∧
    (readFrame bs).pc = u.pc ∧ (readFrame bs).skip = false ∧ (readFrame bs).done = t.done

/-- R50, R54, R307: while the group's older stores or the lines of its frame are held, the exception waits: the unit parks at its
instruction, with the lanes that have performed kept out when it reissues. -/
def HandlerWaits : Prop := ∀ (s : State) (u : Ux) (h : Hdr) (once : Bool) (t : Trap), trapHeld s u.gid = true →
  let t1 := takeTrap s u h once t
  t1.cur = none ∧ t1.mem = s.mem ∧ t1.host = s.host ∧ (t.done = 0 → t1 = park s u .slot) ∧
  (t.done ≠ 0 → (s.group u.gid).isSome = true → (t1.g u.gid).replay = some { slices := u.slices, done := t.done })

end Sys2Proof.Claims

/-- R50, R54, R314, R315: taking an exception with a handler, the frame it leaves, and its wait. -/
def Obligations.TrapEntry : Prop := HandlerEntry ∧ FrameReadsBack ∧ HandlerWaits

/-- R315, R331: with TVEC = 0 the fault is unhandled: the launch is marked FAULTED with its cause, every group of it stops, and
the fault is listed. A fault in system mode, or a frame that cannot be written, is the double fault 11.9, with its event, and that of
R33 before it where the frame lies in a dark stack; the frames of the launch are kept for the dump (R83). -/
def Obligations.TrapWithoutHandler : Prop := ∀ (s : State) (u : Ux) (h : Hdr) (once : Bool) (t : Trap),
  let s0 := drainAll s u.gid
  let g := s0.g u.gid
  let lid := (s0.b g.bid).lid
  let stops (a b : State) (cause faddr : Nat) : Prop := ∀ l, a.launch lid = some l → l.draw = none →
    (∃ l', b.launch lid = some l' ∧ l'.faulted = true ∧ l'.stopped = true ∧ (l.faulted = false → l'.cause = cause ∧ l'.faddr = faddr)) ∧
    (∀ k g', b.group k = some g' → (b.b g'.bid).lid = lid → g'.alive = 0 ∧ ∀ n ∈ g'.narrows, n.st = .exited) ∧
    b.host.faults = a.host.faults ++ [{ cause := cause, core := some g.core, q := l.q, tag := l.tag, lid := lid }]
  let dark : Option Nat := darkIn s0 (s0.launchOf g.bid).ctx sysWrite (frameVa s0 g) 1152
  trapHeld s u.gid = false → t.cause / 32 ≠ 11 →
  (g.sys = false → (s0.core g.core).tvec = 0 → stops s0 (takeTrap s u h once t) t.cause t.faddr) ∧
  ((g.sys = true ∨ (s0.core g.core).tvec ≠ 0 ∧
      vWrite s0 (s0.launchOf g.bid).ctx sysWrite (frameVa s0 g) (frameBytes g (g.nar u.slices) u h once t) g.bid g.bcore = none) →
    stops s0 (takeTrap s u h once t) 0x169 0 ∧
    (takeTrap s u h once t).host.sent.length = s0.host.sent.length + (if g.sys = false ∧ dark.isSome = true then 2 else 1) ∧
    (takeTrap s u h once t).host.frames = s0.host.frames ++ launchFrames
      (if g.sys = true then s0 else checkDark s0 (s0.launchOf g.bid).ctx sysWrite (frameVa s0 g) 1152) lid)

/-- R50, R108, R176 to R180, R313, R356, R312: the checks of an encoded instruction in their order: the scope (0.4), the set
(0.5), the role (0.3), the first bad field, the mode (10.0), the quire budget (9.0) at the quire after QMAX alone, the rendezvous (5.0 to
5.2), and then, for the unit that executes, the async-byte budget (9.1) and its registers. A member that arrives before the
last one waits, and while a slot is open so does an arrival, and a result, that crosses a die edge.
Choices of the model: logs 40, 121. -/
def Obligations.ChecksInOrder : Prop := ∀ (h : Hdr) (sh : Shape) (s : State) (body : Ux → State → Res) (gid slices : Nat),
  let g := s.g gid
  let u := soloUnit s h gid slices
  let trap (c : Nat) : Prop := issue h sh s body = .next (takeTrap s u h false { cause := c })
  let scopeOk := h.scope ∈ sh.scopes
  let setOk := h.scope = .set → g.set ≠ none
  let roleOk := g.role ∈ sh.roles
  let modeOk := (sh.sys = true → g.sys = true) ∧ (sh.barred = true → g.sys = false)
  let admitted := scopeOk ∧ setOk ∧ roleOk ∧ sh.fieldCause = none ∧ modeOk
  let elsewhere (r : Rendezvous) : Prop := r.pc ≠ u.pc
  let here := allArrived s g.bid u.pc (wideMembers s gid h.scope sh.perCore) (arrivals s u h sh)
  s.cur = some (gid, slices) →
  (¬ scopeOk → trap 4) ∧
  (scopeOk → ¬ setOk → trap 5) ∧
  (scopeOk → setOk → ¬ roleOk → trap 3) ∧
  (scopeOk → setOk → roleOk → ∀ c, sh.fieldCause = some c → trap c) ∧
  (scopeOk → setOk → roleOk → sh.fieldCause = none → ¬ modeOk → trap 0x140) ∧
  (admitted → (s.launchOf g.bid).cls = 0 → (g.nar slices).idx = 0 → (g.nar slices).begun = false →
    g.quires = (s.launchOf g.bid).qmax →
    issue h sh s body = .next (takeTrap s u h false { cause := 0x120, info := g.quires + 1 })) ∧
  (admitted → budgetTrap (s.launchOf g.bid) g (g.nar slices) = none → h.scope ≠ .lane →
    (∀ a r b, openRvs s gid h.scope = a ++ r :: b → (∀ x ∈ a, ¬ elsewhere x) → elsewhere r →
      issue h sh s body = .next (takeTrap s u h false
        { cause := 160 + (if h.scope = .set then 1 else if h.scope = .block then 2 else 0), info := r.pc })) ∧
    ((∀ x ∈ openRvs s gid h.scope, ¬ elsewhere x) →
      (edgeHeld s gid h sh = true → acrossEdge s gid = true → issue h sh s body = .next (park s u .slot)) ∧
      (¬ (edgeHeld s gid h sh = true ∧ acrossEdge s gid = true) → here = false →
        issue h sh s body = .next (arriveParked s u h sh .rendezvous)) ∧
      (edgeHeld s gid h sh = true → acrossEdge s gid = false → here = true →
        issue h sh s body = .next (arriveParked s u h sh .slot)))) ∧
  ∀ s1 u1, executing s h sh = some (s1, u1) →
    (∀ st, regStop s1 u1 sh = some st → (isBudget (body u1 s1) = false ∨ ∀ t, st ≠ .trap t) →
      issue h sh s body = .next (stopUnit s1 u1 h (h.scope != .lane) st)) ∧
    ∀ t, body u1 s1 = .error (.trap t) → t.cause = 0x121 → (sh.srcs.flatMap fun x => emptyCells s1 x u1.active) = [] →
      (∀ w, regStop s1 u1 sh ≠ some (.wait w)) → (∀ x s2, regStop s1 u1 sh ≠ some (.partly x s2)) →
      issue h sh s body = .next (takeTrap s1 u1 h (h.scope != .lane) t)

/-- R193, R194, R202, R203, R312, R319: what the registers of an instruction stop it with: a register beyond the declaration
(1.4 to 1.6), a pair that starts at an odd number (1.8 to 1.10), an uncorrectable error of its guard or a source (1.12 to
1.15), an empty source under the trapping policy (1.0 to 1.2), and otherwise a wait for the empty cells of its sources and
destinations.
Choices of the model: log 120. -/
def Obligations.RegisterStops : Prop := ∀ (s : State) (u : Ux) (sh : Shape) (p : Pos) (rest : List Pos),
  let l := s.launchOf (s.g u.gid).bid
  let named := sh.dsts.map (dstFault l) ++ sh.srcs.map (useFault l)
  let here := guardUse u ++ sh.srcs.filter fun r => !r.away
  let cells := (here ++ sh.dsts).flatMap fun r => emptyCells s r u.active
  u.active = p :: rest →
  (∀ n k, l.vregs < n + k → useFault l { o := .v n, n := k } = some (36, .v n)) ∧
  (∀ n, n + 2 ≤ l.vregs → n % 2 = 1 → useFault l { o := .v n, n := 2 } = some (40, .v n)) ∧
  (∀ n k, l.sregs < n + k → useFault l { o := .s n, n := k } = some (37, .s n)) ∧
  (∀ n, l.dregs < n + 1 → useFault l { o := .d n, n := 1 } = some (38, .d n)) ∧
  (∀ a b c o, named = a ++ some (c, o) :: b → (∀ x ∈ a, x = none) →
    regStop s u sh = some (.trap { cause := c, info := regInfo o p })) ∧
  ((∀ x ∈ named, x = none) →
    (∀ a b t, (u.active.flatMap fun q => here.map fun r => readFault s r q) = a ++ some t :: b → (∀ x ∈ a, x = none) →
      regStop s u sh = some (.trap t)) ∧
    ((∀ q ∈ u.active, ∀ r ∈ here, readFault s r q = none) →
      (cells = [] → regStop s u sh = none) ∧ (cells ≠ [] → regStop s u sh = some (.wait (.cells cells)))))

/-- R332: an instruction that newly sets status bits of a group of which some are enabled to trap takes the trap of the lowest
such bit, with the newly set bits in INFO, and none of its results stand. A group is created with FTRAP 0. -/
def Obligations.StatusTraps : Prop :=
  (∀ (h : Hdr) (sh : Shape) (s s1 : State) (u : Ux) (body : Ux → State → Res) (e : Eff) (gid n : Nat),
    let new (k : Nat) : BitVec 6 := BitVec.ofNat 6 (newFst e k) &&& ~~~ (s1.g k).fst
    let hot (k : Nat) : BitVec 6 := new k &&& (s1.g k).ftrap
    Runs s h sh s1 u → body u s1 = .ok e → (∀ k, k ≠ gid → hot k = 0) →
    (hot gid).getLsbD n = true → (∀ k, k < n → (hot gid).getLsbD k = false) →
    issue h sh s body = .next (takeTrap s1 u h (h.scope != .lane) { cause := 72 + n, info := (new gid).toNat })) ∧
  ∀ l b bid g args, (newGroup l b bid g args).ftrap = 0

/-! ### Results and frames -/

/-- R346, R371, R192, R200: where the lanes of a unit are distinct, a 32-bit result to a vector register stands in each active
lane's cell, full, with its flags in the named condition register; every other cell of the group reads as before. -/
def Obligations.LaneResults : Prop := ∀ (s : State) (u : Ux) (n : Nat) (cw : BitVec 3) (f : Pos → Nat × BitVec 4),
  (u.active.map fun p => (p.gid, p.lane)).Nodup → (∀ p ∈ u.active, (s.group p.gid).isSome = true ∧ p.lane < 32) →
  (∀ k, FMap.wf (0 : Word) (s.g k).v = true ∧ FMap.wf (0 : BitVec 4) (s.g k).c = true ∧ (s.g k).vEmpty.Nodup) →
  let t := writeLanes s u (.v n) 32 cw f
  (∀ p ∈ u.active, rd t u (.v n) p = BitVec.ofNat 32 (f p).1 ∧ cellEmpty t p.gid (.v n p.lane) = false ∧
    (cw.getLsbD 2 = true → (t.g p.gid).creg (cw.toNat % 4) p.lane = (f p).2)) ∧
  ∀ gid m lane, lane < 32 → (m ≠ n ∨ ∀ p ∈ u.active, ¬ (p.gid = gid ∧ p.lane = lane)) →
    FMap.get 0 (t.g gid).v (32 * m + lane) = FMap.get 0 (s.g gid).v (32 * m + lane)

/-- The frame of every instruction that delivers its results to registers: in the state that it answers, memory, the host side,
the package, the cores, the clusters, the launches and the draws are as before, and in every group the scalar registers stand
unless the destination is scalar, the vector registers unless it is a vector, the directional registers always, and with them
the status and trap registers, the mode, the scratch registers, the store queue and the outstanding operations. -/
def Obligations.RegisterInstructionFrame : Prop :=
  ∀ (i : Instr) (h : Hdr) (sh : Shape) (dst : Opnd) (w : Nat) (cw : BitVec 3) (g : State → Ux → Pos → Nat × BitVec 4),
  Delivers i h sh dst w cw g → ∀ s s1 u, Runs s h sh s1 u →
  ∃ t, exec i s = .next t ∧ t.mem = s.mem ∧ t.poison = s.poison ∧ t.host = s.host ∧ t.pkg = s.pkg ∧ t.cores = s.cores ∧
    t.clusters = s.clusters ∧ t.launches = s.launches ∧ t.draws = s.draws ∧ t.ctxs = s.ctxs ∧ t.tlb = s.tlb ∧
    ∀ k, ((∀ n, dst ≠ .v n) → (t.g k).v = (s.g k).v) ∧ ((∀ n, dst ≠ .s n) → (t.g k).s = (s.g k).s) ∧
      (t.g k).d = (s.g k).d ∧ (cw.getLsbD 2 = false → (t.g k).c = (s.g k).c) ∧ (t.g k).fst = (s.g k).fst ∧
      (t.g k).ftrap = (s.g k).ftrap ∧ (t.g k).sys = (s.g k).sys ∧ (t.g k).tscr = (s.g k).tscr ∧ (t.g k).held = (s.g k).held ∧
      (t.g k).sq = (s.g k).sq ∧ (t.g k).ops = (s.g k).ops ∧ (t.g k).alive = (s.g k).alive

/-- R281, R308, R439: a store of a lane-scope instruction to plain memory without an order leaves every byte as it was and puts
each lane's bytes, with the address that its site has, at the end of its group's store queue; when the oldest entry drains,
the bytes from its address on take its values and every other byte reads as before. It drains where its die holds the line
and no slot holds the access; before that it asks for the line and stays in its queue. After a fatal error it stays there (R82).
Choices of the model: logs 5, 118, 119, 152. -/
def Obligations.StoreFrame : Prop :=
  (∀ (h : Hdr) (f : FmtM) (s s1 : State) (u : Ux) (l : List (Pos × Site)), Runs s h (shapeSt f) s1 u → f.ord = 0 →
    places f .store s1 u = .ok l → (∀ x ∈ l, x.2.mt = 0) →
    ∃ t, exec (.st h f) s = .next t ∧ (∀ a, physByte t a = physByte s a) ∧
      ∀ k, (s.group k).isSome = true → (t.g k).sq = (s.g k).sq ++ (l.filter fun x => x.1.gid == k).map fun x =>
        { loc := x.2.loc, bytes := storeBytes s1 u f.data f.size.toNat x.1 }) ∧
  ∀ (s : State) (gid pa : Nat) (bs : List Byte) (rest : List StoreEntry), Memory.wf s = true →
    (s.g gid).sq = { loc := .phys pa, bytes := bs } :: rest → isWindow pa = false → isHole pa = false → isDark s pa = false →
    let core := (s.g gid).core
    let held := memHeld s && locFar s core true (.phys pa)
    ∃ t, exec (.storeQueueDrain gid) s = .next t ∧
      if s.host.fatal = none ∧ (s.line (lineOf pa)).owns (dieOf core) = true ∧ held = false then (t.g gid).sq = rest ∧
        ∀ a, physByte t a = if isWindow a = false ∧ pa ≤ a ∧ a < pa + bs.length then bs.getD (a - pa) 0 else physByte s a
      else (t.g gid).sq = (s.g gid).sq ∧ ∀ a, physByte t a = physByte s a

/-! ### Device and host steps -/

namespace Sys2Proof.Claims

/-- A step of the device or the host answers a state under a condition. -/
def Answers (i : Instr) (ok : State → Prop) (e : State → State) : Prop := ∀ s, ok s → exec i s = .next (e s)

/-- A step of an engine, a home agent, a sequencer or a distributor, none of which works after a fatal error, answers a state under
a condition (R82). -/
def Works (i : Instr) (ok : State → Prop) (e : State → State) : Prop := Answers i (fun s => s.host.fatal = none ∧ ok s) e

/-- After a fatal error every step of the engines, home agents, sequencers and distributors changes nothing (R82). -/
def StandsStill : Prop :=
  ∀ (a b c : Nat) (v : DWord) (tag : BitVec 32) (yes : Bool) (l : List Nat) (ps : List (List Nat)) (near : Option Nat)
    (rays : List (Nat × Nat)),
    ∀ i ∈ [Instr.pendingTransitionStart, .diePreemptComplete a, .pageMigrate a b v c, .dieEvacuateComplete a, .dieRemapComplete a,
        .dieWakeComplete a yes, .dieRemapinComplete a] ++
      [.drainWindowBegin a, .clusterSlotOpen a, .slotCloseMessage a, .mswinClaimExpiry a, .controlIntervalBoundary a,
        .speedChangeStopEnd a, .ratioChangeApply a, .c0rsvApply a] ++
      [.class0Admission a ps, .blockPlace a ps, .taskPlace a b l, .blockAdmit a, .blockThrottle a, .blockRetire a,
        .eventQueueDequeue a, .issueArbitration a b, .lowerClassPark a b, .longLatencyWriteback a b, .watchdogExpiry a,
        .blockPreempt a, .preemptSave a, .blockResume a l, .asyncOpComplete a b, .operandBeatArrive a b] ++
      [.pageWalkComplete a v, .segmentWakeComplete a b, .bucketMove a b, .storeQueueDrain a, .hostAbort a tag] ++
      [.upgrade a b, .readExclusive a b, .readShared a b near, .invalidation a b, .invalidationAcknowledgement a b,
        .forwardedSnoop a b, .snoopAcknowledgement a b, .writeBack a b, .writeBackAcknowledgement a b,
        .exclusiveDataGrant a b, .lineEviction a b] ++
      [.emitBufferRead a, .primitiveBin a, .partialFlush a, .tileAssign a b c, .tileCheckpoint a b,
        .fragmentWaveDispatch a b c, .binningEnd a, .tileRetire a b, .hitDispatch a b rays, .childRayTrace a b,
        .hitRecordFill a b],
      Answers i (fun s => s.host.fatal ≠ none) id

/-- The processor of a queue reads its next entry; it is the processor's choice only where no slot holds its reading (R50, R71,
R95). -/
def readsAny (n : Nat) (w : List DWord) (s : State) : Prop :=
  n < 128 ∧ nextQueue s (n / 32) = some n ∧ peekEntry s n = some w

/-- It reads a command, with every field in order, that a fatal error ends at once. -/
def reads (n : Nat) (w : List DWord) (s : State) : Prop := readsAny n w s ∧ badPayload w = false ∧ s.host.fatal = none

/-- It reads a command, with every field in order, that a HALTED queue serves too (R82). -/
def readsFree (n : Nat) (w : List DWord) (s : State) : Prop := readsAny n w s ∧ badPayload w = false

/-- A command that earlier ones of its queue held back has its turn (R75). -/
def turn (n : Nat) (w : List DWord) (s : State) : Prop :=
  s.host.fatal = none ∧ (s.queue n).waiting = some (false, w) ∧ outstanding s n = false ∧ hostHeld s = false

/-- The state in which the effect of a command acts: the entry is read, and its place among all entries read is kept (R71, R81,
R95). -/
def readOff (n : Nat) (s : State) : State :=
  let s1 := served s n
  let s2 := s1.setQueue n { s1.queue n with ridx := (s1.queue n).ridx + 1, readNo := s.host.reads }
  { s2 with host := { s2.host with reads := s.host.reads + 1 } }

/-- The records of a queue that wait are written, as room allows, unless a slot holds the writes (R50, R78). -/
def written (n : Nat) (s : State) : State := if hostHeld s then s else flushRecords s n (s.queue n).records

/-- The state in which a command of a queue acts: it holds the queue back where R75 says so and it goes on, else nothing does. -/
def begun (n : Nat) (w : List DWord) (goesOn : Bool) (s : State) : State :=
  s.setQueue n { s.queue n with waiting := if entHolds w = true ∧ goesOn = true then some (true, w) else none }

/-- A command has its effect, be it read with nothing to wait for or at its turn. -/
def Acts (n : Nat) (w : List DWord) (goesOn : Bool) (i : Instr) (ok : State → Prop) (e : State → State) : Prop :=
  Answers i (fun s => reads n w s ∧ (entWaits w = true → outstanding s n = false) ∧ ok (begun n w goesOn (readOff n s)))
    (fun s => e (begun n w goesOn (readOff n s))) ∧
  Answers i (fun s => turn n w s ∧ badPayload w = false ∧ ok (begun n w goesOn s)) (fun s => e (begun n w goesOn s))

/-- A command that waits for nothing has its effect, in a HALTED queue too (R75, R82). -/
def Serves (n : Nat) (w : List DWord) (i : Instr) (ok : State → Prop) (e : State → State) : Prop :=
  Answers i (fun s => readsFree n w s ∧ ok (readOff n s)) (fun s => e (readOff n s))

/-- The steps of the commands that a fatal error ends, each with the entries that name it (R73, R82). -/
def commandsOf (n : Nat) (w : List DWord) : List (Instr × Bool) :=
  [(.launchCommand n, entKind w == 1), (.copyCommand n, entKind w == 2), (.signalCommand n, entKind w == 3),
    (.waitCommand n, entKind w == 4), (.ctxCreate n, entKind w == 5 && entW w 1 % 4 == 0),
    (.ctxDestroy n, entKind w == 5 && entW w 1 % 4 == 1), (.ctxRegister n, entKind w == 5 && entW w 1 % 4 == 2),
    (.ctxRevoke n, entKind w == 5 && entW w 1 % 4 == 3), (.badkind n, entKind w == 0 || 8 < entKind w)]

/-- The steps of the commands that a HALTED queue serves, each with the entries that name it (R82). -/
def freeCommands (n : Nat) (w : List DWord) : List (Instr × Bool) :=
  [(.resync n, entKind w == 6), (.dumpStatus n, entKind w == 7 && entW w 1 % 2 == 0),
    (.dumpRelease n, entKind w == 7 && entW w 1 % 2 == 1), (.attest n, entKind w == 8)]

end Sys2Proof.Claims

/-- R68, R70, R71, R73 to R78, R81, R82, R84, R87: the doorbell, the acknowledgement, the enable and disable of a queue, and its
commands. A doorbell takes an index that is ahead by less than 2^31 and fills no more than the ring; what the host writes comes
through a port that is up; a command that its queue's processor reads has the effect of its kind, with its completion record, at
once or at its turn after those it waits for; a copy and a sampled WAIT go on where no slot holds them. A HALTED queue answers DEAD,
and serves RESYNC, DUMP and ATTEST.
Choices of the model: logs 7, 8, 84, 87, 88, 89, 90, 92, 94, 135, 136, 146, 159. -/
def Obligations.HostQueuesAndCommands : Prop := ∀ (n : Nat) (w : List DWord),
  let q (s : State) : Queue := s.queue n
  let kind (k : Nat) : Prop := entKind w = k
  let ctx := ctxOf w
  (∀ v : DWord, n < 128 → Answers (.doorbell n v)
    (fun s => anyPort s = true ∧ (q s).en = true ∧ (q s).err = false ∧ v.toNat < 2 ^ 32 ∧ 0 < (BitVec.ofNat 32 v.toNat - (q s).widx).toNat ∧
      (BitVec.ofNat 32 v.toNat - (q s).widx).toNat < 2 ^ 31 ∧ (BitVec.ofNat 32 v.toNat - (q s).ridx).toNat ≤ 2 ^ (q s).logsz)
    fun s => s.setQueue n { q s with widx := BitVec.ofNat 32 v.toNat }) ∧
  (∀ v : DWord, n < 128 → Answers (.completionAcknowledgement n v)
    (fun s => anyPort s = true ∧ v.toNat < 2 ^ 32 ∧ 0 < (BitVec.ofNat 32 v.toNat - (q s).cqack).toNat ∧
      (BitVec.ofNat 32 v.toNat - (q s).cqack).toNat < 2 ^ 31 ∧
      (BitVec.ofNat 32 v.toNat - (q s).cqack).toNat ≤ ((q s).cqidx - (q s).cqack).toNat)
    fun s =>
      let s1 := s.setQueue n { q s with cqack := BitVec.ofNat 32 v.toNat }
      if hostHeld s then s1 else flushRecords s1 n (q s).records) ∧
  (n < 128 → Answers (.queueEnable n)
    (fun s => anyPort s = true ∧ (q s).en = false ∧ 4 ≤ (q s).logsz ∧ (q s).logsz ≤ 16 ∧ 4 ≤ (q s).cqlog ∧ (q s).cqlog ≤ 16 ∧
      (q s).base.toNat % 64 = 0 ∧ (q s).cqbase.toNat % 16 = 0 ∧ FMap.get none s.ctxs (q s).ctx ≠ none)
    fun s => written n (s.setQueue n { q s with en := true, err := false })) ∧
  (n < 128 → Answers (.queueDisable n) (fun s => anyPort s = true)
    fun s => written n (abortWait (s.setQueue n { q s with en := false }) n)) ∧
  (∀ off size v, size ≤ 8 → off < 0x1000000 → Answers (.registerWrite off size v) (fun s => anyPort s = true)
    fun s => hostWindow s off (leBytes size v.toNat)) ∧
  (∀ p ∈ commandsOf n w, p.2 = true →
    Answers p.1 (fun s => readsAny n w s ∧ s.host.fatal ≠ none) (fun s => finish n w 9 0 (readOff n s)) ∧
    Answers p.1 (fun s => readsAny n w s ∧ s.host.fatal = none ∧ entWaits w = true ∧ outstanding s n = true)
      (fun s => (readOff n s).setQueue n { (readOff n s).queue n with waiting := some (false, w) }) ∧
    (1 ≤ entKind w → entKind w ≤ 8 → badPayload w = true →
      Answers p.1 (fun s => readsAny n w s ∧ s.host.fatal = none ∧ (entWaits w = true → outstanding s n = false))
        (fun s => finish n w 3 0 (release (readOff n s) n)) ∧
      Answers p.1 (turn n w) (fun s => finish n w 3 0 (release s n)))) ∧
  (∀ p ∈ freeCommands n w, p.2 = true → badPayload w = true →
    Answers p.1 (readsAny n w) (fun s => finish n w 3 0 (readOff n s))) ∧
  Acts n w true (.launchCommand n) (fun _ => kind 1) (submitLaunch n w) ∧
  Acts n w true (.copyCommand n) (fun _ => kind 2 ∧ 1 ≤ entW w 3 ∧ entW w 3 ≤ 2 ^ 40) (fun s => s.setQueue n { q s with
    copies := (q s).copies ++ [((q s).seq, w)], seq := (q s).seq + 1 }) ∧
  Acts n w false (.copyCommand n) (fun _ => kind 2 ∧ (entW w 3 = 0 ∨ 2 ^ 40 < entW w 3)) (finish n w 3 0) ∧
  (∀ k c s, hostHeld s = false → s.host.fatal = none → (q s).copies.find? (fun x => x.1 == k) = some (c, w) →
    let r := copyPages s (q s).ctx (entW w 4) (entW w 1) (entW w 2) (entW w 3) (2 * entW w 3 / 4096 + 4) 0
    let s1 := r.1.setQueue n { r.1.queue n with copies := (q s).copies.filter fun x => x.1 != k }
    let answer (t : State) : Prop :=
      exec (.copyCommandComplete n k) s = .next (finish n w (if r.2 = entW w 3 then 0 else 4) r.2 t)
    ((∀ x, (s1.queue n).waiting = some (true, x) → entKind x ≠ 2) → answer s1) ∧
    (∀ x, (s1.queue n).waiting = some (true, x) → entKind x = 2 → answer (release s1 n))) ∧
  (∀ old s1, Acts n w false (.signalCommand n) (fun s => kind 3 ∧ entW w 1 % 8 = 0 ∧
      vRead s (q s).ctx sysRead (entW w 1) 8 = some old ∧
      vWrite s (q s).ctx sysWrite (entW w 1)
        (leBytes 8 (if entW w 3 = 1 then (leVal old + entW w 2) % 2 ^ 64 else entW w 2)) noBlock 0 = some s1)
    (fun _ => finish n w 0 0 s1)) ∧
  Acts n w false (.signalCommand n) (fun _ => kind 3 ∧ entW w 1 % 8 ≠ 0) (finish n w 3 0) ∧
  Acts n w true (.waitCommand n) (fun _ => kind 4 ∧ entW w 1 % 8 = 0) id ∧
  Acts n w false (.waitCommand n) (fun _ => kind 4 ∧ entW w 1 % 8 ≠ 0) (finish n w 3 0) ∧
  (∀ bs, Answers (.waitSatisfied n) (fun s => (q s).waiting = some (true, w) ∧ kind 4 ∧ s.host.fatal = none ∧ (q s).en = true ∧
      hostHeld s = false ∧ vRead s (q s).ctx sysRead (entW w 1) 8 = some bs ∧ waitMet w (leVal bs) = true)
    fun s => finish n w 0 0 (release s n)) ∧
  Acts n w false (.ctxCreate n) (fun s => kind 5 ∧ entW w 1 % 4 = 0 ∧ FMap.get none s.ctxs ctx = none ∧
      entW w 2 % 4096 = 0 ∧ (isHbm (entW w 2) = true ∨ isLp (entW w 2) = true) ∧ isFirmware (entW w 2) = false) (fun s =>
    finish n w 0 0 { s with ctxs := FMap.set none s.ctxs ctx (some (entW w 2)), tlb := s.tlb.filter fun e => e.ctx != ctx }) ∧
  Acts n w false (.ctxDestroy n) (fun s => kind 5 ∧ entW w 1 % 4 = 1 ∧ FMap.get none s.ctxs ctx ≠ none ∧
      ctxInUse s ctx = false) (fun s =>
    finish n w 0 0 { s with
      ctxs := FMap.set none s.ctxs ctx none, tlb := s.tlb.filter fun e => e.ctx != ctx
      host := { s.host with keys := s.host.keys.map fun k => if k.ctx == ctx then { k with rights := 0 } else k } }) ∧
  Acts n w false (.ctxRegister n) (fun s => kind 5 ∧ entW w 1 % 4 = 2 ∧ FMap.get none s.ctxs ctx ≠ none ∧
      1 ≤ entW w 3 ∧ entW w 3 ≤ 2 ^ 48 ∧ entW w 2 + entW w 3 ≤ 2 ^ 57 ∧ entW w 4 ≠ 0 ∧
      (s.host.keys.filter fun k => k.rights != 0).length < 65536) (fun s =>
    finish n w 0 (freshKey s).toNat { s with host := { s.host with
      keys := s.host.keys ++ [{ key := freshKey s, ctx := ctx, va := entW w 2, len := entW w 3, rights := entW w 4 }]
      keyCount := s.host.keyCount + 1 } }) ∧
  Acts n w false (.ctxRevoke n) (fun s => kind 5 ∧ entW w 1 % 4 = 3 ∧
      ∃ k ∈ s.host.keys, k.key = BitVec.ofNat 32 (entW w 2) ∧ k.rights ≠ 0) (fun s =>
    finish n w 0 0 { s with host := { s.host with
      keys := s.host.keys.map fun k => if k.key == BitVec.ofNat 32 (entW w 2) then { k with rights := 0 } else k } }) ∧
  Serves n w (.resync n) (fun s => kind 6 ∧ (snapshot s).length ≤ entW w 2) (fun s => writeResult n w (entW w 1) (snapshot s) s) ∧
  Serves n w (.resync n) (fun s => kind 6 ∧ entW w 2 < (snapshot s).length) (fun s => finish n w 8 (snapshot s).length s) ∧
  Serves n w (.dumpStatus n) (fun _ => kind 7 ∧ entW w 1 % 2 = 0 ∧ entW w 2 % 16 = 0)
    (fun s => writeResult n w (entW w 2) (dumpRecord s) s) ∧
  Serves n w (.dumpStatus n) (fun _ => kind 7 ∧ entW w 1 % 2 = 0 ∧ entW w 2 % 16 ≠ 0) (finish n w 3 0) ∧
  Serves n w (.dumpRelease n) (fun s => kind 7 ∧ entW w 1 % 2 = 1 ∧ s.host.dump ≠ none)
    (fun s => finish n w 0 0 { s with host := { s.host with dump := none, released := true } }) ∧
  Serves n w (.dumpRelease n) (fun s => kind 7 ∧ entW w 1 % 2 = 1 ∧ s.host.dump = none) (finish n w 0 0) ∧
  Serves n w (.attest n) (fun _ => kind 8) (fun s =>
    let body := attestBody s ((List.range 4).flatMap fun k => leBytes 8 (entW w (k + 1)))
    writeResult n w (entW w 5) (body ++ (List.range 7856).map (Config.reportSignatureByte body)) s) ∧
  (kind 0 ∨ 8 < entKind w →
    Answers (.badkind n) (fun s => readsAny n w s ∧ s.host.fatal = none ∧ (entWaits w = true → outstanding s n = false))
      (fun s => finish n w 2 0 (release (readOff n s) n)) ∧
    Answers (.badkind n) (turn n w) (fun s => finish n w 2 0 (release s n))) ∧
  Answers (.entryTranslationFault n) (fun s => n < 128 ∧ nextQueue s (n / 32) = some n ∧ peekEntry s n = none)
    (fun s => queueError (checkDark (served s n) (q s).ctx sysRead (entryAddr (q s)) 64) n) ∧
  ∀ tag e, Works (.hostAbort n tag)
    (fun s => (queueLaunches s n).find? (fun e => e.2.tag == tag && !e.2.ending) = some e) fun s =>
      let s1 := s.setLaunch e.1 { e.2 with aborted := true }
      settleLaunch (clearTags (stopLaunchGroups (dropTasks s1 e.1) e.1)) e.1

/-- R17, R21, R40 to R42, R50, R56, R64 to R66, R82, R85, R88, R9, R22, R311, R312, R319, R510: what comes from the network and
the board: RDMA accesses, which wait where a slot or a busy line holds memory, messages and marks, the sideband, the boot, fatal
and memory errors with the die that they name, lost phases and link modules, and register errors. After a fatal error the engines
stand still.
Choices of the model: logs 7, 8, 9, 54, 85, 89, 92, 93, 118, 123, 124, 142, 143, 144, 150. -/
def Obligations.HostAccessAndErrors : Prop :=
  let clear (s : State) (conn : Nat) : Prop := ∀ r ∈ s.host.inbound, r.conn ≠ conn
  let classed (cause : Nat) (s : State) : State := if Config.checkIsFatal cause = true then fatalError s cause else s
  let done (s : State) (l : List (Nat × Nat)) : Prop :=
    (∀ p ∈ l, isDark s p.1 = false) ∧ (memBusy s = true → ∀ p ∈ l, isWindow p.1 = true)
  let behind (s : State) (conn : Nat) (l : Option (List (Nat × Nat))) : Prop :=
    ¬ clear s conn ∨ (memBusy s = true ∧ ∃ x, l = some x ∧ ∃ p ∈ x, isWindow p.1 = false)
  let waits (s : State) (r : RdmaIn) : State := { s with host := { s.host with inbound := s.host.inbound ++ [r] } }
  let rail (k count : Nat) (s : State) : Rail := { drt := true, lost := min 12 ((s.rail k).lost + count) }
  let derated (k count : Nat) (s : State) : State :=
    sendModule { s with pkg := { s.pkg with rails := FMap.set Rail.reset s.pkg.rails k (rail k count s) } } 3
      (derateBody k (s.rail k) (rail k count s))
  let capped (d : Nat) (s : State) : State :=
    (List.range 12).foldl (fun st k => forceCap st (12 * d + k)) (suspendBounds s (launchOnDie s d) 1)
  let ecc (code lane : Nat) (bad : Bool) (g : Group) (s : State) : State :=
    countErr (s.setCore g.core { s.core g.core with
      ecclog := BitVec.ofNat 64 (code + lane * 2 ^ 10 + b2n bad * 2 ^ 15 + g.slot * 2 ^ 16) }) g.core (b2n bad)
  let mark (key gid : Nat) (s : State) : State := s.modGroup gid fun g => { g with ecc := NSet.add g.ecc key }
  StandsStill ∧
  (∀ conn key (addr : DWord) data l, Answers (.rdmaWrite conn key addr data)
    (fun s => portUp s conn = true ∧ clear s conn ∧ rdmaTarget s key addr.toNat data.length true = some l ∧ done s l)
    fun s => sendReply (writeParts s l data) (.ack conn)) ∧
  (∀ conn key (addr : DWord) data, Answers (.rdmaWrite conn key addr data)
    (fun s => portUp s conn = true ∧ clear s conn ∧ rdmaTarget s key addr.toNat data.length true = none)
    fun s => sendReply s (.nak conn)) ∧
  (∀ conn key (addr : DWord) len l, Answers (.rdmaRead conn key addr len)
    (fun s => portUp s conn = true ∧ clear s conn ∧ rdmaTarget s key addr.toNat len false = some l ∧ done s l)
    fun s => sendReply s (.data conn (l.flatMap fun p => physBytes s p.1 p.2))) ∧
  (∀ conn key (addr : DWord) len, Answers (.rdmaRead conn key addr len)
    (fun s => portUp s conn = true ∧ clear s conn ∧ rdmaTarget s key addr.toNat len false = none) fun s => sendReply s (.nak conn)) ∧
  (∀ conn key (addr : DWord) data l, Answers (.rdmaWrite conn key addr data)
    (fun s => portUp s conn = true ∧ rdmaTarget s key addr.toNat data.length true = l ∧ behind s conn l) fun s =>
      waits s { conn := conn, parts := l, data := some data }) ∧
  (∀ conn key (addr : DWord) len l, Answers (.rdmaRead conn key addr len)
    (fun s => portUp s conn = true ∧ readsWaiting s conn < 16 ∧ rdmaTarget s key addr.toNat len false = l ∧ behind s conn l) fun s =>
      waits s { conn := conn, parts := l, data := none }) ∧
  (∀ conn key (addr : DWord) len, Answers (.rdmaRead conn key addr len) (fun s => 16 ≤ readsWaiting s conn) id) ∧
  (∀ conn data, Answers (.send conn data) (fun s => portUp s conn = true) fun s => sendReply s (.ack conn)) ∧
  (∀ conn, Answers (.ceMarkReceived conn) (fun s => portUp s conn = true) fun s =>
    let now := FMap.get 0 s.host.slowed conn
    { s with host := { s.host with
      cnps := s.host.cnps ++ [conn], slowed := FMap.set 0 s.host.slowed conn (now + 1 + Config.rateStep now) } }) ∧
  (∀ mask, Answers (.portEnableMaskWrite mask) (fun _ => True) fun s => { s with host := { s.host with ports := mask } }) ∧
  Answers .moduleReset (fun _ => True) (fun s => { State.reset with inbox := s.inbox, free := s.free }) ∧
  (∀ stage image sig, stage < 5 → Answers (.bootStageVerify stage image sig) (fun s => s.host.bootHalt = none) fun s =>
    if Config.signatureValid image sig = true then { s with host := { s.host with
      measure := FMap.set 0 s.host.measure stage
        (BitVec.ofNat 256 (leVal (sha256 (measureBytes s stage ++ sha256 image)).reverse))
      booted := NSet.add s.host.booted stage } }
    else { s with host := { s.host with bootHalt := some stage } }) ∧
  (∀ cause : BitVec 9, Answers (.fatalError cause) (fun _ => True)
    fun s => if 0x160 ≤ cause.toNat ∧ cause.toNat ≤ 0x16B then fatalError s cause.toNat else s) ∧
  (∀ detail unit line die, detail = 4 ∨ detail = 5 ∨ detail = 6 ∨ detail = 10 →
    Answers (.uncorrectableMemoryError detail unit line) (fun s => errorDie s detail (errorPlace unit line) = some die) fun s =>
      classed (352 + detail) (sendCheck { s with poison := FMap.set 0 s.poison (errorPlace unit line) detail }
        (352 + detail) die (leBytes 8 (128 * errorPlace unit line)))) ∧
  (∀ unit line die, line < 2 ^ 14 →
    Answers (.uncorrectableMemoryError 7 unit line) (fun s => errorDie s 7 (errorPlace unit line) = some die) fun s =>
      classed 359 (sendCheck (s.modBc (unit / 16) (unit % 16) fun k => { k with bad := NSet.add k.bad line })
        359 die (leBytes 8 (128 * errorPlace unit line)))) ∧
  (∀ unit line, Answers (.uncorrectableMemoryError 11 unit line) (fun _ => True) fun s =>
    fatalError (sendCheck s 363 8 (leBytes 8 (128 * errorPlace unit line))) 363) ∧
  (∀ s line, (isHbm (128 * line) = true → errorDie s 4 line = some (128 * line / 0x1000000000)) ∧
    (isLp (128 * line) = true → errorDie s 5 line = some 8) ∧
    (isHbm (128 * line) = true ∨ isLp (128 * line) = true → errorDie s 6 line = some (sliceOfPa s (128 * line) / 12))) ∧
  (∀ k count, Answers (.phaseLoss k count) (fun s => (s.rail k).lost = 12) id) ∧
  (∀ k count, k < 26 → 0 < count →
    (∀ d, railDie k = some d →
      Answers (.phaseLoss k count) (fun s => (s.rail k).lost < 12 ∧ 4 ≤ phsOf (rail k count s)) (fun s => capped d (derated k count s)) ∧
      Answers (.phaseLoss k count) (fun s => (s.rail k).lost < 12 ∧ phsOf (rail k count s) < 4)
        (fun s => requestDie (capped d (derated k count s)) { die := d, online := false, reason := 5 })) ∧
    (railDie k = none →
      Answers (.phaseLoss k count) (fun s => (s.rail k).lost < 12 ∧ 4 ≤ phsOf (rail k count s)) (derated k count) ∧
      Answers (.phaseLoss k count) (fun s => (s.rail k).lost < 12 ∧ phsOf (rail k count s) < 4) fun s =>
        let s1 := derated k count s
        fatalError { s1 with free := s1.free + 1 } (0x160 + (Config.freeWord s.free).toNat % 12))) ∧
  (∀ a b m, a < b → m < linkModules a b → Answers (.dieLinkModuleOff a b m)
    (fun s => moduleOff s a b m = false ∧ ∃ x ∈ s.pkg.slots, x.kind = 3) fun s =>
      let s1 := { s with pkg := { s.pkg with
        modsOff := NSet.add s.pkg.modsOff (1000 * a + 100 * b + m)
        modsHalf := NSet.del s.pkg.modsHalf (1000 * a + 100 * b + m), modDue := true } }
      let s2 := suspendBounds (sendCheck s1 0x168 a (leBytes 2 a ++ leBytes 2 b ++ leBytes 2 m)) (fun _ => true) 4
      if b = 8 ∧ feLost s2 a = true then requestDie s2 { die := a, online := false, reason := 4 } else s2) ∧
  (∀ gid code lane g, code < 416 ∨ (512 ≤ code ∧ code < 548) → lane < 32 →
    Answers (.registerEccError gid code lane false) (fun s => s.group gid = some g) (ecc code lane false g)) ∧
  (∀ gid code lane g, 256 ≤ code → code < 416 → lane < 32 →
    Answers (.registerEccError gid code lane true) (fun s => s.group gid = some g)
      (fun s => mark (32 * code) gid (ecc code lane true g s))) ∧
  (∀ gid code lane g, code < 256 ∨ (512 ≤ code ∧ code < 548) → lane < 32 →
    let s1 (s : State) : State := mark (32 * code + lane) gid (ecc code lane true g s)
    Answers (.registerEccError gid code lane true) (fun s => s.group gid = some g ∧ twinOf (s1 s) gid lane = none) s1 ∧
    ∀ h k, Answers (.registerEccError gid code lane true) (fun s => s.group gid = some g ∧ twinOf (s1 s) gid lane = some (h, k))
      (fun s => mark (32 * code + k) h (s1 s))) ∧
  ∀ gid acc lane g bad, acc < 4 → lane < 32 → Answers (.registerEccError gid (548 + acc) lane bad) (fun s => s.group gid = some g)
    (fun s => accEccError s g.core acc bad)

/-- R22, R28 to R34, R50, R267 to R270, R275, R276, R401: the hot-plug of a die, which a die without its FE link does not come back
from, the pages and buckets that move, translations that a walk brings, ways that are switched off and segments that wake. A page
moves in one step with every pointer to it. Pages, buckets and ways move, and walks read, where no slot holds their bytes.
Choices of the model: logs 98, 99, 118, 129, 130. -/
def Obligations.DiesPagesAndBuckets : Prop :=
  (∀ die reason, 1 ≤ reason → reason ≤ 5 → Answers (.dieOfflineRequest die reason) (fun _ => True)
    fun s => requestDie s { die := die, online := false, reason := reason }) ∧
  (∀ die, Answers (.dieOnlineRequest die) (fun _ => True) fun s => requestDie s { die := die, online := true, reason := 0 }) ∧
  (∀ r rest, Works .pendingTransitionStart (fun s => s.pkg.requests = r :: rest ∧ anyMoving s = false) fun s =>
    let s1 := { s with pkg := { s.pkg with requests := rest } }
    let d := s.die r.die
    let was := if d.st = 8 then d.prev else d.st
    if allowed s1 r was = true then startRequest s1 r
    else if d.st = 8 ∧ ∀ x ∈ rest, x.die ≠ r.die then toState s1 r.die was 0
    else s1) ∧
  (∀ s r, r.online = true → feLost s r.die = true → ∀ st, allowed s r st = false) ∧
  (∀ die, die < 8 → Works (.diePreemptComplete die) (fun s => (s.die die).st = 1 ∧ blocksLeft s die = 0)
    fun s => toState s die 2 (s.die die).reason) ∧
  (∀ die ctx (va : DWord) pa pfn, Works (.pageMigrate die ctx va pa)
    (fun s => (s.die die).st = 2 ∧ memBusy s = false ∧ (framesOf s ctx va.toNat).find? (inStackOf die) = some pfn ∧
      pa % (4096 * (widestOf s die pfn).2) = 0 ∧ frameFree s (pa / 4096) (widestOf s die pfn).2 = true) fun s =>
      let p := widestOf s die pfn
      let s1 := carryFrames (repointAll s p.1 (pa / 4096) p.2) p.1 (pa / 4096) p.2
      { s1 with tlb := s1.tlb.filter fun e => !(decide (p.1 < e.pfn + e.pages) && decide (e.pfn < p.1 + p.2)) }) ∧
  (∀ die, die < 8 → Works (.dieEvacuateComplete die)
    (fun s => (s.die die).st = 2 ∧ stackFrames s die = [] ∧ ∀ e ∈ s.tlb, inStackOf die e.pfn = false)
    fun s => toState s die 3 (s.die die).reason) ∧
  (∀ die, die < 8 → Works (.dieRemapComplete die)
    (fun s => (s.die die).st = 3 ∧ s.pkg.darkDue = none ∧ ∀ b, b < 4096 → sliceOf s b / 12 ≠ die)
    fun s => { s with pkg := { s.pkg with darkDue := some die } }) ∧
  (∀ die trained, Works (.dieWakeComplete die trained)
    (fun s => s.pkg.wakeDue = some die ∧ ∃ x ∈ s.pkg.slots, x.kind = 3) fun s =>
    toState { s with pkg := { s.pkg with wakeDue := none } } die (if trained = true ∧ feLost s die = false then 6 else 7) 0) ∧
  (∀ die, die < 8 → Works (.dieRemapinComplete die)
    (fun s => (s.die die).st = 6 ∧ ∀ b, b < 4096 → b % 96 / 12 = die → sliceOf s b = b % 96) fun s => toState s die 0 0) ∧
  (∀ ctx (va : DWord), Works (.pageWalkComplete ctx va) (fun s => memHeld s = false) fun s => tlbFill s ctx va.toNat) ∧
  (∀ core seg, core < 384 → seg < 16 → Works (.segmentWakeComplete core seg)
    (fun s => awakeFree s core < wakeAsked s core ∧ awakeFree s core < freeSegments s core)
    fun s => s.setCore core { s.core core with awake := (s.core core).awake + 1 }) ∧
  (∀ bucket slice, bucket < 4096 → Works (.bucketMove bucket slice)
    (fun s => sliceUsable s slice = true ∧ memHeld s = false) fun s =>
    { s with sliceMap := FMap.set none s.sliceMap bucket (if slice = bucket % 96 then none else some slice) }) ∧
  ∀ slice ways, slice < 96 → ways ≤ 16 → Answers (.l2WayDisable slice ways) (fun s => memHeld s = false)
    fun s => { s with l2off := FMap.set 0 s.l2off slice ways }

/-- R24, R26, R37, R38, R44 to R50, R52, R58 to R61, R102, R111 to R113, R116, R119, R120: frames and slots, with the bounds that
an overrun suspends at its published end and tells of at its actual one, and what a cluster does at its own times.
Choices of the model: logs 82, 85, 86, 97, 119, 145, 154. -/
def Obligations.FramesSlotsAndClusters : Prop := ∀ (cl : Nat),
  let c (s : State) : Cluster := s.cluster cl
  let put (s : State) (x : Cluster) : State := s.setCluster cl x
  Answers .frameBoundary (fun s => 3900 ≤ s.pkg.ns) (fun s => openSlot { s with pkg := { s.pkg with
    frame := s.pkg.frame + 1, ns := s.pkg.ns - 3900, toOpen := (secondSlot s (s.pkg.frame + 1).toNat).toList } } 0 160) ∧
  (∀ frame len, frame < 2 ^ 32 → 0 < len → len ≤ 2000 → Answers (.lSlotAnnounce frame len)
    (fun s => 16 ≤ framesTo s.pkg.frame.toNat frame ∧ framesTo s.pkg.frame.toNat frame < 2 ^ 31 ∧ secondSlot s frame = none ∧
      owedL s = false ∧ spacedL s frame = true) fun s =>
    { s with pkg := { s.pkg with lslots := s.pkg.lslots ++ [(frame, len)] } }) ∧
  (∀ len, 0 < len → len ≤ 2000 → ∀ frame, frame < 2 ^ 32 → Answers (.lSlotAnnounce frame len)
    (fun s => 16 ≤ framesTo s.pkg.frame.toNat frame ∧ framesTo s.pkg.frame.toNat frame < 2 ^ 31 ∧ secondSlot s frame = none ∧
      owedL s = true ∧ frame = owedFrame s) fun s =>
    { s with pkg := { s.pkg with lslots := s.pkg.lslots ++ [(frame, len)], modDue := false } }) ∧
  (∀ len frame, Answers (.lSlotAnnounce frame len) (fun s => owedL s = true ∧ frame ≠ owedFrame s) id) ∧
  Works (.drainWindowBegin cl) (fun s => (c s).slot.opened = false ∧ (c s).slot.wait ≤ 512)
    (fun s => put s { c s with drain := true }) ∧
  Works (.clusterSlotOpen cl) (fun s => (c s).slot.opened = false ∧ (c s).slot.wait = 0)
    (fun s => put s { c s with slot := { (c s).slot with opened := true, wait := (c s).slot.len }, drain := true }) ∧
  (∀ x rest,
    let done (s : State) : State := { s with pkg := { s.pkg with slots := s.pkg.slots.filter fun y => y.seq != x.seq } }
    let late (s : State) : State :=
      let hit := (launchesOf s).filterMap fun e => if e.2.accepted then some e.1 else none
      let told := hit.filter fun lid => !(s.l lid).suspended
      let s1 := told.foldl (fun st lid => st.setLaunch lid { st.l lid with suspended := true }) s
      { s1 with pkg := { s1.pkg with
        slots := (s.pkg.slots.filter fun y => y.seq != x.seq) ++ [{ x with overran := true, hit := hit, told := told }] } }
    let ends (ok : Bool) (s : State) : State := if ok then done s else late s
    let follows (s : State) : State := { s with pkg := { s.pkg with toOpen := rest } }
    let due (s : State) (next : List (Nat × Nat)) : Prop :=
      runningSlot s = some x ∧ publishedEnd x ≤ s.pkg.ns ∧ s.pkg.toOpen = next
    ∀ ok len, Answers (.slotPublishedEnd ok) (fun s => due s []) (ends ok) ∧
      (∀ k, k ≠ 3 → Answers (.slotPublishedEnd ok) (fun s => due s ((k, len) :: rest))
        fun s => openSlot (follows (ends ok s)) k len) ∧
      Answers (.slotPublishedEnd ok) (fun s => due s ((3, len) :: rest)) fun s => openL (follows (ends ok s)) len) ∧
  (∀ ns x, Answers (.slotWorkDone ns) (fun s => s.pkg.slots.find? (fun x => x.overran) = some x) fun s =>
    let ids := x.hit.flatMap fun lid => leBytes 4 (s.l lid).q ++ leBytes 4 (s.l lid).tag.toNat
    let s1 := { s with pkg := { s.pkg with slots := s.pkg.slots.filter fun y => y.seq != x.seq } }
    x.told.foldl (fun st lid => tellSuspended st lid 3 s.host.evseq) (sendCheck s1 0x160 8
      ((leBytes 2 x.seq ++ leBytes 2 x.kind ++ leBytes 4 x.len ++ leBytes 4 ns ++ ids).take 52))) ∧
  Works (.slotCloseMessage cl) (fun s => (c s).slot.opened = true ∧ hasOpened s (c s).slot.seq = true ∧
      ∀ x ∈ s.pkg.slots, if (c s).slot.follow = 1 then x.seq = (c s).slot.seq → x.overran = true
        else x.seq ≠ (c s).slot.seq ∧ x.overran = false) (fun s =>
    let v := announced s (c s) (c s).slot.seq
    put s { c s with slot := v, drain := s.pkg.slots.any fun x => x.seq == v.seq }) ∧
  Works (.mswinClaimExpiry cl) (fun _ => True) (fun s => put s { c s with claims := (c s).claims.filter fun k => k != 0 }) ∧
  Works (.controlIntervalBoundary cl) (fun s => 4096 ≤ (c s).ivl ∧ adoptedClass s cl = (c s).cls) (fun s =>
    (unthrottle s cl).setCluster cl { c s with
      ivl := (c s).ivl - 4096, noTask := false, ebud := ebudAt s cl (c s).cls, ibud := ibudNow s cl }) ∧
  Works (.speedChangeStopEnd cl) (fun s => (c s).stop = 1) (fun s => put s { c s with stop := 0 }) ∧
  (∀ r, Works (.ratioChangeApply cl) (fun s => (c s).ratioNext = some r ∧ blocksIn s cl = [] ∧ (c s).claims = []) fun s =>
    let c1 := { c s with ratio := r, ratioNext := none }
    put s { c1 with slot := reviewed s c1 }) ∧
  (∀ v, Works (.c0rsvApply cl) (fun s => (c s).c0next = some v ∧ ∀ b ∈ blocksIn s cl, (s.l b.2.lid).cls ≠ 0) fun s =>
    put s { c s with c0rsv := v, c0next := none }) ∧
  (∀ e rest, Works (.eventQueueDequeue cl) (fun s => (c s).eq = e :: rest) fun s =>
    let c1 := { c s with
      eq := rest ++ (c s).eqWait.take 1, eqWait := (c s).eqWait.drop 1
      tags := if bits e.toNat 35 34 == 0 then NSet.add (c s).tags (bits e.toNat 63 48) else (c s).tags }
    clearTags (orderTasks (put s c1))) ∧
  ∀ dir b rest, Works (.operandBeatArrive cl dir)
    (fun s => (memHeld s = true → edgeLink cl dir = false) ∧ FMap.get [] (c s).flight dir = b :: rest) fun s =>
    put s { c s with
      flight := FMap.set [] (c s).flight dir rest, recv := FMap.set [] (c s).recv dir (FMap.get [] (c s).recv dir ++ [b]) }

/-- R41, R50, R53, R54, R94 to R106, R111, R114, R115, R117, R125, R126, R130, R146, R166, R167, R185, R200, R281, R295, R298,
R308, R502, R503: the life of a block from its placement to its retirement, the choice of a unit, and what a group's queues and
engines bring where no slot holds it. A tile task stands in its cluster's table until it takes its cores; a store that waits for its
line asks for it.
Choices of the model: logs 12, 49, 65, 67, 68, 75, 83, 95, 96, 100, 118, 119, 125, 132, 133, 137, 139, 154. -/
def Obligations.BlocksAndIssue : Prop :=
  let reads (s : State) (lid : Nat) : Prop := memHeld s = true → (s.l lid).argn = 0
  let first0 (s : State) (lid : Nat) : Prop :=
    ((launchesOf s).find? fun e => e.2.cls == 0 && e.2.st == .waiting && e.2.draw.isNone).map (·.1) = some lid ∧ reads s lid
  (∀ lid places s1 b, Works (.class0Admission lid places)
    (fun s => first0 s lid ∧ (∃ a, argWords s (s.l lid) = some a ∧ decide0 s lid a places = some (.ok (s1, b))) ∧
      ∀ e ∈ s1.clusters, e.2.tasks.length ≤ 64) fun s =>
      acceptRecord (s1.setLaunch lid { s1.l lid with bound := b, st := .running }) (s.l lid).q (s.l lid).tag b) ∧
  (∀ lid places s1 b, Works (.class0Admission lid places)
    (fun s => first0 s lid ∧ decide0 s lid ((argWords s (s.l lid)).getD []) places = some (.ok (s1, b)) ∧
      ∃ e ∈ s1.clusters, 64 < e.2.tasks.length) id) ∧
  (∀ lid places r, Works (.class0Admission lid places)
    (fun s => first0 s lid ∧ decide0 s lid ((argWords s (s.l lid)).getD []) places = some (.error r)) fun s =>
      releaseLaunch (complete (s.setLaunch lid { s.l lid with st := .retired }) (s.l lid).q (s.l lid).tag (s.l lid).notify 1 r)
        (s.l lid).q) ∧
  (∀ lid places s1, Works (.blockPlace lid places)
    (fun s => classHead s (s.l lid).cls = some lid ∧ noneHigher s (s.l lid).cls = true ∧ (s.l lid).task = false ∧
      places.length = (if (s.l lid).coop then (s.l lid).blocks - (s.l lid).placed else 1) ∧ placeMany s lid places = some s1)
    fun _ => s1) ∧
  (∀ lid cl, Works (.blockPlace lid [[cl]])
    (fun s => classHead s (s.l lid).cls = some lid ∧ noneHigher s (s.l lid).cls = true ∧ (s.l lid).task = true ∧
      cl ∈ taskClusters s (s.l lid)) fun s => enterTask s lid cl) ∧
  (∀ cl n cores t, Works (.taskPlace cl n cores)
    (fun s => (s.cluster cl).tasks[n]? = some t ∧ nextTask (s.cluster cl) = some n ∧ (s.l t.lid).coop = false ∧
      (∃ k ∈ cores, clusterOf k = cl) ∧ cores ∈ (s.l t.lid).positions ∧ goodPosition s (s.l t.lid) cores = true ∧
      freePrivate s ≠ none ∧ noneHigher s (s.l t.lid).cls = true) fun s =>
      let c := s.cluster cl
      let s1 := placeBlock (s.setCluster cl { c with tasks := c.tasks.eraseIdx n }) t.lid t.lin cores
      s1.setLaunch t.lid { s1.l t.lid with placed := (s.l t.lid).placed }) ∧
  (∀ cl n cores t s1, Works (.taskPlace cl n cores)
    (fun s => (s.cluster cl).tasks[n]? = some t ∧ nextTask (s.cluster cl) = some n ∧ (s.l t.lid).coop = true ∧
      noneHigher s (s.l t.lid).cls = true ∧ standCoop s t.lid = some s1) fun _ => s1) ∧
  (∀ bid, 
    let admits (s : State) : Prop :=
      (s.b bid).st = .placed ∧ (s.l (s.b bid).lid).ending = false ∧ powerOk s (chargesDue s (s.b bid)) = true ∧
      ((s.l (s.b bid).lid).task = true → ∀ k ∈ (s.b bid).cores, (s.cluster (clusterOf k.core)).noTask = false)
    let fresh (s : State) : Prop := admits s ∧ s.group (gidOf bid 0) = none ∧ reads s (s.b bid).lid ∧
      ((s.l (s.b bid).lid).cls = 0 → tagsMissing s (s.l (s.b bid).lid) (s.b bid).lin ((s.b bid).cores.map (·.core)) = false)
    (∀ args, Works (.blockAdmit bid) (fun s => fresh s ∧ argWords s (s.l (s.b bid).lid) = some args)
      fun s => fragmentReady (leaveTable (admitBlock s bid args) (s.b bid).lid (s.b bid).lin) bid) ∧
    Works (.blockAdmit bid) (fun s => fresh s ∧ argWords s (s.l (s.b bid).lid) = none) (fun s => endUnread s (s.b bid).lid) ∧
    Works (.blockAdmit bid) (fun s => admits s ∧ (s.group (gidOf bid 0)).isSome = true) (fun s => admitBlock s bid [])) ∧
  (∀ bid, Works (.blockThrottle bid) (fun s => ((s.b bid).st = .admitted ∨ (s.b bid).st = .preempting) ∧ (s.l (s.b bid).lid).energy ≠ 0) fun s =>
    s.setBlock bid { s.b bid with
      throttled := (s.b bid).cores.foldl (fun m k => NSet.add m (clusterOf k.core)) (s.b bid).throttled }) ∧
  (∀ bid b, Works (.blockRetire bid) (fun s => s.block bid = some b ∧ b.st = .admitted ∧ blockDone s bid b = true ∧ blockHeld s bid = false)
    fun s => retireBlock s bid) ∧
  (∀ core quarter, Works (.issueArbitration core quarter) (fun s => winner (refuseAll s core quarter) core quarter = none)
    fun s => refuseAll s core quarter) ∧
  (∀ core quarter gid slices, Works (.issueArbitration core quarter)
    (fun s => winner (refuseAll s core quarter) core quarter = some (gid, slices)) fun s =>
      let s1 := refuseAll s core quarter
      { (s1.modGroup gid fun g => g.modNar slices fun n => { n with last := s1.turns + 1, st := .ready }) with
        turns := s1.turns + 1, cur := some (gid, slices) }) ∧
  (∀ gid n x l, Works (.lowerClassPark gid n)
    (fun s => (s.g gid).narrow n = some x ∧ x.st = .parked ∧ x.why = .cells l ∧
      ∃ y ∈ candidates s (s.g gid).core (s.g gid).quarter, classOf s y.2.1 < classOf s (s.g gid))
    fun s => s.modGroup gid fun g => g.modNar n fun x => { x with why := .lower l }) ∧
  (∀ gid n p, Works (.longLatencyWriteback gid n)
    (fun s => (s.g gid).pend.find? (fun p => p.n == n) = some p ∧ p.job = none ∧
      (memHeld s = true → p.far = false)) fun s =>
      p.writes.foldl (fun st w => landCell st gid w)
        (s.modGroup gid fun g => { g with pend := g.pend.filter fun q => q.n != n })) ∧
  (∀ gid n, Works (.watchdogExpiry gid)
    (fun s => (s.launchOf (s.g gid).bid).wdogLimit ≠ 0 ∧ (s.launchOf (s.g gid).bid).wdogLimit ≤ (s.g gid).wdog ∧
      (s.g gid).stop = none ∧ (s.g gid).susp = [] ∧ trapHeld s gid = false ∧ waitingNarrow s gid (s.g gid) = some n) fun s =>
      let h := hdrAt s gid ((s.g gid).issuePc n)
      takeTrap (s.modGroup gid fun g => { g with wdog := 0 }) (soloUnit s h gid n.slices) h false
        { cause := 0x122, info := (s.g gid).wdog }) ∧
  (∀ bid b, Works (.blockPreempt bid) (fun s => s.block bid = some b ∧ (b.st = .admitted ∨ b.st = .placed) ∧
      (onLeavingDie s b = true ∨ (ownsTile s b = false ∧ ∃ c, c < (s.l b.lid).cls ∧ needsRoom s c = true)))
    fun s => settle (s.setBlock bid { b with st := .preempting })) ∧
  (∀ bid s, s.host.fatal = none → (s.b bid).st = .preempting → readyToSave s bid = true → ownsTile s (s.b bid) = false → memHeld s = false →
    ∃ t, exec (.preemptSave bid) s = .next t ∧ (t.b bid).st = .preempted ∧ (t.b bid).seats = [] ∧ (t.b bid).charge = []) ∧
  (∀ bid cores s, s.host.fatal = none → (s.b bid).st = .preempted → (s.l (s.b bid).lid).ending = false →
    cores ∈ (s.l (s.b bid).lid).positions → goodPosition s (s.l (s.b bid).lid) cores = true →
    ((s.l (s.b bid).lid).coop = true → couldHold s (s.l (s.b bid).lid) = true) →
    ∃ t, exec (.blockResume bid cores) s = .next t ∧ (t.b bid).st = .placed ∧
      (t.b bid).seats = cores.flatMap fun c => (coreSeats s (s.l (s.b bid).lid) c).map fun x => (x.1, x.2.1)) ∧
  (∀ gid n o, Works (.asyncOpComplete gid n)
    (fun s => (s.g gid).ops.find? (fun o => o.n == n && !o.complete) = some o ∧ oldestOp (s.g gid) o = true ∧
      arrayTurn s gid n o.job.op = true ∧ opWaits s gid o = false) fun s =>
      if (runOp s gid o).ended then endOp (runOp s gid o).st gid o (runOp s gid o) else (runOp s gid o).st) ∧
  (∀ gid e rest, Works (.storeQueueDrain gid)
    (fun s => (s.g gid).sq = e :: rest ∧ lineNeeded s (locCore s gid e.loc) e.loc = none ∧
      (memHeld s = true → locFar s (s.g gid).core true e.loc = false)) fun s =>
    performStore (s.modGroup gid fun g => { g with sq := rest }) gid e) ∧
  ∀ gid e rest line,
    let waits (s : State) : Prop := (s.g gid).sq = e :: rest ∧ lineNeeded s (locCore s gid e.loc) e.loc = some line
    Works (.storeQueueDrain gid) (fun s => waits s ∧ (s.line line).asked (dieOf (locCore s gid e.loc)) = true) id ∧
    Works (.storeQueueDrain gid) (fun s => waits s ∧ (s.line line).asked (dieOf (locCore s gid e.loc)) = false) fun s =>
      let core := locCore s gid e.loc
      requestLine s line { kind := if (s.line line).lists (dieOf core) then 0 else 1, die := dieOf core, core := some core, near := none
                           zero := (s.launchOf (s.g gid).bid).cls == 0, at_ := (0, 0) }

namespace Sys2Proof.Claims

/-- A die becomes the owner of a line, its waiting stores are applied, and the home agent serves the next request (R307,
R308). -/
def granted (s : State) (line : Nat) (l : DirLine) (die : Nat) (core : Option Nat) : State :=
  serveWaiting line (applyStores (s.setLine line (ownedBy l die core)) die line)

/-- The snoop filters of a line less a die's cores. -/
def without (l : DirLine) (die : Nat) : DirLine := { l with cores := l.cores.filter fun k => !(dieOf k == die) }

/-- A die drops its copies of a line: its stash lines, and the cores that its snoop filter lists (R18, R263). -/
def dropped (s : State) (die line : Nat) (l : DirLine) : State := (dropDieStash s die line).setLine line (without l die)

end Sys2Proof.Claims

/-- R18, R50, R56, R263, R269, R307 to R309: the messages of the directory about a line, where no slot holds what crosses a die
link. A request takes its place at the home agent, or waits in a link queue with room; a write-back whose ownership has passed on is
dropped.
Choices of the model: logs 5, 118, 119, 152. -/
def Obligations.DirectoryMessages : Prop := ∀ (die line : Nat),
  let l (s : State) : DirLine := s.line line
  let crosses (s : State) (d : Nat) : Prop := memHeld s = true ∧ homeDie (128 * line) ≠ d
  let r (k : Nat) (near : Option Nat) (s : State) : DirReq :=
    { kind := k, die := die, core := none, near := near, zero := false, at_ := (s.pkg.frame.toNat, s.pkg.ns) }
  let asks (i : Instr) (k : Nat) (near : State → Option Nat) : Prop :=
    Works i (fun s => die ≤ 8 ∧ ¬ crosses s die)
      (fun s => s.setLine line { l s with queue := enqueue (r k (near s) s) (l s).queue }) ∧
    Works i (fun s => die ≤ 8 ∧ crosses s die ∧ sentBy s die ≤ Config.linkDepth)
      (fun s => s.setLine line { l s with sent := (l s).sent ++ [r k (near s) s] }) ∧
    Works i (fun s => crosses s die ∧ Config.linkDepth < sentBy s die) id
  asks (.upgrade die line) 0 (fun _ => none) ∧
  asks (.readExclusive die line) 1 (fun _ => none) ∧
  (∀ near, asks (.readShared die line near) 2 fun s =>
    near.filter fun k => k / 3 == die && sliceOfPa s (128 * line) / 4 != k) ∧
  Works (.invalidation die line)
    (fun s => NSet.has (l s).acks die = true ∧ NSet.has (l s).sharers die = true ∧ ¬ crosses s die)
    (fun s => dropped s die line { l s with sharers := NSet.del (l s).sharers die }) ∧
  Works (.invalidationAcknowledgement die line)
    (fun s => NSet.has (l s).acks die = true ∧ NSet.has (l s).sharers die = false ∧ ¬ crosses s die ∧ ¬ crosses s (l s).owner)
    (fun s =>
      let l1 : DirLine := { l s with acks := NSet.del (l s).acks die }
      if l1.st = 4 ∧ l1.acks = [] then granted s line l1 l1.owner (l1.serving.bind (·.core)) else s.setLine line l1) ∧
  Works (.forwardedSnoop die line) (fun s => (l s).st = 5 ∧ (l s).owner = die ∧ (l s).snooped = false ∧ ¬ crosses s die)
    (fun s => dropped s die line { l s with
      snooped := true, wbPend := NSet.has (l s).wbuf die && !NSet.has (l s).wbAck die }) ∧
  (∀ next, Works (.snoopAcknowledgement die line)
    (fun s => (l s).serving = some next ∧ (l s).st = 5 ∧ (l s).owner = die ∧ (l s).snooped = true ∧ (l s).acks = [] ∧
      memHeld s = false) fun s =>
      let l1 : DirLine :=
        if (l s).wbPend = false ∨ NSet.has (l s).wbuf die = false ∨ NSet.has (l s).wbAck die = true then l s
        else if NSet.has (l s).wbHome die = true then
          { l s with wbHome := NSet.del (l s).wbHome die, wbAck := NSet.add (l s).wbAck die }
        else { l s with stale := NSet.add (l s).stale die }
      granted s line l1 next.die next.core) ∧
  Works (.writeBack die line) (fun s => NSet.has (l s).wbuf die = true ∧ NSet.has (l s).wbAck die = false ∧
      NSet.has (l s).wbHome die = false ∧ memHeld s = false) (fun s =>
      s.setLine line (if NSet.has (l s).stale die = true then
          { l s with stale := NSet.del (l s).stale die, wbAck := NSet.add (l s).wbAck die }
        else if (l s).st = 5 ∧ (l s).owner = die then { l s with wbHome := NSet.add (l s).wbHome die }
        else if ((l s).st = 2 ∨ (l s).st = 3) ∧ (l s).owner = die then
          { l s with wbAck := NSet.add (l s).wbAck die, st := if (l s).sharers = [] then 0 else 1, owner := 0 }
        else { l s with wbAck := NSet.add (l s).wbAck die })) ∧
  Works (.writeBackAcknowledgement die line) (fun s => NSet.has (l s).wbAck die = true ∧ ¬ crosses s die)
    (fun s => s.setLine line { l s with wbAck := NSet.del (l s).wbAck die, wbuf := NSet.del (l s).wbuf die }) ∧
  (∀ r, Works (.exclusiveDataGrant die line)
    (fun s => (l s).st = 6 ∧ (l s).serving = some r ∧ r.die = die ∧ (l s).acks = [] ∧ memHeld s = false)
    fun s => granted s line (l s) die r.core) ∧
  Works (.lineEviction die line)
    (fun s => ((l s).st = 2 ∨ (l s).st = 3 ∨ ((l s).st = 5 ∧ (l s).snooped = false)) ∧ (l s).owner = die ∧
      NSet.has (l s).wbuf die = false)
    fun s => s.setLine line { without (l s) die with wbuf := NSet.add (l s).wbuf die }

/-- R50, R133 to R149, R152, R155 to R160, R494, R495, R497, R502, R503, R507: the steps of the draw engine on the tiles of a draw,
whose bytes wait for the end of a slot, with the directory's entries, and of the ray engine on the rays of a thread, whose home goes
on beside its hit program.
Choices of the model: logs 35, 70, 75, 80, 101, 103, 104, 105, 106, 107, 108, 110, 127, 128, 138, 156. -/
def Obligations.DrawAndRaySteps : Prop := ∀ (k : Nat) (d : Draw),
  let at_ (s : State) : Prop := s.draw k = some d ∧ d.ended = 0
  Works (.emitBufferRead k) (fun s => at_ s ∧ retiredBlock s d.mesh d.nextBlock = true) (fun s =>
    let l := submitted (FMap.get [] d.emitted d.nextBlock)
    s.setDraw k { d with
      queue := d.queue ++ numbered d.nextSeq l, nextSeq := d.nextSeq + l.length, nextBlock := d.nextBlock + 1
      emitted := FMap.set [] d.emitted d.nextBlock [] }) ∧
  (∀ p rest, d.queue = p :: rest → d.flush = false →
    (primTiles d p = [] → Works (.primitiveBin k) at_ fun s => s.setDraw k { d with queue := rest }) ∧
    (primTiles d p ≠ [] → d.units < unitsFor d p (primTiles d p) →
      Works (.primitiveBin k) at_ fun s => endDraw s k (drawCause 4) none) ∧
    (primTiles d p ≠ [] → unitsFor d p (primTiles d p) ≤ d.units → d.units < d.used + unitsFor d p (primTiles d p) →
      Works (.primitiveBin k) at_ fun s => s.setDraw k { d with flush := true }) ∧
    (primTiles d p ≠ [] → d.used + unitsFor d p (primTiles d p) ≤ d.units →
      Works (.primitiveBin k) (fun s => at_ s ∧ memBusy s = false) fun s =>
        let d0 := { d with queue := rest }
        let need := unitsFor d p (primTiles d p)
        let q := { p with units := (freeUnits d need).take (if p.gauss then 1 else d.triUnits) }
        let x := (primTiles d p).foldl (binTile q)
          (writeRecord s d0 q, d0, (freeUnits d need).drop (if p.gauss then 1 else d.triUnits))
        x.1.setDraw k { x.2.1 with stored := d.stored ++ [q], used := d.used + need })) ∧
  (d.flush = true → d.used = gaussUnits d → Works (.partialFlush k) at_ fun s => endDraw s k (drawCause 4) none) ∧
  (∀ d1, d.flush = true → d.used ≠ gaussUnits d → (∀ i ∈ flushTiles d, (d.tile i).st = .owned ∧ rendered d i = true) →
    Works (.partialFlush k)
      (fun s => at_ s ∧ memBusy s = false ∧ (∀ i ∈ flushTiles d, tileOpLive s k i = false ∧ stagesHeld s d i = false) ∧
        ((flushTiles d).foldl (fun st i => takeTile st k i) s).draw k = some d1) fun s =>
      ((flushTiles d).foldl (fun st i => takeTile st k i) s).setDraw k { d1 with
        flush := false, used := gaussUnits d, stored := d1.stored.filter (·.gauss)
        tiles := d1.tiles.map fun (e : Nat × TileRec) => (e.1, freeTris e.2) }) ∧
  (∀ tile core s1, tile < d.ntiles → core < 384 → ((d.tile tile).st = .listed ∨ (d.tile tile).st = .checkpointed) →
    Works (.tileAssign k tile core)
      (fun s => at_ s ∧ memBusy s = false ∧ dieOnline s (dieOf core) = true ∧ holdBlock s d core = some s1) fun s =>
      (writeEntry (s1.setCore core { s1.core core with opth := BitVec.ofNat 32 d.opth }) d tile).setDraw k
        (d.setTile tile { restoredTile s d tile with st := .owned, owner := some core })) ∧
  (∀ tile core, tile < d.ntiles → (d.tile tile).st = .owned → (d.tile tile).owner = some core → wavesIn d tile = [] →
    Works (.tileCheckpoint k tile)
      (fun s => at_ s ∧ memBusy s = false ∧ tileOpLive s k tile = false ∧ stagesHeld s d tile = false ∧
        ((s.die (dieOf core)).st = 1 ∨ ((d.tile tile).added = false ∧ (s.l d.frag).nstage = 1)))
      fun s => takeTile s k tile) ∧
  (∀ tile gid g q b, tile < d.ntiles → (d.tile tile).st = .owned → (d.tile tile).owner = some g.core → nextWave d tile = some (q, b) →
    Works (.fragmentWaveDispatch k tile gid)
      (fun s => at_ s ∧ s.group gid = some g ∧ waveReady s d gid g = true ∧ ∀ w ∈ wavesIn d tile, waveHeld s w.gid = false)
      fun s =>
      let tri := triOf d.attr ((triWords d q).getD [])
      let lanes := blockLanes d tri tile b
      let w : Wave := { gid := gid, tile := tile, seq := q, ended := false
                        pixels := lanes.map fun x => (x.1, x.2.2.1 * 65536 + x.2.1) }
      (s.setDraw k { d.setTile tile { d.tile tile with nextSeq := q, nextBlock := b + 1 } with
        waves := d.waves ++ [w] }).setGroup gid (waveGroup s d g tri q lanes)) ∧
  (d.binned = false → d.flush = false → d.queue = [] → Works (.binningEnd k)
    (fun s => at_ s ∧ d.nextBlock = (s.l d.mesh).blocks ∧ memBusy s = false)
    fun s => (((List.range d.ntiles).filter fun i => (d.tile i).st == .empty).foldl (fun st i => writeEntry st d i) s).setDraw k
      { (List.range d.ntiles).foldl afterBinning d with binned := true }) ∧
  (∀ tile, tileDone d tile = true →
    let d1 := { d.setTile tile { TileRec.cleared with st := .retired } with waves := d.waves.filter fun w => w.tile != tile }
    Works (.tileRetire k tile) (fun s => s.draw k = some d ∧ memBusy s = false ∧ tileOpLive s k tile = false) fun s =>
      let s1 := writeEntry (resolveTile s d tile (composited d tile)) d tile
      if (List.range d.ntiles).all fun i => (d1.tile i).st == .retired then finishDraw s1 k d1 else s1.setDraw k d1) ∧
  (∀ gid lane r c rest, r.stack = c :: rest → Works (.childRayTrace gid lane)
    (fun s => rayWhere s gid lane (fun r => r.isOver s && !r.stack.isEmpty) = some r) fun s =>
      modRay s gid r fun x => { x with
        primary := r.keepPrimary s, stack := rest, traced := x.traced + 1, org := c.org, tmin := 0, dir := c.dir
        gen := c.gen, seen := [], best := none, cand := none, ended := false }) ∧
  (∀ gid lane r, Works (.hitRecordFill gid lane)
    (fun s => rayWhere s gid lane (fun r => r.isOver s && r.stack.isEmpty) = some r ∧
      ∀ h ∈ hitGroupsOf s gid, groupHeld s h = false) fun s =>
      let words := (r.keepPrimary s).take 7 ++ [r.traced]
      let fill (p : Pending) : Pending :=
        if p.n == r.n then { p with writes := (p.writes.map (·.1)).zip (words.map (BitVec.ofNat 96)), job := none } else p
      landWrite (((hitGroupsOf s gid).foldl drainAll s).modGroup gid fun g =>
        { g with rays := g.rays.filter fun x => x.n != r.n, pend := g.pend.map fill }) gid r.n) ∧
  ∀ bid core pc (calls : List (Nat × Nat × Nat × Ray × RayHit)),
    let lanes := calls.map fun x => (x.1, x.2.1)
    calls ≠ [] → calls.length ≤ 32 → rising (calls.map fun x => 32 * x.1 + x.2.1) = true → (∀ x ∈ calls, x.2.1 < 32) →
    Works (.hitDispatch bid core (calls.map fun x => (32 * x.1 + x.2.1, x.2.2.1)))
      (fun s => ∀ x ∈ calls, callable s x.1 x.2.1 x.2.2.1 = some x.2.2.2 ∧ hitTarget x.2.2.2.1 x.2.2.2.2 = pc ∧
        (s.group x.1).isSome = true ∧ (s.g x.1).bid = bid ∧ (s.g x.1).core = core ∧ canLend s x.1 = true) fun s =>
      let s1 := calls.foldl (fun st x => modRay st x.1 x.2.2.2.1 fun y =>
        { y with cand := some x.2.2.2.2, seen := y.seen ++ [x.2.2.2.2.prim] }) s
      { s1.setGroup (gidOf s.nextBlock 0) (hitGroup s lanes pc) with nextBlock := s.nextBlock + 1 }
end

