-- ==== Sys2Proof/Laws/Encode.lean ====
section
/-!
SUPPORT. Every format is read back from the word that holds its encoding: operands, header and the seven formats.
-/

namespace Sys2Proof

set_option Elab.async false

variable {m n : Nat}

theorem extract_hi {k w : Nat} (x : BitVec m) (y : BitVec n) (h : n ≤ k) :
    (x ++ y).extractLsb' k w = x.extractLsb' (k - n) w := by
  apply BitVec.eq_of_getLsbD_eq
  intro i hi
  have h1 : ¬ k + i < n := by omega
  have h2 : k + i - n = k - n + i := by omega
  simp [BitVec.getLsbD_append, h1, h2]

theorem extract_lo {k w : Nat} (x : BitVec m) (y : BitVec n) (h : k + w ≤ n) :
    (x ++ y).extractLsb' k w = y.extractLsb' k w := by
  apply BitVec.eq_of_getLsbD_eq
  intro i hi
  have h1 : k + i < n := by omega
  simp [BitVec.getLsbD_append, h1]

theorem extract_all (x : BitVec m) : x.extractLsb' 0 m = x := by simp

theorem bit_hi {k : Nat} (x : BitVec m) (y : BitVec n) (h : n ≤ k) : (x ++ y).getLsbD k = x.getLsbD (k - n) := by
  have h1 : ¬ k < n := by omega
  simp [BitVec.getLsbD_append, h1]

theorem bit_lo {k : Nat} (x : BitVec m) (y : BitVec n) (h : k < n) : (x ++ y).getLsbD k = y.getLsbD k := by
  simp [BitVec.getLsbD_append, h]

theorem bit_bool (b : Bool) : (BitVec.ofBool b).getLsbD 0 = b := by cases b <;> rfl

theorem decodeOpnd_encodeOpnd (o : Opnd) (h : o.wf = true) : decodeOpnd (encodeOpnd o) = o := by
  cases o with
  | rsvd x => exact of_decide_eq_true h
  | zr => rfl
  | imm k =>
    simp only [Opnd.wf, Bool.and_eq_true, decide_eq_true_eq] at h
    obtain ⟨h1, h2⟩ := h
    interval_cases k <;> rfl
  | v n =>
    have h : n < 256 := by simpa [Opnd.wf] using h
    have e : n % 1024 = n := Nat.mod_eq_of_lt (by omega)
    simp [decodeOpnd, encodeOpnd, e, h]
  | s n =>
    have h : n < 160 := by simpa [Opnd.wf] using h
    have e : (256 + n) % 1024 = 256 + n := Nat.mod_eq_of_lt (by omega)
    simp [decodeOpnd, encodeOpnd, e, show 256 + n < 416 by omega]
  | spec n =>
    have h : n < 32 := by simpa [Opnd.wf] using h
    interval_cases n <;> rfl
  | t n =>
    have h : n < 8 := by simpa [Opnd.wf] using h
    interval_cases n <;> rfl
  | d n =>
    have h : n < 16 := by simpa [Opnd.wf] using h
    interval_cases n <;> rfl
  | c n =>
    have h : n < 4 := by simpa [Opnd.wf] using h
    interval_cases n <;> rfl

theorem decodeSrc_encodeSrc (x : Src) (h : x.wf = true) : decodeSrc (encodeSrc x) = x := by
  obtain ⟨ep, lr, reg⟩ := x
  have hr := decodeOpnd_encodeOpnd reg h
  simp (disch := omega) only [decodeSrc, encodeSrc, extract_lo, extract_all, bit_hi, bit_lo, bit_bool, Nat.sub_self, Nat.reduceSub, hr]

theorem decodeScope_encodeScope (x : Scope) : decodeScope (encodeScope x) = x := by cases x <;> rfl

theorem decodeCond_encodeCond (x : Cond) : decodeCond (encodeCond x) = x := by cases x <;> rfl

variable (op : BitVec 8) (h : Hdr)

theorem decodeHdr_joinWord (b : BitVec 79) : decodeHdr (joinWord op h b) = h := by
  obtain ⟨sc, gc, cond, fin⟩ := h
  simp (disch := omega) only [decodeHdr, joinWord, encodeHdr, extract_hi, extract_lo, extract_all, bit_hi, bit_lo, bit_bool,
    Nat.sub_self, Nat.reduceSub, decodeScope_encodeScope, decodeCond_encodeCond]
  congr 1
  apply Fin.ext
  simp

theorem row_joinWord (b : BitVec 79) : (joinWord op h b).extractLsb' 92 4 = op.extractLsb' 4 4 := by
  exact extract_hi _ _ (by omega)

theorem col_joinWord (b : BitVec 79) : (joinWord op h b).extractLsb' 88 4 = op.extractLsb' 0 4 := by
  exact extract_hi _ _ (by omega)

theorem decodeA_encodeA (f : FmtA) (hf : f.wf = true) : decodeA (joinWord op h (encodeA f)) = f := by
  simp only [FmtA.wf, Bool.and_eq_true] at hf
  obtain ⟨⟨⟨h1, h2⟩, h3⟩, h4⟩ := hf
  simp (disch := omega) only [decodeA, encodeA, joinWord, extract_hi, extract_lo, extract_all, Nat.sub_self, Nat.reduceSub,
    decodeOpnd_encodeOpnd _ h1, decodeSrc_encodeSrc _ h2, decodeSrc_encodeSrc _ h3, decodeSrc_encodeSrc _ h4]

theorem decodeI_encodeI (f : FmtI) (hf : f.wf = true) : decodeI (joinWord op h (encodeI f)) = f := by
  simp only [FmtI.wf, Bool.and_eq_true] at hf
  simp (disch := omega) only [decodeI, encodeI, joinWord, extract_hi, extract_lo, extract_all, Nat.sub_self, Nat.reduceSub,
    decodeOpnd_encodeOpnd _ hf.1, decodeSrc_encodeSrc _ hf.2]

theorem decodeM_encodeM (f : FmtM) (hf : f.wf = true) : decodeM (joinWord op h (encodeM f)) = f := by
  simp only [FmtM.wf, Bool.and_eq_true] at hf
  simp (disch := omega) only [decodeM, encodeM, joinWord, extract_hi, extract_lo, extract_all, Nat.sub_self, Nat.reduceSub,
    decodeOpnd_encodeOpnd _ hf.1.1, decodeSrc_encodeSrc _ hf.1.2, decodeSrc_encodeSrc _ hf.2]

theorem decodeE_encodeE (f : FmtE) (hf : f.wf = true) : decodeE (joinWord op h (encodeE f)) = f := by
  simp only [FmtE.wf, Bool.and_eq_true] at hf
  simp (disch := omega) only [decodeE, encodeE, joinWord, extract_hi, extract_lo, extract_all, bit_hi, bit_lo, bit_bool, Nat.sub_self,
    Nat.reduceSub, decodeOpnd_encodeOpnd _ hf.1.1, decodeSrc_encodeSrc _ hf.1.2, decodeSrc_encodeSrc _ hf.2]

theorem decodeX_encodeX (f : FmtX) (hf : f.wf = true) : decodeX (joinWord op h (encodeX f)) = f := by
  simp only [FmtX.wf, Bool.and_eq_true] at hf
  simp (disch := omega) only [decodeX, encodeX, joinWord, extract_hi, extract_lo, extract_all, Nat.sub_self, Nat.reduceSub,
    decodeSrc_encodeSrc _ hf.1.1, decodeSrc_encodeSrc _ hf.1.2, decodeSrc_encodeSrc _ hf.2]

theorem decodeB_encodeB (f : FmtB) (hf : f.wf = true) : decodeB (joinWord op h (encodeB f)) = f := by
  obtain ⟨tgt, await, safe, hint, fn⟩ := f
  simp only [FmtB.wf, Bool.and_eq_true, decide_eq_true_eq] at hf
  match await, hf with
  | [a, b, c, d], hf =>
    simp only [List.all_cons, List.all_nil, Bool.and_true, Bool.and_eq_true] at hf
    obtain ⟨-, ha, hb, hc, hd⟩ := hf
    simp (disch := omega) only [decodeB, encodeB, joinWord, awaitAt, List.getD_cons_zero, List.getD_cons_succ, extract_hi, extract_lo,
      extract_all, bit_hi, bit_lo, bit_bool, Nat.sub_self, Nat.reduceSub, decodeOpnd_encodeOpnd _ ha, decodeOpnd_encodeOpnd _ hb,
      decodeOpnd_encodeOpnd _ hc, decodeOpnd_encodeOpnd _ hd]

theorem decodeC_encodeC (f : FmtC) (hf : f.wf = true) : decodeC (joinWord op h (encodeC f)) = f := by
  obtain ⟨await, safe, hint, rsv⟩ := f
  simp only [FmtC.wf, Bool.and_eq_true, decide_eq_true_eq] at hf
  match await, hf with
  | [a, b, c, d, e, g, i], hf =>
    simp only [List.all_cons, List.all_nil, Bool.and_true, Bool.and_eq_true] at hf
    obtain ⟨-, ha, hb, hc, hd, he, hg, hi⟩ := hf
    simp (disch := omega) only [decodeC, encodeC, joinWord, awaitAt, List.getD_cons_zero, List.getD_cons_succ, extract_hi, extract_lo,
      extract_all, bit_hi, bit_lo, bit_bool, Nat.sub_self, Nat.reduceSub, decodeOpnd_encodeOpnd _ ha, decodeOpnd_encodeOpnd _ hb,
      decodeOpnd_encodeOpnd _ hc, decodeOpnd_encodeOpnd _ hd, decodeOpnd_encodeOpnd _ he, decodeOpnd_encodeOpnd _ hg,
      decodeOpnd_encodeOpnd _ hi]

end Sys2Proof
end

