-- ==== Sys2Proof/Laws/Map.lean ====
section
/-!
SUPPORT. The laws of the sparse map: what is read after a write, and that writes keep the canonical form.
-/

namespace Sys2Proof

variable {α : Type}

@[simp] theorem FMap.get_nil (d : α) (k : Nat) : FMap.get d ([] : FMap α) k = d := rfl

/-- A key below which nothing is listed reads the default. -/
theorem FMap.get_of_rising {d : α} {m : FMap α} {lo k : Nat} (h : FMap.risingFrom lo m = true) (hk : k < lo) :
    FMap.get d m k = d := by
  induction m generalizing lo with
  | nil => rfl
  | cons e m ih =>
    obtain ⟨j, a⟩ := e
    simp only [FMap.risingFrom, Bool.and_eq_true, decide_eq_true_eq] at h
    simp only [FMap.get]
    rw [if_neg (by omega)]
    exact ih h.2 (by omega)

/-- Rising from a key is rising from a lower one. -/
theorem FMap.rising_mono {m : FMap α} {lo lo' : Nat} (h : FMap.risingFrom lo m = true) (hk : lo' ≤ lo) :
    FMap.risingFrom lo' m = true := by
  cases m with
  | nil => rfl
  | cons e m =>
    obtain ⟨j, a⟩ := e
    simp only [FMap.risingFrom, Bool.and_eq_true, decide_eq_true_eq] at h ⊢
    exact ⟨by omega, h.2⟩

/-- An entry put in reads back; other keys read as before. -/
theorem FMap.get_insert (d : α) (m : FMap α) (k j : Nat) (b : α) :
    FMap.get d (FMap.insert m k b) j = if j = k then b else FMap.get d m j := by
  induction m with
  | nil => simp [FMap.insert, FMap.get]
  | cons e m ih =>
    obtain ⟨i, a⟩ := e
    simp only [FMap.insert]
    split
    · next h => subst h; simp only [FMap.get]; split <;> simp_all
    · split
      · simp only [FMap.get]
      · simp only [FMap.get, ih]; split <;> split <;> simp_all

/-- An entry taken out does not change another key. -/
theorem FMap.get_erase_ne (d : α) (m : FMap α) {k j : Nat} (h : j ≠ k) :
    FMap.get d (FMap.erase m k) j = FMap.get d m j := by
  induction m with
  | nil => rfl
  | cons e m ih =>
    obtain ⟨i, a⟩ := e
    simp only [FMap.erase]
    split
    · next hk => subst hk; simp [FMap.get, h]
    · split
      · rfl
      · simp only [FMap.get, ih]

/-- In a rising map, a key taken out reads the default. -/
theorem FMap.get_erase_self (d : α) {m : FMap α} {lo : Nat} (hr : FMap.risingFrom lo m = true) (k : Nat) :
    FMap.get d (FMap.erase m k) k = d := by
  induction m generalizing lo with
  | nil => rfl
  | cons e m ih =>
    obtain ⟨i, a⟩ := e
    simp only [FMap.risingFrom, Bool.and_eq_true, decide_eq_true_eq] at hr
    simp only [FMap.erase]
    split
    · next hk => subst hk; exact FMap.get_of_rising hr.2 (by omega)
    · split
      · next h1 h2 =>
        simp only [FMap.get, h1, if_false]
        exact FMap.get_of_rising hr.2 (by omega)
      · next h1 h2 => simp only [FMap.get, h1, if_false]; exact ih hr.2

theorem FMap.rising_insert {m : FMap α} {lo k : Nat} (h : FMap.risingFrom lo m = true) (hk : lo ≤ k) (b : α) :
    FMap.risingFrom lo (FMap.insert m k b) = true := by
  induction m generalizing lo with
  | nil => simp [FMap.insert, FMap.risingFrom, hk]
  | cons e m ih =>
    obtain ⟨i, a⟩ := e
    simp only [FMap.risingFrom, Bool.and_eq_true, decide_eq_true_eq] at h
    simp only [FMap.insert]
    split
    · next h1 => subst h1; simp [FMap.risingFrom, h]
    · split
      · simp only [FMap.risingFrom, Bool.and_eq_true, decide_eq_true_eq]; exact ⟨hk, by omega, h.2⟩
      · simp only [FMap.risingFrom, Bool.and_eq_true, decide_eq_true_eq]; exact ⟨h.1, ih h.2 (by omega)⟩

theorem FMap.rising_erase {m : FMap α} {lo : Nat} (h : FMap.risingFrom lo m = true) (k : Nat) :
    FMap.risingFrom lo (FMap.erase m k) = true := by
  induction m generalizing lo with
  | nil => rfl
  | cons e m ih =>
    obtain ⟨i, a⟩ := e
    have h0 := h
    simp only [FMap.risingFrom, Bool.and_eq_true, decide_eq_true_eq] at h
    simp only [FMap.erase]
    split
    · exact FMap.rising_mono h.2 (by omega)
    · split
      · exact h0
      · simp only [FMap.risingFrom, Bool.and_eq_true, decide_eq_true_eq]; exact ⟨h.1, ih h.2⟩

variable [DecidableEq α]

theorem FMap.noDefault_insert {d : α} {m : FMap α} (h : FMap.noDefault d m = true) (k : Nat) {b : α} (hb : b ≠ d) :
    FMap.noDefault d (FMap.insert m k b) = true := by
  induction m with
  | nil => simp [FMap.insert, FMap.noDefault, hb]
  | cons e m ih =>
    obtain ⟨i, a⟩ := e
    simp only [FMap.noDefault, Bool.and_eq_true, decide_eq_true_eq] at h
    simp only [FMap.insert]
    split
    · simp [FMap.noDefault, hb, h.2]
    · split
      · simp [FMap.noDefault, hb, h]
      · simp only [FMap.noDefault, Bool.and_eq_true, decide_eq_true_eq]; exact ⟨h.1, ih h.2⟩

theorem FMap.noDefault_erase {d : α} {m : FMap α} (h : FMap.noDefault d m = true) (k : Nat) :
    FMap.noDefault d (FMap.erase m k) = true := by
  induction m with
  | nil => rfl
  | cons e m ih =>
    obtain ⟨i, a⟩ := e
    have h0 := h
    simp only [FMap.noDefault, Bool.and_eq_true, decide_eq_true_eq] at h
    simp only [FMap.erase]
    split
    · exact h.2
    · split
      · exact h0
      · simp only [FMap.noDefault, Bool.and_eq_true, decide_eq_true_eq]; exact ⟨h.1, ih h.2⟩

/-- A write keeps the canonical form. -/
theorem FMap.wf_set {d : α} {m : FMap α} (h : FMap.wf d m = true) (k : Nat) (b : α) : FMap.wf d (FMap.set d m k b) = true := by
  simp only [FMap.wf, Bool.and_eq_true] at h
  simp only [FMap.set]
  split
  · simp [FMap.wf, FMap.rising_erase h.1, FMap.noDefault_erase h.2]
  · next hb => simp [FMap.wf, FMap.rising_insert h.1, FMap.noDefault_insert h.2 k hb]

@[simp] theorem FMap.wf_nil (d : α) : FMap.wf d ([] : FMap α) = true := rfl

/-- A value written to a canonical map reads back. -/
theorem FMap.get_set_self {d : α} {m : FMap α} (h : FMap.wf d m = true) (k : Nat) (b : α) :
    FMap.get d (FMap.set d m k b) k = b := by
  simp only [FMap.wf, Bool.and_eq_true] at h
  simp only [FMap.set]
  split
  · next hb => rw [hb]; exact FMap.get_erase_self d h.1 k
  · simp [FMap.get_insert]

/-- A write leaves every other key alone. -/
theorem FMap.get_set_ne (d : α) (m : FMap α) {k j : Nat} (b : α) (h : j ≠ k) :
    FMap.get d (FMap.set d m k b) j = FMap.get d m j := by
  simp only [FMap.set]
  split
  · exact FMap.get_erase_ne d m h
  · simp [FMap.get_insert, h]

/-- A value that is not the default reads back from any map. -/
theorem FMap.get_set_of_ne {d : α} (m : FMap α) (k : Nat) {b : α} (h : b ≠ d) :
    FMap.get d (FMap.set d m k b) k = b := by
  simp [FMap.set, h, FMap.get_insert]

/-- A map of optional entries changed entry by entry reads each key so changed. -/
theorem FMap.get_map {β : Type} (f : Nat → Option β → Option β) (hf : ∀ k, f k none = none) (m : FMap (Option β)) (k : Nat) :
    FMap.get none (m.map fun e => (e.1, f e.1 e.2)) k = f k (FMap.get none m k) := by
  induction m with
  | nil => simp [hf]
  | cons e m ih => obtain ⟨j, a⟩ := e; simp only [List.map, FMap.get]; split <;> simp_all

end Sys2Proof
end

