-- ==== Sys2Proof/Laws/State.lean ====
section
/-!
SUPPORT. What each setter of the state changes and what it leaves: one lemma for each field, and what a part reads after it
or another has been set.
-/

namespace Sys2Proof.Machine

variable (s : State)

/-! ### setQueue -/

@[simp] theorem setQueue_mem (n : Nat) (x : Queue) : (s.setQueue n x).mem = s.mem := rfl
@[simp] theorem setQueue_poison (n : Nat) (x : Queue) : (s.setQueue n x).poison = s.poison := rfl
@[simp] theorem setQueue_marks (n : Nat) (x : Queue) : (s.setQueue n x).marks = s.marks := rfl
@[simp] theorem setQueue_ctxs (n : Nat) (x : Queue) : (s.setQueue n x).ctxs = s.ctxs := rfl
@[simp] theorem setQueue_tlb (n : Nat) (x : Queue) : (s.setQueue n x).tlb = s.tlb := rfl
@[simp] theorem setQueue_sliceMap (n : Nat) (x : Queue) : (s.setQueue n x).sliceMap = s.sliceMap := rfl
@[simp] theorem setQueue_l2off (n : Nat) (x : Queue) : (s.setQueue n x).l2off = s.l2off := rfl
@[simp] theorem setQueue_dir (n : Nat) (x : Queue) : (s.setQueue n x).dir = s.dir := rfl
@[simp] theorem setQueue_structs (n : Nat) (x : Queue) : (s.setQueue n x).structs = s.structs := rfl
@[simp] theorem setQueue_pkg (n : Nat) (x : Queue) : (s.setQueue n x).pkg = s.pkg := rfl
@[simp] theorem setQueue_launches (n : Nat) (x : Queue) : (s.setQueue n x).launches = s.launches := rfl
@[simp] theorem setQueue_blocks (n : Nat) (x : Queue) : (s.setQueue n x).blocks = s.blocks := rfl
@[simp] theorem setQueue_groups (n : Nat) (x : Queue) : (s.setQueue n x).groups = s.groups := rfl
@[simp] theorem setQueue_cores (n : Nat) (x : Queue) : (s.setQueue n x).cores = s.cores := rfl
@[simp] theorem setQueue_clusters (n : Nat) (x : Queue) : (s.setQueue n x).clusters = s.clusters := rfl
@[simp] theorem setQueue_draws (n : Nat) (x : Queue) : (s.setQueue n x).draws = s.draws := rfl
@[simp] theorem setQueue_builds (n : Nat) (x : Queue) : (s.setQueue n x).builds = s.builds := rfl
@[simp] theorem setQueue_inbox (n : Nat) (x : Queue) : (s.setQueue n x).inbox = s.inbox := rfl
@[simp] theorem setQueue_cur (n : Nat) (x : Queue) : (s.setQueue n x).cur = s.cur := rfl
@[simp] theorem setQueue_free (n : Nat) (x : Queue) : (s.setQueue n x).free = s.free := rfl
@[simp] theorem setQueue_nextLaunch (n : Nat) (x : Queue) : (s.setQueue n x).nextLaunch = s.nextLaunch := rfl
@[simp] theorem setQueue_nextBlock (n : Nat) (x : Queue) : (s.setQueue n x).nextBlock = s.nextBlock := rfl
@[simp] theorem setQueue_nextDraw (n : Nat) (x : Queue) : (s.setQueue n x).nextDraw = s.nextDraw := rfl
@[simp] theorem setQueue_turns (n : Nat) (x : Queue) : (s.setQueue n x).turns = s.turns := rfl

/-! ### setCore -/

@[simp] theorem setCore_mem (n : Nat) (x : Core) : (s.setCore n x).mem = s.mem := rfl
@[simp] theorem setCore_poison (n : Nat) (x : Core) : (s.setCore n x).poison = s.poison := rfl
@[simp] theorem setCore_marks (n : Nat) (x : Core) : (s.setCore n x).marks = s.marks := rfl
@[simp] theorem setCore_ctxs (n : Nat) (x : Core) : (s.setCore n x).ctxs = s.ctxs := rfl
@[simp] theorem setCore_tlb (n : Nat) (x : Core) : (s.setCore n x).tlb = s.tlb := rfl
@[simp] theorem setCore_sliceMap (n : Nat) (x : Core) : (s.setCore n x).sliceMap = s.sliceMap := rfl
@[simp] theorem setCore_l2off (n : Nat) (x : Core) : (s.setCore n x).l2off = s.l2off := rfl
@[simp] theorem setCore_dir (n : Nat) (x : Core) : (s.setCore n x).dir = s.dir := rfl
@[simp] theorem setCore_structs (n : Nat) (x : Core) : (s.setCore n x).structs = s.structs := rfl
@[simp] theorem setCore_host (n : Nat) (x : Core) : (s.setCore n x).host = s.host := rfl
@[simp] theorem setCore_pkg (n : Nat) (x : Core) : (s.setCore n x).pkg = s.pkg := rfl
@[simp] theorem setCore_launches (n : Nat) (x : Core) : (s.setCore n x).launches = s.launches := rfl
@[simp] theorem setCore_blocks (n : Nat) (x : Core) : (s.setCore n x).blocks = s.blocks := rfl
@[simp] theorem setCore_groups (n : Nat) (x : Core) : (s.setCore n x).groups = s.groups := rfl
@[simp] theorem setCore_clusters (n : Nat) (x : Core) : (s.setCore n x).clusters = s.clusters := rfl
@[simp] theorem setCore_draws (n : Nat) (x : Core) : (s.setCore n x).draws = s.draws := rfl
@[simp] theorem setCore_builds (n : Nat) (x : Core) : (s.setCore n x).builds = s.builds := rfl
@[simp] theorem setCore_inbox (n : Nat) (x : Core) : (s.setCore n x).inbox = s.inbox := rfl
@[simp] theorem setCore_cur (n : Nat) (x : Core) : (s.setCore n x).cur = s.cur := rfl
@[simp] theorem setCore_free (n : Nat) (x : Core) : (s.setCore n x).free = s.free := rfl
@[simp] theorem setCore_nextLaunch (n : Nat) (x : Core) : (s.setCore n x).nextLaunch = s.nextLaunch := rfl
@[simp] theorem setCore_nextBlock (n : Nat) (x : Core) : (s.setCore n x).nextBlock = s.nextBlock := rfl
@[simp] theorem setCore_nextDraw (n : Nat) (x : Core) : (s.setCore n x).nextDraw = s.nextDraw := rfl
@[simp] theorem setCore_turns (n : Nat) (x : Core) : (s.setCore n x).turns = s.turns := rfl

/-! ### setCluster -/

@[simp] theorem setCluster_mem (n : Nat) (x : Cluster) : (s.setCluster n x).mem = s.mem := rfl
@[simp] theorem setCluster_poison (n : Nat) (x : Cluster) : (s.setCluster n x).poison = s.poison := rfl
@[simp] theorem setCluster_marks (n : Nat) (x : Cluster) : (s.setCluster n x).marks = s.marks := rfl
@[simp] theorem setCluster_ctxs (n : Nat) (x : Cluster) : (s.setCluster n x).ctxs = s.ctxs := rfl
@[simp] theorem setCluster_tlb (n : Nat) (x : Cluster) : (s.setCluster n x).tlb = s.tlb := rfl
@[simp] theorem setCluster_sliceMap (n : Nat) (x : Cluster) : (s.setCluster n x).sliceMap = s.sliceMap := rfl
@[simp] theorem setCluster_l2off (n : Nat) (x : Cluster) : (s.setCluster n x).l2off = s.l2off := rfl
@[simp] theorem setCluster_dir (n : Nat) (x : Cluster) : (s.setCluster n x).dir = s.dir := rfl
@[simp] theorem setCluster_structs (n : Nat) (x : Cluster) : (s.setCluster n x).structs = s.structs := rfl
@[simp] theorem setCluster_host (n : Nat) (x : Cluster) : (s.setCluster n x).host = s.host := rfl
@[simp] theorem setCluster_pkg (n : Nat) (x : Cluster) : (s.setCluster n x).pkg = s.pkg := rfl
@[simp] theorem setCluster_launches (n : Nat) (x : Cluster) : (s.setCluster n x).launches = s.launches := rfl
@[simp] theorem setCluster_blocks (n : Nat) (x : Cluster) : (s.setCluster n x).blocks = s.blocks := rfl
@[simp] theorem setCluster_groups (n : Nat) (x : Cluster) : (s.setCluster n x).groups = s.groups := rfl
@[simp] theorem setCluster_cores (n : Nat) (x : Cluster) : (s.setCluster n x).cores = s.cores := rfl
@[simp] theorem setCluster_draws (n : Nat) (x : Cluster) : (s.setCluster n x).draws = s.draws := rfl
@[simp] theorem setCluster_builds (n : Nat) (x : Cluster) : (s.setCluster n x).builds = s.builds := rfl
@[simp] theorem setCluster_inbox (n : Nat) (x : Cluster) : (s.setCluster n x).inbox = s.inbox := rfl
@[simp] theorem setCluster_cur (n : Nat) (x : Cluster) : (s.setCluster n x).cur = s.cur := rfl
@[simp] theorem setCluster_free (n : Nat) (x : Cluster) : (s.setCluster n x).free = s.free := rfl
@[simp] theorem setCluster_nextLaunch (n : Nat) (x : Cluster) : (s.setCluster n x).nextLaunch = s.nextLaunch := rfl
@[simp] theorem setCluster_nextBlock (n : Nat) (x : Cluster) : (s.setCluster n x).nextBlock = s.nextBlock := rfl
@[simp] theorem setCluster_nextDraw (n : Nat) (x : Cluster) : (s.setCluster n x).nextDraw = s.nextDraw := rfl
@[simp] theorem setCluster_turns (n : Nat) (x : Cluster) : (s.setCluster n x).turns = s.turns := rfl

/-! ### setLaunch -/

@[simp] theorem setLaunch_mem (n : Nat) (x : Launch) : (s.setLaunch n x).mem = s.mem := rfl
@[simp] theorem setLaunch_poison (n : Nat) (x : Launch) : (s.setLaunch n x).poison = s.poison := rfl
@[simp] theorem setLaunch_marks (n : Nat) (x : Launch) : (s.setLaunch n x).marks = s.marks := rfl
@[simp] theorem setLaunch_ctxs (n : Nat) (x : Launch) : (s.setLaunch n x).ctxs = s.ctxs := rfl
@[simp] theorem setLaunch_tlb (n : Nat) (x : Launch) : (s.setLaunch n x).tlb = s.tlb := rfl
@[simp] theorem setLaunch_sliceMap (n : Nat) (x : Launch) : (s.setLaunch n x).sliceMap = s.sliceMap := rfl
@[simp] theorem setLaunch_l2off (n : Nat) (x : Launch) : (s.setLaunch n x).l2off = s.l2off := rfl
@[simp] theorem setLaunch_dir (n : Nat) (x : Launch) : (s.setLaunch n x).dir = s.dir := rfl
@[simp] theorem setLaunch_structs (n : Nat) (x : Launch) : (s.setLaunch n x).structs = s.structs := rfl
@[simp] theorem setLaunch_host (n : Nat) (x : Launch) : (s.setLaunch n x).host = s.host := rfl
@[simp] theorem setLaunch_pkg (n : Nat) (x : Launch) : (s.setLaunch n x).pkg = s.pkg := rfl
@[simp] theorem setLaunch_blocks (n : Nat) (x : Launch) : (s.setLaunch n x).blocks = s.blocks := rfl
@[simp] theorem setLaunch_groups (n : Nat) (x : Launch) : (s.setLaunch n x).groups = s.groups := rfl
@[simp] theorem setLaunch_cores (n : Nat) (x : Launch) : (s.setLaunch n x).cores = s.cores := rfl
@[simp] theorem setLaunch_clusters (n : Nat) (x : Launch) : (s.setLaunch n x).clusters = s.clusters := rfl
@[simp] theorem setLaunch_draws (n : Nat) (x : Launch) : (s.setLaunch n x).draws = s.draws := rfl
@[simp] theorem setLaunch_builds (n : Nat) (x : Launch) : (s.setLaunch n x).builds = s.builds := rfl
@[simp] theorem setLaunch_inbox (n : Nat) (x : Launch) : (s.setLaunch n x).inbox = s.inbox := rfl
@[simp] theorem setLaunch_cur (n : Nat) (x : Launch) : (s.setLaunch n x).cur = s.cur := rfl
@[simp] theorem setLaunch_free (n : Nat) (x : Launch) : (s.setLaunch n x).free = s.free := rfl
@[simp] theorem setLaunch_nextLaunch (n : Nat) (x : Launch) : (s.setLaunch n x).nextLaunch = s.nextLaunch := rfl
@[simp] theorem setLaunch_nextBlock (n : Nat) (x : Launch) : (s.setLaunch n x).nextBlock = s.nextBlock := rfl
@[simp] theorem setLaunch_nextDraw (n : Nat) (x : Launch) : (s.setLaunch n x).nextDraw = s.nextDraw := rfl
@[simp] theorem setLaunch_turns (n : Nat) (x : Launch) : (s.setLaunch n x).turns = s.turns := rfl

/-! ### setBlock -/

@[simp] theorem setBlock_mem (n : Nat) (x : Block) : (s.setBlock n x).mem = s.mem := rfl
@[simp] theorem setBlock_poison (n : Nat) (x : Block) : (s.setBlock n x).poison = s.poison := rfl
@[simp] theorem setBlock_marks (n : Nat) (x : Block) : (s.setBlock n x).marks = s.marks := rfl
@[simp] theorem setBlock_ctxs (n : Nat) (x : Block) : (s.setBlock n x).ctxs = s.ctxs := rfl
@[simp] theorem setBlock_tlb (n : Nat) (x : Block) : (s.setBlock n x).tlb = s.tlb := rfl
@[simp] theorem setBlock_sliceMap (n : Nat) (x : Block) : (s.setBlock n x).sliceMap = s.sliceMap := rfl
@[simp] theorem setBlock_l2off (n : Nat) (x : Block) : (s.setBlock n x).l2off = s.l2off := rfl
@[simp] theorem setBlock_dir (n : Nat) (x : Block) : (s.setBlock n x).dir = s.dir := rfl
@[simp] theorem setBlock_structs (n : Nat) (x : Block) : (s.setBlock n x).structs = s.structs := rfl
@[simp] theorem setBlock_host (n : Nat) (x : Block) : (s.setBlock n x).host = s.host := rfl
@[simp] theorem setBlock_pkg (n : Nat) (x : Block) : (s.setBlock n x).pkg = s.pkg := rfl
@[simp] theorem setBlock_launches (n : Nat) (x : Block) : (s.setBlock n x).launches = s.launches := rfl
@[simp] theorem setBlock_groups (n : Nat) (x : Block) : (s.setBlock n x).groups = s.groups := rfl
@[simp] theorem setBlock_cores (n : Nat) (x : Block) : (s.setBlock n x).cores = s.cores := rfl
@[simp] theorem setBlock_clusters (n : Nat) (x : Block) : (s.setBlock n x).clusters = s.clusters := rfl
@[simp] theorem setBlock_draws (n : Nat) (x : Block) : (s.setBlock n x).draws = s.draws := rfl
@[simp] theorem setBlock_builds (n : Nat) (x : Block) : (s.setBlock n x).builds = s.builds := rfl
@[simp] theorem setBlock_inbox (n : Nat) (x : Block) : (s.setBlock n x).inbox = s.inbox := rfl
@[simp] theorem setBlock_cur (n : Nat) (x : Block) : (s.setBlock n x).cur = s.cur := rfl
@[simp] theorem setBlock_free (n : Nat) (x : Block) : (s.setBlock n x).free = s.free := rfl
@[simp] theorem setBlock_nextLaunch (n : Nat) (x : Block) : (s.setBlock n x).nextLaunch = s.nextLaunch := rfl
@[simp] theorem setBlock_nextBlock (n : Nat) (x : Block) : (s.setBlock n x).nextBlock = s.nextBlock := rfl
@[simp] theorem setBlock_nextDraw (n : Nat) (x : Block) : (s.setBlock n x).nextDraw = s.nextDraw := rfl
@[simp] theorem setBlock_turns (n : Nat) (x : Block) : (s.setBlock n x).turns = s.turns := rfl

/-! ### setGroup -/

@[simp] theorem setGroup_mem (n : Nat) (x : Group) : (s.setGroup n x).mem = s.mem := rfl
@[simp] theorem setGroup_poison (n : Nat) (x : Group) : (s.setGroup n x).poison = s.poison := rfl
@[simp] theorem setGroup_marks (n : Nat) (x : Group) : (s.setGroup n x).marks = s.marks := rfl
@[simp] theorem setGroup_ctxs (n : Nat) (x : Group) : (s.setGroup n x).ctxs = s.ctxs := rfl
@[simp] theorem setGroup_tlb (n : Nat) (x : Group) : (s.setGroup n x).tlb = s.tlb := rfl
@[simp] theorem setGroup_sliceMap (n : Nat) (x : Group) : (s.setGroup n x).sliceMap = s.sliceMap := rfl
@[simp] theorem setGroup_l2off (n : Nat) (x : Group) : (s.setGroup n x).l2off = s.l2off := rfl
@[simp] theorem setGroup_dir (n : Nat) (x : Group) : (s.setGroup n x).dir = s.dir := rfl
@[simp] theorem setGroup_structs (n : Nat) (x : Group) : (s.setGroup n x).structs = s.structs := rfl
@[simp] theorem setGroup_host (n : Nat) (x : Group) : (s.setGroup n x).host = s.host := rfl
@[simp] theorem setGroup_pkg (n : Nat) (x : Group) : (s.setGroup n x).pkg = s.pkg := rfl
@[simp] theorem setGroup_launches (n : Nat) (x : Group) : (s.setGroup n x).launches = s.launches := rfl
@[simp] theorem setGroup_blocks (n : Nat) (x : Group) : (s.setGroup n x).blocks = s.blocks := rfl
@[simp] theorem setGroup_cores (n : Nat) (x : Group) : (s.setGroup n x).cores = s.cores := rfl
@[simp] theorem setGroup_clusters (n : Nat) (x : Group) : (s.setGroup n x).clusters = s.clusters := rfl
@[simp] theorem setGroup_draws (n : Nat) (x : Group) : (s.setGroup n x).draws = s.draws := rfl
@[simp] theorem setGroup_builds (n : Nat) (x : Group) : (s.setGroup n x).builds = s.builds := rfl
@[simp] theorem setGroup_inbox (n : Nat) (x : Group) : (s.setGroup n x).inbox = s.inbox := rfl
@[simp] theorem setGroup_cur (n : Nat) (x : Group) : (s.setGroup n x).cur = s.cur := rfl
@[simp] theorem setGroup_free (n : Nat) (x : Group) : (s.setGroup n x).free = s.free := rfl
@[simp] theorem setGroup_nextLaunch (n : Nat) (x : Group) : (s.setGroup n x).nextLaunch = s.nextLaunch := rfl
@[simp] theorem setGroup_nextBlock (n : Nat) (x : Group) : (s.setGroup n x).nextBlock = s.nextBlock := rfl
@[simp] theorem setGroup_nextDraw (n : Nat) (x : Group) : (s.setGroup n x).nextDraw = s.nextDraw := rfl
@[simp] theorem setGroup_turns (n : Nat) (x : Group) : (s.setGroup n x).turns = s.turns := rfl

/-! ### setDraw -/

@[simp] theorem setDraw_mem (n : Nat) (x : Draw) : (s.setDraw n x).mem = s.mem := rfl
@[simp] theorem setDraw_poison (n : Nat) (x : Draw) : (s.setDraw n x).poison = s.poison := rfl
@[simp] theorem setDraw_marks (n : Nat) (x : Draw) : (s.setDraw n x).marks = s.marks := rfl
@[simp] theorem setDraw_ctxs (n : Nat) (x : Draw) : (s.setDraw n x).ctxs = s.ctxs := rfl
@[simp] theorem setDraw_tlb (n : Nat) (x : Draw) : (s.setDraw n x).tlb = s.tlb := rfl
@[simp] theorem setDraw_sliceMap (n : Nat) (x : Draw) : (s.setDraw n x).sliceMap = s.sliceMap := rfl
@[simp] theorem setDraw_l2off (n : Nat) (x : Draw) : (s.setDraw n x).l2off = s.l2off := rfl
@[simp] theorem setDraw_dir (n : Nat) (x : Draw) : (s.setDraw n x).dir = s.dir := rfl
@[simp] theorem setDraw_structs (n : Nat) (x : Draw) : (s.setDraw n x).structs = s.structs := rfl
@[simp] theorem setDraw_host (n : Nat) (x : Draw) : (s.setDraw n x).host = s.host := rfl
@[simp] theorem setDraw_pkg (n : Nat) (x : Draw) : (s.setDraw n x).pkg = s.pkg := rfl
@[simp] theorem setDraw_launches (n : Nat) (x : Draw) : (s.setDraw n x).launches = s.launches := rfl
@[simp] theorem setDraw_blocks (n : Nat) (x : Draw) : (s.setDraw n x).blocks = s.blocks := rfl
@[simp] theorem setDraw_groups (n : Nat) (x : Draw) : (s.setDraw n x).groups = s.groups := rfl
@[simp] theorem setDraw_cores (n : Nat) (x : Draw) : (s.setDraw n x).cores = s.cores := rfl
@[simp] theorem setDraw_clusters (n : Nat) (x : Draw) : (s.setDraw n x).clusters = s.clusters := rfl
@[simp] theorem setDraw_builds (n : Nat) (x : Draw) : (s.setDraw n x).builds = s.builds := rfl
@[simp] theorem setDraw_inbox (n : Nat) (x : Draw) : (s.setDraw n x).inbox = s.inbox := rfl
@[simp] theorem setDraw_cur (n : Nat) (x : Draw) : (s.setDraw n x).cur = s.cur := rfl
@[simp] theorem setDraw_free (n : Nat) (x : Draw) : (s.setDraw n x).free = s.free := rfl
@[simp] theorem setDraw_nextLaunch (n : Nat) (x : Draw) : (s.setDraw n x).nextLaunch = s.nextLaunch := rfl
@[simp] theorem setDraw_nextBlock (n : Nat) (x : Draw) : (s.setDraw n x).nextBlock = s.nextBlock := rfl
@[simp] theorem setDraw_nextDraw (n : Nat) (x : Draw) : (s.setDraw n x).nextDraw = s.nextDraw := rfl
@[simp] theorem setDraw_turns (n : Nat) (x : Draw) : (s.setDraw n x).turns = s.turns := rfl

/-! ### setDie -/

@[simp] theorem setDie_mem (n : Nat) (x : DieRec) : (s.setDie n x).mem = s.mem := rfl
@[simp] theorem setDie_poison (n : Nat) (x : DieRec) : (s.setDie n x).poison = s.poison := rfl
@[simp] theorem setDie_marks (n : Nat) (x : DieRec) : (s.setDie n x).marks = s.marks := rfl
@[simp] theorem setDie_ctxs (n : Nat) (x : DieRec) : (s.setDie n x).ctxs = s.ctxs := rfl
@[simp] theorem setDie_tlb (n : Nat) (x : DieRec) : (s.setDie n x).tlb = s.tlb := rfl
@[simp] theorem setDie_sliceMap (n : Nat) (x : DieRec) : (s.setDie n x).sliceMap = s.sliceMap := rfl
@[simp] theorem setDie_l2off (n : Nat) (x : DieRec) : (s.setDie n x).l2off = s.l2off := rfl
@[simp] theorem setDie_dir (n : Nat) (x : DieRec) : (s.setDie n x).dir = s.dir := rfl
@[simp] theorem setDie_structs (n : Nat) (x : DieRec) : (s.setDie n x).structs = s.structs := rfl
@[simp] theorem setDie_host (n : Nat) (x : DieRec) : (s.setDie n x).host = s.host := rfl
@[simp] theorem setDie_launches (n : Nat) (x : DieRec) : (s.setDie n x).launches = s.launches := rfl
@[simp] theorem setDie_blocks (n : Nat) (x : DieRec) : (s.setDie n x).blocks = s.blocks := rfl
@[simp] theorem setDie_groups (n : Nat) (x : DieRec) : (s.setDie n x).groups = s.groups := rfl
@[simp] theorem setDie_cores (n : Nat) (x : DieRec) : (s.setDie n x).cores = s.cores := rfl
@[simp] theorem setDie_clusters (n : Nat) (x : DieRec) : (s.setDie n x).clusters = s.clusters := rfl
@[simp] theorem setDie_draws (n : Nat) (x : DieRec) : (s.setDie n x).draws = s.draws := rfl
@[simp] theorem setDie_builds (n : Nat) (x : DieRec) : (s.setDie n x).builds = s.builds := rfl
@[simp] theorem setDie_inbox (n : Nat) (x : DieRec) : (s.setDie n x).inbox = s.inbox := rfl
@[simp] theorem setDie_cur (n : Nat) (x : DieRec) : (s.setDie n x).cur = s.cur := rfl
@[simp] theorem setDie_free (n : Nat) (x : DieRec) : (s.setDie n x).free = s.free := rfl
@[simp] theorem setDie_nextLaunch (n : Nat) (x : DieRec) : (s.setDie n x).nextLaunch = s.nextLaunch := rfl
@[simp] theorem setDie_nextBlock (n : Nat) (x : DieRec) : (s.setDie n x).nextBlock = s.nextBlock := rfl
@[simp] theorem setDie_nextDraw (n : Nat) (x : DieRec) : (s.setDie n x).nextDraw = s.nextDraw := rfl
@[simp] theorem setDie_turns (n : Nat) (x : DieRec) : (s.setDie n x).turns = s.turns := rfl

/-! ### modBc -/

@[simp] theorem modBc_mem (b c : Nat) (f : BCore → BCore) : (s.modBc b c f).mem = s.mem := rfl
@[simp] theorem modBc_poison (b c : Nat) (f : BCore → BCore) : (s.modBc b c f).poison = s.poison := rfl
@[simp] theorem modBc_marks (b c : Nat) (f : BCore → BCore) : (s.modBc b c f).marks = s.marks := rfl
@[simp] theorem modBc_ctxs (b c : Nat) (f : BCore → BCore) : (s.modBc b c f).ctxs = s.ctxs := rfl
@[simp] theorem modBc_tlb (b c : Nat) (f : BCore → BCore) : (s.modBc b c f).tlb = s.tlb := rfl
@[simp] theorem modBc_sliceMap (b c : Nat) (f : BCore → BCore) : (s.modBc b c f).sliceMap = s.sliceMap := rfl
@[simp] theorem modBc_l2off (b c : Nat) (f : BCore → BCore) : (s.modBc b c f).l2off = s.l2off := rfl
@[simp] theorem modBc_dir (b c : Nat) (f : BCore → BCore) : (s.modBc b c f).dir = s.dir := rfl
@[simp] theorem modBc_structs (b c : Nat) (f : BCore → BCore) : (s.modBc b c f).structs = s.structs := rfl
@[simp] theorem modBc_host (b c : Nat) (f : BCore → BCore) : (s.modBc b c f).host = s.host := rfl
@[simp] theorem modBc_pkg (b c : Nat) (f : BCore → BCore) : (s.modBc b c f).pkg = s.pkg := rfl
@[simp] theorem modBc_launches (b c : Nat) (f : BCore → BCore) : (s.modBc b c f).launches = s.launches := rfl
@[simp] theorem modBc_groups (b c : Nat) (f : BCore → BCore) : (s.modBc b c f).groups = s.groups := rfl
@[simp] theorem modBc_cores (b c : Nat) (f : BCore → BCore) : (s.modBc b c f).cores = s.cores := rfl
@[simp] theorem modBc_clusters (b c : Nat) (f : BCore → BCore) : (s.modBc b c f).clusters = s.clusters := rfl
@[simp] theorem modBc_draws (b c : Nat) (f : BCore → BCore) : (s.modBc b c f).draws = s.draws := rfl
@[simp] theorem modBc_builds (b c : Nat) (f : BCore → BCore) : (s.modBc b c f).builds = s.builds := rfl
@[simp] theorem modBc_inbox (b c : Nat) (f : BCore → BCore) : (s.modBc b c f).inbox = s.inbox := rfl
@[simp] theorem modBc_cur (b c : Nat) (f : BCore → BCore) : (s.modBc b c f).cur = s.cur := rfl
@[simp] theorem modBc_free (b c : Nat) (f : BCore → BCore) : (s.modBc b c f).free = s.free := rfl
@[simp] theorem modBc_nextLaunch (b c : Nat) (f : BCore → BCore) : (s.modBc b c f).nextLaunch = s.nextLaunch := rfl
@[simp] theorem modBc_nextBlock (b c : Nat) (f : BCore → BCore) : (s.modBc b c f).nextBlock = s.nextBlock := rfl
@[simp] theorem modBc_nextDraw (b c : Nat) (f : BCore → BCore) : (s.modBc b c f).nextDraw = s.nextDraw := rfl
@[simp] theorem modBc_turns (b c : Nat) (f : BCore → BCore) : (s.modBc b c f).turns = s.turns := rfl

/-! ### modGroup -/

@[simp] theorem modGroup_mem (n : Nat) (f : Group → Group) : (s.modGroup n f).mem = s.mem := by unfold State.modGroup; split <;> rfl
@[simp] theorem modGroup_poison (n : Nat) (f : Group → Group) : (s.modGroup n f).poison = s.poison := by unfold State.modGroup; split <;> rfl
@[simp] theorem modGroup_marks (n : Nat) (f : Group → Group) : (s.modGroup n f).marks = s.marks := by unfold State.modGroup; split <;> rfl
@[simp] theorem modGroup_ctxs (n : Nat) (f : Group → Group) : (s.modGroup n f).ctxs = s.ctxs := by unfold State.modGroup; split <;> rfl
@[simp] theorem modGroup_tlb (n : Nat) (f : Group → Group) : (s.modGroup n f).tlb = s.tlb := by unfold State.modGroup; split <;> rfl
@[simp] theorem modGroup_sliceMap (n : Nat) (f : Group → Group) : (s.modGroup n f).sliceMap = s.sliceMap := by unfold State.modGroup; split <;> rfl
@[simp] theorem modGroup_l2off (n : Nat) (f : Group → Group) : (s.modGroup n f).l2off = s.l2off := by unfold State.modGroup; split <;> rfl
@[simp] theorem modGroup_dir (n : Nat) (f : Group → Group) : (s.modGroup n f).dir = s.dir := by unfold State.modGroup; split <;> rfl
@[simp] theorem modGroup_structs (n : Nat) (f : Group → Group) : (s.modGroup n f).structs = s.structs := by unfold State.modGroup; split <;> rfl
@[simp] theorem modGroup_host (n : Nat) (f : Group → Group) : (s.modGroup n f).host = s.host := by unfold State.modGroup; split <;> rfl
@[simp] theorem modGroup_pkg (n : Nat) (f : Group → Group) : (s.modGroup n f).pkg = s.pkg := by unfold State.modGroup; split <;> rfl
@[simp] theorem modGroup_launches (n : Nat) (f : Group → Group) : (s.modGroup n f).launches = s.launches := by unfold State.modGroup; split <;> rfl
@[simp] theorem modGroup_blocks (n : Nat) (f : Group → Group) : (s.modGroup n f).blocks = s.blocks := by unfold State.modGroup; split <;> rfl
@[simp] theorem modGroup_cores (n : Nat) (f : Group → Group) : (s.modGroup n f).cores = s.cores := by unfold State.modGroup; split <;> rfl
@[simp] theorem modGroup_clusters (n : Nat) (f : Group → Group) : (s.modGroup n f).clusters = s.clusters := by unfold State.modGroup; split <;> rfl
@[simp] theorem modGroup_draws (n : Nat) (f : Group → Group) : (s.modGroup n f).draws = s.draws := by unfold State.modGroup; split <;> rfl
@[simp] theorem modGroup_builds (n : Nat) (f : Group → Group) : (s.modGroup n f).builds = s.builds := by unfold State.modGroup; split <;> rfl
@[simp] theorem modGroup_inbox (n : Nat) (f : Group → Group) : (s.modGroup n f).inbox = s.inbox := by unfold State.modGroup; split <;> rfl
@[simp] theorem modGroup_cur (n : Nat) (f : Group → Group) : (s.modGroup n f).cur = s.cur := by unfold State.modGroup; split <;> rfl
@[simp] theorem modGroup_free (n : Nat) (f : Group → Group) : (s.modGroup n f).free = s.free := by unfold State.modGroup; split <;> rfl
@[simp] theorem modGroup_nextLaunch (n : Nat) (f : Group → Group) : (s.modGroup n f).nextLaunch = s.nextLaunch := by unfold State.modGroup; split <;> rfl
@[simp] theorem modGroup_nextBlock (n : Nat) (f : Group → Group) : (s.modGroup n f).nextBlock = s.nextBlock := by unfold State.modGroup; split <;> rfl
@[simp] theorem modGroup_nextDraw (n : Nat) (f : Group → Group) : (s.modGroup n f).nextDraw = s.nextDraw := by unfold State.modGroup; split <;> rfl
@[simp] theorem modGroup_turns (n : Nat) (f : Group → Group) : (s.modGroup n f).turns = s.turns := by unfold State.modGroup; split <;> rfl

/-! ### Reading a part after it has been set -/

@[simp] theorem group_setGroup_self (n : Nat) (x : Group) : (s.setGroup n x).group n = some x := by
  simp [State.setGroup, State.group, FMap.get_set_of_ne]

theorem group_setGroup_ne {n k : Nat} (x : Group) (h : k ≠ n) : (s.setGroup n x).group k = s.group k := by
  simp [State.setGroup, State.group, FMap.get_set_ne, h]

@[simp] theorem block_setBlock_self (n : Nat) (x : Block) : (s.setBlock n x).block n = some x := by
  simp [State.setBlock, State.block, FMap.get_set_of_ne]

theorem block_setBlock_ne {n k : Nat} (x : Block) (h : k ≠ n) : (s.setBlock n x).block k = s.block k := by
  simp [State.setBlock, State.block, FMap.get_set_ne, h]

@[simp] theorem launch_setLaunch_self (n : Nat) (x : Launch) : (s.setLaunch n x).launch n = some x := by
  simp [State.setLaunch, State.launch, FMap.get_set_of_ne]

theorem launch_setLaunch_ne {n k : Nat} (x : Launch) (h : k ≠ n) : (s.setLaunch n x).launch k = s.launch k := by
  simp [State.setLaunch, State.launch, FMap.get_set_ne, h]

@[simp] theorem draw_setDraw_self (n : Nat) (x : Draw) : (s.setDraw n x).draw n = some x := by
  simp [State.setDraw, State.draw, FMap.get_set_of_ne]

theorem draw_setDraw_ne {n k : Nat} (x : Draw) (h : k ≠ n) : (s.setDraw n x).draw k = s.draw k := by
  simp [State.setDraw, State.draw, FMap.get_set_ne, h]

theorem queue_setQueue_ne {n k : Nat} (x : Queue) (h : k ≠ n) : (s.setQueue n x).queue k = s.queue k := by
  simp [State.setQueue, State.queue, FMap.get_set_ne, h]

theorem core_setCore_ne {n k : Nat} (x : Core) (h : k ≠ n) : (s.setCore n x).core k = s.core k := by
  simp [State.setCore, State.core, FMap.get_set_ne, h]

theorem cluster_setCluster_ne {n k : Nat} (x : Cluster) (h : k ≠ n) : (s.setCluster n x).cluster k = s.cluster k := by
  simp [State.setCluster, State.cluster, FMap.get_set_ne, h]

theorem queue_setQueue_self {n : Nat} (x : Queue) (h : FMap.wf Queue.reset s.host.queues = true) : (s.setQueue n x).queue n = x := by
  simp [State.setQueue, State.queue, FMap.get_set_self, h]

theorem core_setCore_self {n : Nat} (x : Core) (h : FMap.wf Core.reset s.cores = true) : (s.setCore n x).core n = x := by
  simp [State.setCore, State.core, FMap.get_set_self, h]

theorem cluster_setCluster_self {n : Nat} (x : Cluster) (h : FMap.wf Cluster.reset s.clusters = true) :
    (s.setCluster n x).cluster n = x := by
  simp [State.setCluster, State.cluster, FMap.get_set_self, h]

/-! ### Parts that stand in other fields -/

@[simp] theorem group_setQueue (n : Nat) (x : Queue) (k : Nat) : (s.setQueue n x).group k = s.group k := rfl
@[simp] theorem block_setQueue (n : Nat) (x : Queue) (k : Nat) : (s.setQueue n x).block k = s.block k := rfl
@[simp] theorem launch_setQueue (n : Nat) (x : Queue) (k : Nat) : (s.setQueue n x).launch k = s.launch k := rfl
@[simp] theorem draw_setQueue (n : Nat) (x : Queue) (k : Nat) : (s.setQueue n x).draw k = s.draw k := rfl
@[simp] theorem core_setQueue (n : Nat) (x : Queue) (k : Nat) : (s.setQueue n x).core k = s.core k := rfl
@[simp] theorem cluster_setQueue (n : Nat) (x : Queue) (k : Nat) : (s.setQueue n x).cluster k = s.cluster k := rfl
@[simp] theorem die_setQueue (n : Nat) (x : Queue) (k : Nat) : (s.setQueue n x).die k = s.die k := rfl
@[simp] theorem rail_setQueue (n : Nat) (x : Queue) (k : Nat) : (s.setQueue n x).rail k = s.rail k := rfl
@[simp] theorem group_setCore (n : Nat) (x : Core) (k : Nat) : (s.setCore n x).group k = s.group k := rfl
@[simp] theorem block_setCore (n : Nat) (x : Core) (k : Nat) : (s.setCore n x).block k = s.block k := rfl
@[simp] theorem launch_setCore (n : Nat) (x : Core) (k : Nat) : (s.setCore n x).launch k = s.launch k := rfl
@[simp] theorem draw_setCore (n : Nat) (x : Core) (k : Nat) : (s.setCore n x).draw k = s.draw k := rfl
@[simp] theorem queue_setCore (n : Nat) (x : Core) (k : Nat) : (s.setCore n x).queue k = s.queue k := rfl
@[simp] theorem cluster_setCore (n : Nat) (x : Core) (k : Nat) : (s.setCore n x).cluster k = s.cluster k := rfl
@[simp] theorem die_setCore (n : Nat) (x : Core) (k : Nat) : (s.setCore n x).die k = s.die k := rfl
@[simp] theorem rail_setCore (n : Nat) (x : Core) (k : Nat) : (s.setCore n x).rail k = s.rail k := rfl
@[simp] theorem group_setCluster (n : Nat) (x : Cluster) (k : Nat) : (s.setCluster n x).group k = s.group k := rfl
@[simp] theorem block_setCluster (n : Nat) (x : Cluster) (k : Nat) : (s.setCluster n x).block k = s.block k := rfl
@[simp] theorem launch_setCluster (n : Nat) (x : Cluster) (k : Nat) : (s.setCluster n x).launch k = s.launch k := rfl
@[simp] theorem draw_setCluster (n : Nat) (x : Cluster) (k : Nat) : (s.setCluster n x).draw k = s.draw k := rfl
@[simp] theorem queue_setCluster (n : Nat) (x : Cluster) (k : Nat) : (s.setCluster n x).queue k = s.queue k := rfl
@[simp] theorem core_setCluster (n : Nat) (x : Cluster) (k : Nat) : (s.setCluster n x).core k = s.core k := rfl
@[simp] theorem die_setCluster (n : Nat) (x : Cluster) (k : Nat) : (s.setCluster n x).die k = s.die k := rfl
@[simp] theorem rail_setCluster (n : Nat) (x : Cluster) (k : Nat) : (s.setCluster n x).rail k = s.rail k := rfl
@[simp] theorem group_setLaunch (n : Nat) (x : Launch) (k : Nat) : (s.setLaunch n x).group k = s.group k := rfl
@[simp] theorem block_setLaunch (n : Nat) (x : Launch) (k : Nat) : (s.setLaunch n x).block k = s.block k := rfl
@[simp] theorem draw_setLaunch (n : Nat) (x : Launch) (k : Nat) : (s.setLaunch n x).draw k = s.draw k := rfl
@[simp] theorem queue_setLaunch (n : Nat) (x : Launch) (k : Nat) : (s.setLaunch n x).queue k = s.queue k := rfl
@[simp] theorem core_setLaunch (n : Nat) (x : Launch) (k : Nat) : (s.setLaunch n x).core k = s.core k := rfl
@[simp] theorem cluster_setLaunch (n : Nat) (x : Launch) (k : Nat) : (s.setLaunch n x).cluster k = s.cluster k := rfl
@[simp] theorem die_setLaunch (n : Nat) (x : Launch) (k : Nat) : (s.setLaunch n x).die k = s.die k := rfl
@[simp] theorem rail_setLaunch (n : Nat) (x : Launch) (k : Nat) : (s.setLaunch n x).rail k = s.rail k := rfl
@[simp] theorem group_setBlock (n : Nat) (x : Block) (k : Nat) : (s.setBlock n x).group k = s.group k := rfl
@[simp] theorem launch_setBlock (n : Nat) (x : Block) (k : Nat) : (s.setBlock n x).launch k = s.launch k := rfl
@[simp] theorem draw_setBlock (n : Nat) (x : Block) (k : Nat) : (s.setBlock n x).draw k = s.draw k := rfl
@[simp] theorem queue_setBlock (n : Nat) (x : Block) (k : Nat) : (s.setBlock n x).queue k = s.queue k := rfl
@[simp] theorem core_setBlock (n : Nat) (x : Block) (k : Nat) : (s.setBlock n x).core k = s.core k := rfl
@[simp] theorem cluster_setBlock (n : Nat) (x : Block) (k : Nat) : (s.setBlock n x).cluster k = s.cluster k := rfl
@[simp] theorem die_setBlock (n : Nat) (x : Block) (k : Nat) : (s.setBlock n x).die k = s.die k := rfl
@[simp] theorem rail_setBlock (n : Nat) (x : Block) (k : Nat) : (s.setBlock n x).rail k = s.rail k := rfl
@[simp] theorem block_setGroup (n : Nat) (x : Group) (k : Nat) : (s.setGroup n x).block k = s.block k := rfl
@[simp] theorem launch_setGroup (n : Nat) (x : Group) (k : Nat) : (s.setGroup n x).launch k = s.launch k := rfl
@[simp] theorem draw_setGroup (n : Nat) (x : Group) (k : Nat) : (s.setGroup n x).draw k = s.draw k := rfl
@[simp] theorem queue_setGroup (n : Nat) (x : Group) (k : Nat) : (s.setGroup n x).queue k = s.queue k := rfl
@[simp] theorem core_setGroup (n : Nat) (x : Group) (k : Nat) : (s.setGroup n x).core k = s.core k := rfl
@[simp] theorem cluster_setGroup (n : Nat) (x : Group) (k : Nat) : (s.setGroup n x).cluster k = s.cluster k := rfl
@[simp] theorem die_setGroup (n : Nat) (x : Group) (k : Nat) : (s.setGroup n x).die k = s.die k := rfl
@[simp] theorem rail_setGroup (n : Nat) (x : Group) (k : Nat) : (s.setGroup n x).rail k = s.rail k := rfl
@[simp] theorem group_setDraw (n : Nat) (x : Draw) (k : Nat) : (s.setDraw n x).group k = s.group k := rfl
@[simp] theorem block_setDraw (n : Nat) (x : Draw) (k : Nat) : (s.setDraw n x).block k = s.block k := rfl
@[simp] theorem launch_setDraw (n : Nat) (x : Draw) (k : Nat) : (s.setDraw n x).launch k = s.launch k := rfl
@[simp] theorem queue_setDraw (n : Nat) (x : Draw) (k : Nat) : (s.setDraw n x).queue k = s.queue k := rfl
@[simp] theorem core_setDraw (n : Nat) (x : Draw) (k : Nat) : (s.setDraw n x).core k = s.core k := rfl
@[simp] theorem cluster_setDraw (n : Nat) (x : Draw) (k : Nat) : (s.setDraw n x).cluster k = s.cluster k := rfl
@[simp] theorem die_setDraw (n : Nat) (x : Draw) (k : Nat) : (s.setDraw n x).die k = s.die k := rfl
@[simp] theorem rail_setDraw (n : Nat) (x : Draw) (k : Nat) : (s.setDraw n x).rail k = s.rail k := rfl
@[simp] theorem group_setDie (n : Nat) (x : DieRec) (k : Nat) : (s.setDie n x).group k = s.group k := rfl
@[simp] theorem block_setDie (n : Nat) (x : DieRec) (k : Nat) : (s.setDie n x).block k = s.block k := rfl
@[simp] theorem launch_setDie (n : Nat) (x : DieRec) (k : Nat) : (s.setDie n x).launch k = s.launch k := rfl
@[simp] theorem draw_setDie (n : Nat) (x : DieRec) (k : Nat) : (s.setDie n x).draw k = s.draw k := rfl
@[simp] theorem queue_setDie (n : Nat) (x : DieRec) (k : Nat) : (s.setDie n x).queue k = s.queue k := rfl
@[simp] theorem core_setDie (n : Nat) (x : DieRec) (k : Nat) : (s.setDie n x).core k = s.core k := rfl
@[simp] theorem cluster_setDie (n : Nat) (x : DieRec) (k : Nat) : (s.setDie n x).cluster k = s.cluster k := rfl
@[simp] theorem group_modBc (b c : Nat) (f : BCore → BCore) (k : Nat) : (s.modBc b c f).group k = s.group k := rfl
@[simp] theorem launch_modBc (b c : Nat) (f : BCore → BCore) (k : Nat) : (s.modBc b c f).launch k = s.launch k := rfl
@[simp] theorem draw_modBc (b c : Nat) (f : BCore → BCore) (k : Nat) : (s.modBc b c f).draw k = s.draw k := rfl
@[simp] theorem queue_modBc (b c : Nat) (f : BCore → BCore) (k : Nat) : (s.modBc b c f).queue k = s.queue k := rfl
@[simp] theorem core_modBc (b c : Nat) (f : BCore → BCore) (k : Nat) : (s.modBc b c f).core k = s.core k := rfl
@[simp] theorem cluster_modBc (b c : Nat) (f : BCore → BCore) (k : Nat) : (s.modBc b c f).cluster k = s.cluster k := rfl
@[simp] theorem die_modBc (b c : Nat) (f : BCore → BCore) (k : Nat) : (s.modBc b c f).die k = s.die k := rfl
@[simp] theorem rail_modBc (b c : Nat) (f : BCore → BCore) (k : Nat) : (s.modBc b c f).rail k = s.rail k := rfl
@[simp] theorem block_modGroup (n : Nat) (f : Group → Group) (k : Nat) : (s.modGroup n f).block k = s.block k := by unfold State.modGroup; split <;> rfl
@[simp] theorem launch_modGroup (n : Nat) (f : Group → Group) (k : Nat) : (s.modGroup n f).launch k = s.launch k := by unfold State.modGroup; split <;> rfl
@[simp] theorem draw_modGroup (n : Nat) (f : Group → Group) (k : Nat) : (s.modGroup n f).draw k = s.draw k := by unfold State.modGroup; split <;> rfl
@[simp] theorem queue_modGroup (n : Nat) (f : Group → Group) (k : Nat) : (s.modGroup n f).queue k = s.queue k := by unfold State.modGroup; split <;> rfl
@[simp] theorem core_modGroup (n : Nat) (f : Group → Group) (k : Nat) : (s.modGroup n f).core k = s.core k := by unfold State.modGroup; split <;> rfl
@[simp] theorem cluster_modGroup (n : Nat) (f : Group → Group) (k : Nat) : (s.modGroup n f).cluster k = s.cluster k := by unfold State.modGroup; split <;> rfl
@[simp] theorem die_modGroup (n : Nat) (f : Group → Group) (k : Nat) : (s.modGroup n f).die k = s.die k := by unfold State.modGroup; split <;> rfl
@[simp] theorem rail_modGroup (n : Nat) (f : Group → Group) (k : Nat) : (s.modGroup n f).rail k = s.rail k := by unfold State.modGroup; split <;> rfl

/-! ### The group at a number -/

@[simp] theorem g_setGroup_self (n : Nat) (x : Group) : (s.setGroup n x).g n = x := by simp [State.g]

theorem g_setGroup_ne {n k : Nat} (x : Group) (h : k ≠ n) : (s.setGroup n x).g k = s.g k := by
  simp [State.g, group_setGroup_ne s x h]

theorem group_modGroup (n k : Nat) (f : Group → Group) :
    (s.modGroup n f).group k = if k = n then (s.group n).map f else s.group k := by
  unfold State.modGroup
  split
  · next x hx =>
    split
    · next h => subst h; simp [hx]
    · next h => exact group_setGroup_ne s _ h
  · next hx => split
               · next h => subst h; simp [hx]
               · rfl

theorem g_modGroup_self {n : Nat} (f : Group → Group) (h : (s.group n).isSome = true) : (s.modGroup n f).g n = f (s.g n) := by
  obtain ⟨x, hx⟩ := Option.isSome_iff_exists.mp h
  simp [State.g, group_modGroup, hx]

theorem g_modGroup_ne {n k : Nat} (f : Group → Group) (h : k ≠ n) : (s.modGroup n f).g k = s.g k := by
  simp [State.g, group_modGroup, h]

/-- What a change of a group keeps of it, it keeps of every group. -/
theorem g_modGroup_same {β : Type} (p : Group → β) (n k : Nat) (f : Group → Group) (h : ∀ g, p (f g) = p g) :
    p ((s.modGroup n f).g k) = p (s.g k) := by
  simp only [State.g, group_modGroup]
  split
  · next hk => subst hk; cases s.group k <;> simp [h]
  · rfl

theorem g_congr {a b : State} (h : a.groups = b.groups) (k : Nat) : a.g k = b.g k := by simp [State.g, State.group, h]

end Sys2Proof.Machine
end

