-- ==== Sys2Proof/Laws/Memory.lean ====
section
/-!
SUPPORT. Memory: every operation that writes it keeps its canonical form, and bytes that are written read back.
-/

namespace Sys2Proof.Machine

/-! ### Bytes -/

@[simp] theorem putMem_mem (s : State) (pa : Nat) (v : Byte) : (putMem s pa v).mem = FMap.set 0 s.mem pa v := rfl

/-- A run of bytes changes nothing but memory and the poison marks on it. -/
theorem putMems_eq (bs : List Byte) : ∀ (s : State) (pa : Nat), ∃ m k, putMems s pa bs = { s with mem := m, marks := k } := by
  induction bs with
  | nil => intro s pa; exact ⟨s.mem, s.marks, rfl⟩
  | cons b bs ih =>
    intro s pa
    obtain ⟨m, k, hm⟩ := ih (putMem s pa b) (pa + 1)
    exact ⟨m, k, hm⟩

/-- A run of bytes keeps the canonical form. -/
theorem putMems_wf (bs : List Byte) : ∀ (s : State) (pa : Nat), Memory.wf s = true → Memory.wf (putMems s pa bs) = true := by
  induction bs with
  | nil => intro s pa h; exact h
  | cons b bs ih => intro s pa h; exact ih _ _ (FMap.wf_set h _ _)

/-- A run of bytes leaves the addresses below it alone. -/
theorem putMems_below (bs : List Byte) : ∀ (s : State) (pa a : Nat), a < pa →
    FMap.get (0 : Byte) (putMems s pa bs).mem a = FMap.get 0 s.mem a := by
  induction bs with
  | nil => intro s pa a _; rfl
  | cons b bs ih =>
    intro s pa a h
    rw [putMems, ih _ _ _ (by omega), putMem_mem, FMap.get_set_ne _ _ _ (by omega)]

/-- What each address reads after a run of bytes. -/
theorem putMems_get (bs : List Byte) : ∀ (s : State) (pa a : Nat), Memory.wf s = true →
    FMap.get (0 : Byte) (putMems s pa bs).mem a =
      if pa ≤ a ∧ a < pa + bs.length then bs.getD (a - pa) 0 else FMap.get 0 s.mem a := by
  induction bs with
  | nil => intro s pa a _; rw [if_neg (by simp only [List.length_nil]; omega)]; rfl
  | cons b bs ih =>
    intro s pa a h
    by_cases ha : a = pa
    · subst ha
      rw [putMems, putMems_below _ _ _ _ (by omega), putMem_mem, FMap.get_set_self h]
      simp
    · rw [putMems, ih _ _ _ (FMap.wf_set h _ _), putMem_mem, FMap.get_set_ne _ _ _ ha]
      by_cases h1 : pa + 1 ≤ a ∧ a < pa + 1 + bs.length
      · have h2 : pa ≤ a ∧ a < pa + (b :: bs).length := by simp only [List.length_cons]; omega
        rw [if_pos h1, if_pos h2]
        have : a - pa = (a - (pa + 1)) + 1 := by omega
        rw [this]; simp
      · have h2 : ¬ (pa ≤ a ∧ a < pa + (b :: bs).length) := by simp only [List.length_cons]; omega
        rw [if_neg h1, if_neg h2]

/-- A writer that takes a line changes the stashes and the directory alone. -/
theorem claimLine_eq (s : State) (pa b c : Nat) : ∃ bl d, claimLine s pa b c = { s with blocks := bl, dir := d } := by
  unfold claimLine
  split
  · exact ⟨s.blocks, _, rfl⟩
  · exact ⟨_, _, rfl⟩

/-- What a fold of state changes leaves, if each of them does. -/
theorem foldl_keeps {α β : Type} (p : State → β) (f : State → α → State) (h : ∀ s a, p (f s a) = p s) (l : List α) :
    ∀ s, p (l.foldl f s) = p s := by
  induction l with
  | nil => intro s; rfl
  | cons a l ih => intro s; rw [List.foldl_cons, ih, h]

/-- A property that each state change keeps, their fold keeps. -/
theorem foldl_inv {α : Type} (p : State → Prop) (f : State → α → State) (h : ∀ s a, p s → p (f s a)) (l : List α) :
    ∀ s, p s → p (l.foldl f s) := by
  induction l with
  | nil => intro s hs; exact hs
  | cons a l ih => intro s hs; exact ih _ (h _ _ hs)

theorem tellDone_mem (s : State) (n : Nat) (notify : Bool) (r : DWord × DWord) : (tellDone s n notify r).mem = s.mem := by
  unfold tellDone; dsimp only; split <;> rfl

theorem abortWait_mem (s : State) (n : Nat) : (abortWait s n).mem = s.mem := by
  unfold abortWait
  dsimp only
  split
  · split
    · rw [tellDone_mem]; rfl
    · rfl
  · rfl

theorem writeDescriptor_mem (s : State) (n w v : Nat) : (writeDescriptor s n w v).mem = s.mem := by
  unfold writeDescriptor
  dsimp only
  split
  · rfl
  · split
    · unfold enableQueue; dsimp only; split <;> rfl
    · rw [abortWait_mem]; rfl

theorem windowWord_mem (s : State) (off : Nat) (data : List (Option Byte)) : (windowWord s off data).mem = s.mem := by
  unfold windowWord
  dsimp only
  split
  · split <;> split <;> rfl
  · split
    · rfl
    · split
      · exact writeDescriptor_mem _ _ _ _
      · rfl

/-- A write to the register window keeps memory. -/
theorem windowWrite_mem (s : State) (off : Nat) (bs : List Byte) : (windowWrite s off bs).mem = s.mem := by
  unfold windowWrite
  exact foldl_keeps (·.mem) _ (fun s k => windowWord_mem _ _ _) _ s

/-- What the register window reads depends on the host side and the package alone. -/
theorem windowByte_congr {a b : State} (h : a.host = b.host) (p : a.pkg = b.pkg) (off : Nat) :
    windowByte a off = windowByte b off := by
  unfold windowByte queueWord queueState State.queue railWord State.rail State.die
  rw [h, p]

/-- What a byte reads depends on memory, the host side and the package alone. -/
theorem physByte_congr {a b : State} (m : a.mem = b.mem) (h : a.host = b.host) (p : a.pkg = b.pkg) (x : Nat) :
    physByte a x = physByte b x := by
  unfold physByte
  rw [windowByte_congr h p, m]

/-- A write outside the register window changes the stashes, the directory and memory alone. -/
theorem writePhys_eq (s : State) {pa : Nat} (bs : List Byte) (b c : Nat) (hw : isWindow pa = false) :
    ∃ bl d, writePhys s pa bs b c = putMems { s with blocks := bl, dir := d } pa bs := by
  unfold writePhys
  simp only [hw, Bool.false_eq_true, if_false]
  have key : ∀ (l : List Nat) (s : State),
      ∃ bl d, l.foldl (fun st k => claimLine st (pa + 128 * k) b c) s = { s with blocks := bl, dir := d } := by
    intro l
    induction l with
    | nil => intro s; exact ⟨s.blocks, s.dir, rfl⟩
    | cons k l ih =>
      intro s
      obtain ⟨bl0, d0, h0⟩ := claimLine_eq s (pa + 128 * k) b c
      obtain ⟨bl, d, h⟩ := ih (claimLine s (pa + 128 * k) b c)
      exact ⟨bl, d, by rw [List.foldl_cons, h, h0]⟩
  obtain ⟨bl, d, h⟩ := key (List.range (cdiv (pa % 128 + bs.length) 128)) s
  exact ⟨bl, d, by rw [h]⟩

/-! ### The operations that write memory keep its canonical form -/

theorem writePhys_wf (s : State) (pa : Nat) (bs : List Byte) (b c : Nat) (h : Memory.wf s = true) :
    Memory.wf (writePhys s pa bs b c) = true := by
  unfold writePhys
  split
  · simp only [Memory.wf, windowWrite_mem]; exact h
  · apply putMems_wf
    refine foldl_inv (fun x => Memory.wf x = true) (fun st k => claimLine st (pa + 128 * k) b c) (fun s k hs => ?_) _ s h
    obtain ⟨bl, d, e⟩ := claimLine_eq s (pa + 128 * k) b c
    rw [e]; exact hs

/-- A core that reads a line changes the directory alone. -/
theorem readLine_mem (s : State) (core pa : Nat) (zero : Bool) : (readLine s core pa zero).mem = s.mem := by
  unfold readLine requestLine
  dsimp only
  split
  · rfl
  · split
    · rfl
    · split
      · rfl
      · split <;> rfl

theorem putTile_wf (s : State) (b c off : Nat) (bs : List Byte) (h : Memory.wf s = true) :
    Memory.wf (putTile s b c off bs) = true := by
  have hf : Memory.wf (fillLine s b c off) = true := by
    unfold fillLine
    dsimp only
    split
    · exact h
    · split
      · exact h
      · split
        · exact h
        · simp only [Memory.wf, modBc_mem, readLine_mem]; exact h
  unfold putTile
  dsimp only
  split
  · exact hf
  · simp only [Memory.wf, modBc_mem]
    split
    · exact hf
    · exact writePhys_wf _ _ _ _ _ hf

theorem performStore_wf (s : State) (gid : Nat) (e : StoreEntry) (h : Memory.wf s = true) :
    Memory.wf (performStore s gid e) = true := by
  unfold performStore
  split
  · split
    · exact h
    · exact writePhys_wf _ _ _ _ _ h
  · exact putTile_wf _ _ _ _ _ h

theorem performBypass_wf (s : State) (gid : Nat) (e : StoreEntry) (h : Memory.wf s = true) :
    Memory.wf (performBypass s gid e) = true := by
  unfold performBypass
  split
  · split
    · exact performStore_wf _ _ _ h
    · exact writePhys_wf _ _ _ _ _ h
  · exact performStore_wf _ _ _ h

theorem drainOne_wf (s : State) (gid : Nat) (h : Memory.wf s = true) : Memory.wf (drainOne s gid) = true := by
  unfold drainOne
  split
  · exact h
  · apply performStore_wf; simp only [Memory.wf, modGroup_mem]; exact h

theorem drainAll_wf (s : State) (gid : Nat) (h : Memory.wf s = true) : Memory.wf (drainAll s gid) = true := by
  unfold drainAll
  apply foldl_inv (fun x => Memory.wf x = true) _ (fun s e hs => performStore_wf s gid e hs)
  simp only [Memory.wf, modGroup_mem]; exact h

theorem drainUnit_wf (s : State) (u : Ux) (h : Memory.wf s = true) : Memory.wf (drainUnit s u) = true := by
  unfold drainUnit
  exact foldl_inv (fun x => Memory.wf x = true) _ (fun s e hs => drainAll_wf s e hs) _ s h

theorem vWrite_wf {s t : State} {ctx : Nat} {want : Want} {va : Nat} {bs : List Byte} {b c : Nat}
    (h : Memory.wf s = true) (hw : vWrite s ctx want va bs b c = some t) : Memory.wf t = true := by
  unfold vWrite at hw
  dsimp only at hw
  split at hw
  · simp at hw
  · simp only [Option.some.injEq] at hw
    subst hw
    generalize List.zipIdx _ = l
    have key : ∀ (l : List (Option Nat × Nat)) (acc : State × List Byte), Memory.wf acc.1 = true →
        Memory.wf (l.foldl (fun (acc : State × List Byte) p =>
          let n := if p.2 == 0 then 4096 - va % 4096 else 4096
          (writePhys acc.1 (p.1.getD 0) (acc.2.take n) b c, acc.2.drop n)) acc).1 = true := by
      intro l
      induction l with
      | nil => intro acc ha; exact ha
      | cons p l ih => intro acc ha; exact ih _ (writePhys_wf _ _ _ _ _ ha)
    exact key l (s, bs) h

theorem keep_wf {α : Type} [DecidableEq α] {d : α} {m : FMap α} (p : Nat → Bool) (h : FMap.wf d m = true) :
    FMap.wf d (FMap.keep p m) = true := by
  simp only [FMap.wf, Bool.and_eq_true] at h ⊢
  obtain ⟨h1, h2⟩ := h
  generalize 0 = lo at h1
  induction m generalizing lo with
  | nil => exact ⟨rfl, rfl⟩
  | cons e m ih =>
    obtain ⟨k, a⟩ := e
    simp only [FMap.risingFrom, FMap.noDefault, Bool.and_eq_true, decide_eq_true_eq] at h1 h2
    obtain ⟨i1, i2⟩ := ih h2.2 (k + 1) h1.2
    unfold FMap.keep at i1 i2 ⊢
    rw [List.filter_cons]
    split
    · simp only [FMap.risingFrom, FMap.noDefault, Bool.and_eq_true, decide_eq_true_eq]
      exact ⟨⟨h1.1, i1⟩, h2.1, i2⟩
    · exact ⟨FMap.rising_mono i1 (by omega), i2⟩

theorem carryFrames_wf (s : State) (old new pages : Nat) (h : Memory.wf s = true) :
    Memory.wf (carryFrames s old new pages) = true := by
  have key : ∀ (l : FMap Byte) (m : FMap Byte) (go : Nat → Nat), FMap.wf 0 m = true →
      FMap.wf 0 (l.foldl (fun m e => FMap.set 0 m (go e.1) e.2) m) = true := by
    intro l
    induction l with
    | nil => intro m go hm; exact hm
    | cons e l ih => intro m go hm; exact ih _ _ (FMap.wf_set hm _ _)
  unfold carryFrames Memory.wf
  exact key _ _ (fun a => if (decide (old * 4096 ≤ a) && decide (a < (old + pages) * 4096)) = true then
    a - old * 4096 + new * 4096 else a) (keep_wf _ h)

theorem repointAll_wf (s : State) (old new pages : Nat) (h : Memory.wf s = true) :
    Memory.wf (repointAll s old new pages) = true := by
  unfold repointAll
  exact foldl_inv (fun x => Memory.wf x = true) _ (fun s k hs => putMems_wf _ _ _ hs) _ s h

theorem reset_wf : Memory.wf State.reset = true := rfl

end Sys2Proof.Machine
end

