-- ==== Sys2Proof/Laws/Frame.lean ====
section
/-!
SUPPORT. What an encoded instruction leaves alone: the machine outside its groups, and in each group every field that
neither its results nor its retirement writes.
-/

namespace Sys2Proof.Machine

/-- The machine outside groups and blocks is the same, and in each group the registers outside the named classes are, with its
status, mode, scratch registers, store queue and operations. -/
def Kept (kv ks kd kc : Prop) (s t : State) : Prop :=
  (t.mem = s.mem ∧ t.poison = s.poison ∧ t.host = s.host ∧ t.pkg = s.pkg ∧ t.cores = s.cores ∧ t.clusters = s.clusters ∧
    t.launches = s.launches ∧ t.draws = s.draws ∧ t.ctxs = s.ctxs ∧ t.tlb = s.tlb) ∧
  ∀ k, (kv → (t.g k).v = (s.g k).v) ∧ (ks → (t.g k).s = (s.g k).s) ∧ (kd → (t.g k).d = (s.g k).d) ∧
    (kc → (t.g k).c = (s.g k).c) ∧ (t.g k).fst = (s.g k).fst ∧ (t.g k).ftrap = (s.g k).ftrap ∧ (t.g k).sys = (s.g k).sys ∧
    (t.g k).tscr = (s.g k).tscr ∧ (t.g k).held = (s.g k).held ∧ (t.g k).sq = (s.g k).sq ∧ (t.g k).ops = (s.g k).ops ∧
    (t.g k).alive = (s.g k).alive

variable {kv ks kd kc : Prop}

theorem Kept.rfl {s : State} : Kept kv ks kd kc s s := by simp [Kept]

theorem Kept.trans {a b c : State} (h1 : Kept kv ks kd kc a b) (h2 : Kept kv ks kd kc b c) : Kept kv ks kd kc a c := by
  obtain ⟨⟨a1, a2, a3, a4, a5, a6, a7, a8, a9, a10⟩, ag⟩ := h1
  obtain ⟨⟨b1, b2, b3, b4, b5, b6, b7, b8, b9, b10⟩, bg⟩ := h2
  refine ⟨⟨b1.trans a1, b2.trans a2, b3.trans a3, b4.trans a4, b5.trans a5, b6.trans a6, b7.trans a7, b8.trans a8,
    b9.trans a9, b10.trans a10⟩, fun k => ?_⟩
  obtain ⟨x1, x2, x3, x4, x5, x6, x7, x8, x9, x10, x11, x12⟩ := ag k
  obtain ⟨y1, y2, y3, y4, y5, y6, y7, y8, y9, y10, y11, y12⟩ := bg k
  exact ⟨fun h => (y1 h).trans (x1 h), fun h => (y2 h).trans (x2 h), fun h => (y3 h).trans (x3 h),
    fun h => (y4 h).trans (x4 h), y5.trans x5, y6.trans x6, y7.trans x7, y8.trans x8, y9.trans x9, y10.trans x10,
    y11.trans x11, y12.trans x12⟩

/-- A fold of changes that each keep, keeps. -/
theorem Kept.foldl {α : Type} {f : State → α → State} (h : ∀ s a, Kept kv ks kd kc s (f s a)) (l : List α) (s : State) :
    Kept kv ks kd kc s (l.foldl f s) := by
  induction l generalizing s with
  | nil => exact Kept.rfl
  | cons a l ih => exact (h s a).trans (ih _)

/-- A change of one group keeps where the change keeps the group's fields. -/
theorem Kept.modGroup {s : State} {n : Nat} {f : Group → Group}
    (h : ∀ g : Group, (kv → (f g).v = g.v) ∧ (ks → (f g).s = g.s) ∧ (kd → (f g).d = g.d) ∧ (kc → (f g).c = g.c) ∧
      (f g).fst = g.fst ∧ (f g).ftrap = g.ftrap ∧ (f g).sys = g.sys ∧ (f g).tscr = g.tscr ∧ (f g).held = g.held ∧
      (f g).sq = g.sq ∧ (f g).ops = g.ops ∧ (f g).alive = g.alive) : Kept kv ks kd kc s (s.modGroup n f) := by
  refine ⟨by simp, fun k => ?_⟩
  by_cases hk : k = n
  · subst hk
    cases hg : s.group k with
    | none => simp [State.modGroup, hg]
    | some x => rw [g_modGroup_self s f (by simp [hg])]; exact h _
  · rw [g_modGroup_ne s f hk]; simp

theorem Kept.setRv {s : State} {gid : Nat} {sc : Scope} {pc : Bool} {r : Rendezvous} :
    Kept kv ks kd kc s (setRv s gid sc pc r) := by
  unfold Machine.setRv
  cases sc with
  | lane => exact Kept.rfl
  | group => exact Kept.modGroup fun g => by simp
  | set => dsimp only; split <;> simp [Kept, State.g]
  | block => dsimp only; split <;> simp [Kept, State.g]

theorem Kept.clearRv {s : State} {gid : Nat} {sc : Scope} {pc : Bool} : Kept kv ks kd kc s (clearRv s gid sc pc) := by
  unfold Machine.clearRv
  cases sc with
  | lane => exact Kept.rfl
  | group => exact Kept.modGroup fun g => by simp
  | set => dsimp only; split <;> simp [Kept, State.g]
  | block => dsimp only; split <;> simp [Kept, State.g]

/-- The state in which a unit executes keeps the state in which its last member issues. -/
theorem executing_kept {s s1 : State} {h : Hdr} {sh : Shape} {u : Ux} (hx : executing s h sh = some (s1, u)) :
    Kept kv ks kd kc s s1 := by
  unfold executing at hx
  cases hc : s.cur with
  | none => simp [hc] at hx
  | some c =>
    simp only [hc] at hx
    split at hx
    · simp at hx
    · split at hx
      · simp only [Option.some.injEq, Prod.mk.injEq] at hx; rw [← hx.1]; exact Kept.rfl
      · split at hx
        · simp at hx
        · unfold wideUnit at hx
          dsimp only at hx
          split at hx
          · simp only [Option.some.injEq, Prod.mk.injEq] at hx
            rw [← hx.1]
            have hb : ∀ again, Kept kv ks kd kc s (beginQuire s (soloUnit s h c.1 c.2) again) := fun again =>
              Kept.modGroup fun g => by simp [Group.modNar]
            split
            · exact (hb _).trans Kept.setRv
            · exact ((hb _).trans Kept.setRv).trans (Kept.modGroup fun g => by simp [Group.modNar])
          · simp at hx

/-- The retirement of an instruction in a group keeps it, where no lane exits. -/
theorem retireIn_kept (u : Ux) (h : Hdr) (e : Eff) (he : e.exits = []) (gid slices : Nat) (g : Group) :
    let x := retireIn u h e gid slices g
    x.v = g.v ∧ x.s = g.s ∧ x.d = g.d ∧ x.c = g.c ∧ x.fst = g.fst ∧ x.ftrap = g.ftrap ∧ x.sys = g.sys ∧ x.tscr = g.tscr ∧
      x.held = g.held ∧ x.sq = g.sq ∧ x.ops = g.ops ∧ x.alive = g.alive := by
  have h0 : g.alive &&& ~~~ (BitVec.ofNat 32 (maskOf ([] : List Nat))) = g.alive := by
    rw [show maskOf ([] : List Nat) = 0 from rfl, show ~~~ (BitVec.ofNat 32 0) = BitVec.allOnes 32 from rfl,
      BitVec.and_allOnes]
  unfold retireIn
  simp only [he, List.filter_nil, List.map_nil, h0]
  repeat' (first | split | simp only [endQuire, Group.modNar])
  all_goals simp

/-- The commit of an effect without status bits, long-latency results or exits keeps what the effect's state holds. -/
theorem commit_kept {u : Ux} {h : Hdr} {pc : Bool} {e : Eff} (hf : e.fst = []) (hl : e.long = []) (hx : e.exits = []) :
    Kept kv ks kd kc e.st (commit u h pc e) := by
  have h1 : addLong (addFst e.st e) e.long e.far = e.st := by simp [addLong, addFst, hf, hl]
  unfold commit
  simp only [h1]
  have k2 : Kept kv ks kd kc e.st (if e.jumped = true then e.st
      else u.arrived.foldl (fun st a => st.modGroup a.1 (retireIn u h e a.1 a.2)) e.st) := by
    split
    · exact Kept.rfl
    · refine Kept.foldl (fun s a => Kept.modGroup fun g => ?_) _ _
      obtain ⟨x1, x2, x3, x4, x5, x6, x7, x8, x9, x10, x11, x12⟩ := retireIn_kept u h e hx a.1 a.2 g
      exact ⟨fun _ => x1, fun _ => x2, fun _ => x3, fun _ => x4, x5, x6, x7, x8, x9, x10, x11, x12⟩
  generalize (if e.jumped = true then e.st
      else u.arrived.foldl (fun st a => st.modGroup a.1 (retireIn u h e a.1 a.2)) e.st) = s2 at k2 ⊢
  have k3 : Kept kv ks kd kc s2 (if e.fuses = true then u.members.foldl (fun st m =>
      st.modGroup m (fuseGroup ((u.arrived.filter fun a => a.1 == m).map (·.2)))) s2 else s2) := by
    split
    · refine Kept.foldl (fun s a => Kept.modGroup fun g => ?_) _ _
      unfold fuseGroup
      dsimp only
      split <;> simp
    · exact Kept.rfl
  generalize (if e.fuses = true then u.members.foldl (fun st m =>
      st.modGroup m (fuseGroup ((u.arrived.filter fun a => a.1 == m).map (·.2)))) s2 else s2) = s3 at k3 ⊢
  have k4 := (k2.trans k3).trans (Kept.clearRv (gid := u.gid) (sc := h.scope) (pc := pc))
  simp only [hx, List.isEmpty_nil, if_true]
  exact k4

/-- A write to a vector register keeps the other classes. -/
theorem wr_kept (s : State) (o : Opnd) (p : Pos) (x : Word) :
    Kept (∀ n, o ≠ .v n) (∀ n, o ≠ .s n) True True s (wr s o p x) := by
  unfold wr
  split
  · exact Kept.modGroup fun g => by simp [Group.writeCell]
  · exact Kept.modGroup fun g => by simp [Group.writeCell]
  · exact Kept.modGroup fun g => by simp
  · exact Kept.rfl

/-- What a wider claim keeps, a narrower one keeps. -/
theorem Kept.mono {kv' ks' kd' kc' : Prop} {s t : State} (h : Kept kv ks kd kc s t) (hv : kv' → kv) (hs : ks' → ks)
    (hd : kd' → kd) (hc : kc' → kc) : Kept kv' ks' kd' kc' s t :=
  ⟨h.1, fun k => ⟨fun x => (h.2 k).1 (hv x), fun x => (h.2 k).2.1 (hs x), fun x => (h.2 k).2.2.1 (hd x),
    fun x => (h.2 k).2.2.2.1 (hc x), (h.2 k).2.2.2.2⟩⟩

theorem wrPat_kept (s : State) (w : Nat) (o : Opnd) (p : Pos) (x : Nat) :
    Kept (∀ n, o ≠ .v n) (∀ n, o ≠ .s n) True True s (wrPat s w o p x) := by
  unfold wrPat
  split
  · refine (wr_kept s o p _).trans ((wr_kept _ (regPlus o 1) p _).mono ?_ ?_ id id)
    · intro h n; cases o <;> simp_all [regPlus]
    · intro h n; cases o <;> simp_all [regPlus]
  · exact wr_kept s o p _

theorem wrC_kept (s : State) (k : Nat) (p : Pos) (f : BitVec 4) : Kept True True True False s (wrC s k p f) :=
  Kept.modGroup fun g => by simp

/-- Lane results keep every class but the destination's, and the condition registers where CW[2] is clear. -/
theorem writeLanes_kept (s : State) (u : Ux) (dst : Opnd) (w : Nat) (cw : BitVec 3) (f : Pos → Nat × BitVec 4) :
    Kept (∀ n, dst ≠ .v n) (∀ n, dst ≠ .s n) True (cw.getLsbD 2 = false) s (writeLanes s u dst w cw f) := by
  unfold writeLanes
  dsimp only
  have h1 : Kept (∀ n, dst ≠ .v n) (∀ n, dst ≠ .s n) True (cw.getLsbD 2 = false) s
      ((workLanes u (isScalar dst)).foldl (fun st p => wrPat st w dst p (f p).1) s) :=
    Kept.foldl (fun s a => (wrPat_kept s w dst a _).mono id id id fun _ => trivial) _ _
  split
  · next hc => exact h1.trans (Kept.foldl (fun s a => (wrC_kept s _ a _).mono (fun _ => trivial) (fun _ => trivial) id
      fun h => by rw [h] at hc; exact absurd hc (by simp)) _ _)
  · exact h1

end Sys2Proof.Machine
end

