-- ==== Sys2Proof/Laws/Host.lean ====
section
/-!
SUPPORT. What the command processors do with an entry: what they answer for one that is read, and for one that has waited (R71,
R75, R82, R95); and that nothing that works does so after a fatal error.
-/

namespace Sys2Proof.Machine

/-- After a fatal error a step of an engine, a home agent, a sequencer or a distributor changes nothing. -/
theorem working_fatal {s : State} {o : Host.Outcome State Fault Refusal} (h : s.host.fatal ≠ none) : working s o = .next s := by
  unfold working
  rw [if_pos (Option.isSome_iff_ne_none.mpr h)]

/-- Else it has its effect. -/
theorem working_runs {s : State} {o : Host.Outcome State Fault Refusal} (h : s.host.fatal = none) : working s o = o := by
  simp [working, h]

/-- The queue that a processor chooses is a candidate. -/
theorem nextQueue_candidate {s : State} {p n : Nat} (h : nextQueue s p = some n) : isCandidate s n = true := by
  unfold nextQueue at h
  have h1 := List.mem_of_find?_eq_some h
  exact (List.mem_filter.mp (List.mem_filter.mp h1).1).2

/-- A command begins: it holds its queue back where it stays, and has its effect. -/
def beginCommand (s : State) (n : Nat) (w : List DWord) (goesOn : State → List DWord → Bool) (act : List DWord → State → State) :
    State :=
  startCommand
    (if s.host.fatal.isNone && entHolds w && !badPayload w && goesOn s w then
        s.setQueue n { s.queue n with waiting := some (true, w) }
      else if s.host.fatal.isSome then s else release s n) n w (act w)

/-- What a step of a command answers where the processor reads an entry that names it. -/
theorem runCommand_read {s : State} {n : Nat} {w : List DWord} {names : List DWord → Bool} {goesOn : State → List DWord → Bool}
    {act : List DWord → State → State} (hn : n < 128) (hq : nextQueue s (n / 32) = some n) (hp : peekEntry s n = some w)
    (hw : names w = true) :
    runCommand s n names goesOn act = .next (
      if s.host.fatal.isNone && entWaits w && outstanding s n then
        (readEntry s n).setQueue n { (readEntry s n).queue n with waiting := some (false, w) }
      else if entFree w then startCommand (readEntry s n) n w (act w)
      else beginCommand (readEntry s n) n w goesOn act) := by
  have hc := nextQueue_candidate hq
  have hz : (if s.host.fatal.isSome then none else (s.queue n).waiting) = none := by
    simp only [isCandidate, Bool.and_eq_true, Bool.or_eq_true, Option.isNone_iff_eq_none] at hc
    split
    · rfl
    · next h => exact (hc.2.resolve_left h).2
  have h0 : (decide (128 ≤ n) || nextQueue s (n / 32) != some n) = false := by simp [hq]; omega
  unfold runCommand
  simp only [hz, h0, hp, hw]
  simp only [Bool.false_eq_true, if_false, Bool.not_true]
  cases ha : s.host.fatal.isNone && entWaits w && outstanding s n <;> cases hb : entFree w <;>
    simp only [Bool.false_eq_true, if_false, if_true] <;> rfl

/-- What it answers where a command that names it has waited for its turn. -/
theorem runCommand_turn {s : State} {n : Nat} {w : List DWord} {names : List DWord → Bool} {goesOn : State → List DWord → Bool}
    {act : List DWord → State → State} (hf : s.host.fatal = none) (hq : (s.queue n).waiting = some (false, w))
    (ho : outstanding s n = false) (hh : hostHeld s = false) (hw : names w = true) :
    runCommand s n names goesOn act = .next (beginCommand s n w goesOn act) := by
  unfold runCommand
  simp [hf, hq, ho, hh, hw, beginCommand]

end Sys2Proof.Machine
end

