-- ==== Sys2Proof/Laws/Issue.lean ====
section
/-!
SUPPORT. What the issue of an encoded instruction answers: the commit of its effect where it executes, and what it
answers elsewhere.
-/

namespace Sys2Proof.Machine

/-- An instruction that executes is issued as its unit runs it. -/
theorem issue_runs {s s1 : State} {h : Hdr} {sh : Shape} {u : Ux} {body : Ux → State → Res}
    (hx : executing s h sh = some (s1, u)) : issue h sh s body = .next (runUnit s1 u h sh body) := by
  cases hc : s.cur with
  | none => simp [executing, hc] at hx
  | some c =>
    obtain ⟨gid, slices⟩ := c
    simp only [executing, hc] at hx
    simp only [issue, hc, issueFrom]
    cases ha : admitCause (s.g gid) h sh with
    | some t => simp [ha] at hx
    | none =>
      cases hbu : budgetTrap (s.launchOf (s.g gid).bid) (s.g gid) ((s.g gid).nar slices) with
      | some t => simp [ha, hbu] at hx
      | none =>
        simp only [ha, hbu, Option.isSome_none, Bool.or_self, Bool.false_eq_true, if_false] at hx ⊢
        split at hx
        · next hl =>
          simp only [Option.some.injEq, Prod.mk.injEq] at hx
          obtain ⟨rfl, rfl⟩ := hx
          simp only [hl, if_true]
        · next hl =>
          simp only [hl, if_false]
          split at hx
          · simp at hx
          · next hm =>
            simp only [Bool.or_eq_true, not_or, Bool.not_eq_true, Option.isSome_eq_false_iff, Option.isNone_iff_eq_none] at hm
            rw [Bool.not_eq_true] at hl
            simp [arrive, hl, hm.1, hm.2, hx]

/-- No register check stops a unit: nothing does before the body runs. -/
theorem firstStop_none {s : State} {u : Ux} {sh : Shape} {r : Res} (h : regStop s u sh = none) : firstStop s u sh r = none := by
  simp [firstStop, h]

/-- The stop of the register checks stands, unless the body answers the async budget's trap (R313). -/
theorem firstStop_some {s : State} {u : Ux} {sh : Shape} {r : Res} {st : Stop} (h : regStop s u sh = some st)
    (hb : isBudget r = false) : firstStop s u sh r = some st := by
  unfold firstStop
  rw [h]
  split
  · next h1 => simp only [Option.some.injEq] at h1; simp [budgetFirst, hb, h1]
  · rfl

/-- An instruction that executes, whose registers are in order, whose body answers an effect and whose effect sets no
trapping status bit, is committed. -/
theorem issue_done {s s1 : State} {h : Hdr} {sh : Shape} {u : Ux} {body : Ux → State → Res} {e : Eff}
    (hr : Runs s h sh s1 u) (hb : body u s1 = .ok e) (hf : fstTrap s1 e = none) :
    issue h sh s body = .next (commit u h sh.perCore e) := by
  rw [issue_runs hr.1, runUnit, firstStop_none hr.2]
  simp only [hb, hf]

/-- An instruction that executes and whose body stops takes the trap or the wait. -/
theorem issue_stop {s s1 : State} {h : Hdr} {sh : Shape} {u : Ux} {body : Ux → State → Res} {st : Stop}
    (hr : Runs s h sh s1 u) (hb : body u s1 = .error st) :
    issue h sh s body = .next (stopUnit s1 u h (h.scope != .lane) st) := by
  rw [issue_runs hr.1, runUnit, firstStop_none hr.2]
  simp only [hb]

/-- An instruction whose registers stop it takes the trap or the wait, unless its body answers the async budget's trap (R193, R202,
R203, R313). -/
theorem issue_regs {s s1 : State} {h : Hdr} {sh : Shape} {u : Ux} {body : Ux → State → Res} {st : Stop}
    (hx : executing s h sh = some (s1, u)) (hg : regStop s1 u sh = some st) (hb : isBudget (body u s1) = false) :
    issue h sh s body = .next (stopUnit s1 u h (h.scope != .lane) st) := by
  rw [issue_runs hx, runUnit, firstStop_some hg hb]

/-- An effect that newly sets a status bit whose trap is enabled takes that trap, and nothing of it stands (R332). -/
theorem issue_fst {s s1 : State} {h : Hdr} {sh : Shape} {u : Ux} {body : Ux → State → Res} {e : Eff} {t : Trap}
    (hr : Runs s h sh s1 u) (hb : body u s1 = .ok e) (hf : fstTrap s1 e = some t) :
    issue h sh s body = .next (takeTrap s1 u h (h.scope != .lane) t) := by
  rw [issue_runs hr.1, runUnit, firstStop_none hr.2]
  simp only [hb, hf]

/-- An effect that sets no status bit takes no status trap. -/
theorem fstTrap_none {s : State} {e : Eff} (h : e.fst = []) : fstTrap s e = none := by
  simp [fstTrap, h, firstSome]

/-- An instruction without status bits that executes is committed. -/
theorem issue_plain {s s1 : State} {h : Hdr} {sh : Shape} {u : Ux} {body : Ux → State → Res} {e : Eff}
    (hr : Runs s h sh s1 u) (hb : body u s1 = .ok e) (hf : e.fst = []) :
    issue h sh s body = .next (commit u h sh.perCore e) :=
  issue_done hr hb (fstTrap_none hf)

end Sys2Proof.Machine
end

