-- ==== Sys2Proof/Laws/PerInstr.lean ====
section
/-!
SUPPORT. One lemma for each instruction about its word: the opcode, the header and the body that it is joined from, and that
the header is read back. A step of the device or the host has no word.
-/

namespace Sys2Proof.Laws.WordParts

set_option Elab.async false

/-- The word of an instruction is joined from an opcode, a header and a body, and the decoder reads that header (R339). -/
def Statement (i : Instr) : Prop :=
  ∀ w, encodeWord i = some w → ∃ op h b, w = joinWord op h b ∧ decodeHdr w = h

theorem joined {i : Instr} {op : BitVec 8} {h : Hdr} {b : BitVec 79} (hi : encodeWord i = some (joinWord op h b)) : Statement i := by
  intro w hw
  rw [hi, Option.some.injEq] at hw
  exact ⟨op, h, b, hw.symm, hw ▸ decodeHdr_joinWord op h b⟩

theorem wordless {i : Instr} (hi : encodeWord i = none) : Statement i := by
  intro w hw
  rw [hi] at hw
  cases hw

theorem doorbell (q : Nat) (v : BitVec 64) : Statement (.doorbell q v) := wordless rfl
theorem completionAcknowledgement (q : Nat) (v : BitVec 64) : Statement (.completionAcknowledgement q v) := wordless rfl
theorem queueEnable (q : Nat) : Statement (.queueEnable q) := wordless rfl
theorem queueDisable (q : Nat) : Statement (.queueDisable q) := wordless rfl
theorem registerWrite (off size : Nat) (v : BitVec 64) : Statement (.registerWrite off size v) := wordless rfl
theorem launchCommand (q : Nat) : Statement (.launchCommand q) := wordless rfl
theorem copyCommand (q : Nat) : Statement (.copyCommand q) := wordless rfl
theorem copyCommandComplete (q n : Nat) : Statement (.copyCommandComplete q n) := wordless rfl
theorem signalCommand (q : Nat) : Statement (.signalCommand q) := wordless rfl
theorem waitCommand (q : Nat) : Statement (.waitCommand q) := wordless rfl
theorem waitSatisfied (q : Nat) : Statement (.waitSatisfied q) := wordless rfl
theorem ctxCreate (q : Nat) : Statement (.ctxCreate q) := wordless rfl
theorem ctxDestroy (q : Nat) : Statement (.ctxDestroy q) := wordless rfl
theorem ctxRegister (q : Nat) : Statement (.ctxRegister q) := wordless rfl
theorem ctxRevoke (q : Nat) : Statement (.ctxRevoke q) := wordless rfl
theorem resync (q : Nat) : Statement (.resync q) := wordless rfl
theorem dumpStatus (q : Nat) : Statement (.dumpStatus q) := wordless rfl
theorem dumpRelease (q : Nat) : Statement (.dumpRelease q) := wordless rfl
theorem attest (q : Nat) : Statement (.attest q) := wordless rfl
theorem badkind (q : Nat) : Statement (.badkind q) := wordless rfl
theorem rdmaWrite (conn : Nat) (key : BitVec 32) (addr : BitVec 64) (data : List (BitVec 8)) : Statement (.rdmaWrite conn key addr data) := wordless rfl
theorem rdmaRead (conn : Nat) (key : BitVec 32) (addr : BitVec 64) (len : Nat) : Statement (.rdmaRead conn key addr len) := wordless rfl
theorem send (conn : Nat) (data : List (BitVec 8)) : Statement (.send conn data) := wordless rfl
theorem ceMarkReceived (conn : Nat) : Statement (.ceMarkReceived conn) := wordless rfl
theorem portEnableMaskWrite (mask : BitVec 8) : Statement (.portEnableMaskWrite mask) := wordless rfl
theorem moduleReset : Statement (.moduleReset) := wordless rfl
theorem bootStageVerify (stage : Nat) (image sig : List (BitVec 8)) : Statement (.bootStageVerify stage image sig) := wordless rfl
theorem fatalError (cause : BitVec 9) : Statement (.fatalError cause) := wordless rfl
theorem uncorrectableMemoryError (detail unit line : Nat) : Statement (.uncorrectableMemoryError detail unit line) := wordless rfl
theorem phaseLoss (rail count : Nat) : Statement (.phaseLoss rail count) := wordless rfl
theorem dieLinkModuleOff (a b m : Nat) : Statement (.dieLinkModuleOff a b m) := wordless rfl
theorem dieOfflineRequest (die reason : Nat) : Statement (.dieOfflineRequest die reason) := wordless rfl
theorem dieOnlineRequest (die : Nat) : Statement (.dieOnlineRequest die) := wordless rfl
theorem pendingTransitionStart : Statement (.pendingTransitionStart) := wordless rfl
theorem diePreemptComplete (die : Nat) : Statement (.diePreemptComplete die) := wordless rfl
theorem pageMigrate (die ctx : Nat) (va : BitVec 64) (pa : Nat) : Statement (.pageMigrate die ctx va pa) := wordless rfl
theorem dieEvacuateComplete (die : Nat) : Statement (.dieEvacuateComplete die) := wordless rfl
theorem dieRemapComplete (die : Nat) : Statement (.dieRemapComplete die) := wordless rfl
theorem dieWakeComplete (die : Nat) (trained : Bool) : Statement (.dieWakeComplete die trained) := wordless rfl
theorem dieRemapinComplete (die : Nat) : Statement (.dieRemapinComplete die) := wordless rfl
theorem frameBoundary : Statement (.frameBoundary) := wordless rfl
theorem lSlotAnnounce (frame lenNs : Nat) : Statement (.lSlotAnnounce frame lenNs) := wordless rfl
theorem drainWindowBegin (cl : Nat) : Statement (.drainWindowBegin cl) := wordless rfl
theorem clusterSlotOpen (cl : Nat) : Statement (.clusterSlotOpen cl) := wordless rfl
theorem slotPublishedEnd (done : Bool) : Statement (.slotPublishedEnd done) := wordless rfl
theorem slotWorkDone (actualNs : Nat) : Statement (.slotWorkDone actualNs) := wordless rfl
theorem slotCloseMessage (cl : Nat) : Statement (.slotCloseMessage cl) := wordless rfl
theorem mswinClaimExpiry (cl : Nat) : Statement (.mswinClaimExpiry cl) := wordless rfl
theorem controlIntervalBoundary (cl : Nat) : Statement (.controlIntervalBoundary cl) := wordless rfl
theorem speedChangeStopEnd (cl : Nat) : Statement (.speedChangeStopEnd cl) := wordless rfl
theorem ratioChangeApply (cl : Nat) : Statement (.ratioChangeApply cl) := wordless rfl
theorem c0rsvApply (cl : Nat) : Statement (.c0rsvApply cl) := wordless rfl
theorem class0Admission (lid : Nat) (places : List (List Nat)) : Statement (.class0Admission lid places) := wordless rfl
theorem blockPlace (lid : Nat) (places : List (List Nat)) : Statement (.blockPlace lid places) := wordless rfl
theorem taskPlace (cl : Nat) (n : Nat) (cores : List Nat) : Statement (.taskPlace cl n cores) := wordless rfl
theorem blockAdmit (bid : Nat) : Statement (.blockAdmit bid) := wordless rfl
theorem blockThrottle (bid : Nat) : Statement (.blockThrottle bid) := wordless rfl
theorem blockRetire (bid : Nat) : Statement (.blockRetire bid) := wordless rfl
theorem eventQueueDequeue (cl : Nat) : Statement (.eventQueueDequeue cl) := wordless rfl
theorem issueArbitration (core quarter : Nat) : Statement (.issueArbitration core quarter) := wordless rfl
theorem lowerClassPark (gid n : Nat) : Statement (.lowerClassPark gid n) := wordless rfl
theorem longLatencyWriteback (gid n : Nat) : Statement (.longLatencyWriteback gid n) := wordless rfl
theorem watchdogExpiry (gid : Nat) : Statement (.watchdogExpiry gid) := wordless rfl
theorem blockPreempt (bid : Nat) : Statement (.blockPreempt bid) := wordless rfl
theorem preemptSave (bid : Nat) : Statement (.preemptSave bid) := wordless rfl
theorem blockResume (bid : Nat) (cores : List Nat) : Statement (.blockResume bid cores) := wordless rfl
theorem asyncOpComplete (gid n : Nat) : Statement (.asyncOpComplete gid n) := wordless rfl
theorem operandBeatArrive (cl dir : Nat) : Statement (.operandBeatArrive cl dir) := wordless rfl
theorem pageWalkComplete (ctx : Nat) (va : BitVec 64) : Statement (.pageWalkComplete ctx va) := wordless rfl
theorem segmentWakeComplete (core seg : Nat) : Statement (.segmentWakeComplete core seg) := wordless rfl
theorem bucketMove (bucket slice : Nat) : Statement (.bucketMove bucket slice) := wordless rfl
theorem l2WayDisable (slice ways : Nat) : Statement (.l2WayDisable slice ways) := wordless rfl
theorem upgrade (die line : Nat) : Statement (.upgrade die line) := wordless rfl
theorem readExclusive (die line : Nat) : Statement (.readExclusive die line) := wordless rfl
theorem readShared (die line : Nat) (near : Option Nat) : Statement (.readShared die line near) := wordless rfl
theorem invalidation (die line : Nat) : Statement (.invalidation die line) := wordless rfl
theorem invalidationAcknowledgement (die line : Nat) : Statement (.invalidationAcknowledgement die line) := wordless rfl
theorem forwardedSnoop (die line : Nat) : Statement (.forwardedSnoop die line) := wordless rfl
theorem snoopAcknowledgement (die line : Nat) : Statement (.snoopAcknowledgement die line) := wordless rfl
theorem writeBack (die line : Nat) : Statement (.writeBack die line) := wordless rfl
theorem writeBackAcknowledgement (die line : Nat) : Statement (.writeBackAcknowledgement die line) := wordless rfl
theorem exclusiveDataGrant (die line : Nat) : Statement (.exclusiveDataGrant die line) := wordless rfl
theorem registerEccError (gid code lane : Nat) (uncorrectable : Bool) : Statement (.registerEccError gid code lane uncorrectable) := wordless rfl
theorem emitBufferRead (draw : Nat) : Statement (.emitBufferRead draw) := wordless rfl
theorem primitiveBin (draw : Nat) : Statement (.primitiveBin draw) := wordless rfl
theorem partialFlush (draw : Nat) : Statement (.partialFlush draw) := wordless rfl
theorem tileAssign (draw tile core : Nat) : Statement (.tileAssign draw tile core) := wordless rfl
theorem tileCheckpoint (draw tile : Nat) : Statement (.tileCheckpoint draw tile) := wordless rfl
theorem fragmentWaveDispatch (draw tile gid : Nat) : Statement (.fragmentWaveDispatch draw tile gid) := wordless rfl
theorem binningEnd (draw : Nat) : Statement (.binningEnd draw) := wordless rfl
theorem tileRetire (draw tile : Nat) : Statement (.tileRetire draw tile) := wordless rfl
theorem hitDispatch (bid core : Nat) (rays : List (Nat × Nat)) : Statement (.hitDispatch bid core rays) := wordless rfl
theorem childRayTrace (gid lane : Nat) : Statement (.childRayTrace gid lane) := wordless rfl
theorem hitRecordFill (gid lane : Nat) : Statement (.hitRecordFill gid lane) := wordless rfl
theorem entryTranslationFault (q : Nat) : Statement (.entryTranslationFault q) := wordless rfl
theorem hostAbort (q : Nat) (tag : BitVec 32) : Statement (.hostAbort q tag) := wordless rfl
theorem storeQueueDrain (gid : Nat) : Statement (.storeQueueDrain gid) := wordless rfl
theorem lineEviction (die line : Nat) : Statement (.lineEviction die line) := wordless rfl
theorem nop (h : Hdr) (f : FmtA) : Statement (.nop h f) := joined rfl
theorem colo (h : Hdr) (f : FmtC) : Statement (.colo h f) := joined rfl
theorem bra (h : Hdr) (f : FmtB) : Statement (.bra h f) := joined rfl
theorem brx (h : Hdr) (f : FmtB) : Statement (.brx h f) := joined rfl
theorem call (h : Hdr) (f : FmtB) : Statement (.call h f) := joined rfl
theorem callx (h : Hdr) (f : FmtB) : Statement (.callx h f) := joined rfl
theorem ret (h : Hdr) (f : FmtB) : Statement (.ret h f) := joined rfl
theorem exit (h : Hdr) (f : FmtA) : Statement (.exit h f) := joined rfl
theorem bany (h : Hdr) (f : FmtB) : Statement (.bany h f) := joined rfl
theorem ball (h : Hdr) (f : FmtB) : Statement (.ball h f) := joined rfl
theorem yield (h : Hdr) (f : FmtA) : Statement (.yield h f) := joined rfl
theorem trap (h : Hdr) (f : FmtI) : Statement (.trap h f) := joined rfl
theorem bkpt (h : Hdr) (f : FmtI) : Statement (.bkpt h f) := joined rfl
theorem rft (h : Hdr) (f : FmtI) : Statement (.rft h f) := joined rfl
theorem loop (h : Hdr) (f : FmtB) : Statement (.loop h f) := joined rfl
theorem jmpt (h : Hdr) (f : FmtB) : Statement (.jmpt h f) := joined rfl
theorem iadd (h : Hdr) (f : FmtA) : Statement (.iadd h f) := joined rfl
theorem isub (h : Hdr) (f : FmtA) : Statement (.isub h f) := joined rfl
theorem imul (h : Hdr) (f : FmtA) : Statement (.imul h f) := joined rfl
theorem imulh (h : Hdr) (f : FmtA) : Statement (.imulh h f) := joined rfl
theorem imad (h : Hdr) (f : FmtA) : Statement (.imad h f) := joined rfl
theorem imadw (h : Hdr) (f : FmtA) : Statement (.imadw h f) := joined rfl
theorem idiv (h : Hdr) (f : FmtA) : Statement (.idiv h f) := joined rfl
theorem irem (h : Hdr) (f : FmtA) : Statement (.irem h f) := joined rfl
theorem imin (h : Hdr) (f : FmtA) : Statement (.imin h f) := joined rfl
theorem imax (h : Hdr) (f : FmtA) : Statement (.imax h f) := joined rfl
theorem iabs (h : Hdr) (f : FmtA) : Statement (.iabs h f) := joined rfl
theorem ineg (h : Hdr) (f : FmtA) : Statement (.ineg h f) := joined rfl
theorem iaddc (h : Hdr) (f : FmtA) : Statement (.iaddc h f) := joined rfl
theorem isubb (h : Hdr) (f : FmtA) : Statement (.isubb h f) := joined rfl
theorem isad (h : Hdr) (f : FmtA) : Statement (.isad h f) := joined rfl
theorem idot4 (h : Hdr) (f : FmtA) : Statement (.idot4 h f) := joined rfl
theorem iaddi (h : Hdr) (f : FmtI) : Statement (.iaddi h f) := joined rfl
theorem imuli (h : Hdr) (f : FmtI) : Statement (.imuli h f) := joined rfl
theorem imadi (h : Hdr) (f : FmtI) : Statement (.imadi h f) := joined rfl
theorem imini (h : Hdr) (f : FmtI) : Statement (.imini h f) := joined rfl
theorem imaxi (h : Hdr) (f : FmtI) : Statement (.imaxi h f) := joined rfl
theorem andi (h : Hdr) (f : FmtI) : Statement (.andi h f) := joined rfl
theorem ori (h : Hdr) (f : FmtI) : Statement (.ori h f) := joined rfl
theorem xori (h : Hdr) (f : FmtI) : Statement (.xori h f) := joined rfl
theorem shli (h : Hdr) (f : FmtI) : Statement (.shli h f) := joined rfl
theorem shri (h : Hdr) (f : FmtI) : Statement (.shri h f) := joined rfl
theorem sari (h : Hdr) (f : FmtI) : Statement (.sari h f) := joined rfl
theorem movi (h : Hdr) (f : FmtI) : Statement (.movi h f) := joined rfl
theorem lea (h : Hdr) (f : FmtM) : Statement (.lea h f) := joined rfl
theorem leax (h : Hdr) (f : FmtM) : Statement (.leax h f) := joined rfl
theorem sptest (h : Hdr) (f : FmtA) : Statement (.sptest h f) := joined rfl
theorem spcast (h : Hdr) (f : FmtA) : Statement (.spcast h f) := joined rfl
theorem and_ (h : Hdr) (f : FmtA) : Statement (.and_ h f) := joined rfl
theorem or_ (h : Hdr) (f : FmtA) : Statement (.or_ h f) := joined rfl
theorem xor_ (h : Hdr) (f : FmtA) : Statement (.xor_ h f) := joined rfl
theorem btab (h : Hdr) (f : FmtA) : Statement (.btab h f) := joined rfl
theorem shl (h : Hdr) (f : FmtA) : Statement (.shl h f) := joined rfl
theorem shr (h : Hdr) (f : FmtA) : Statement (.shr h f) := joined rfl
theorem sar (h : Hdr) (f : FmtA) : Statement (.sar h f) := joined rfl
theorem rot (h : Hdr) (f : FmtA) : Statement (.rot h f) := joined rfl
theorem funnel (h : Hdr) (f : FmtA) : Statement (.funnel h f) := joined rfl
theorem popc (h : Hdr) (f : FmtA) : Statement (.popc h f) := joined rfl
theorem clz (h : Hdr) (f : FmtA) : Statement (.clz h f) := joined rfl
theorem brev (h : Hdr) (f : FmtA) : Statement (.brev h f) := joined rfl
theorem bfx (h : Hdr) (f : FmtA) : Statement (.bfx h f) := joined rfl
theorem bfi (h : Hdr) (f : FmtA) : Statement (.bfi h f) := joined rfl
theorem icmp (h : Hdr) (f : FmtA) : Statement (.icmp h f) := joined rfl
theorem sel (h : Hdr) (f : FmtA) : Statement (.sel h f) := joined rfl
theorem fadd (h : Hdr) (f : FmtA) : Statement (.fadd h f) := joined rfl
theorem fsub (h : Hdr) (f : FmtA) : Statement (.fsub h f) := joined rfl
theorem fmul (h : Hdr) (f : FmtA) : Statement (.fmul h f) := joined rfl
theorem ffma (h : Hdr) (f : FmtA) : Statement (.ffma h f) := joined rfl
theorem fmin (h : Hdr) (f : FmtA) : Statement (.fmin h f) := joined rfl
theorem fmax (h : Hdr) (f : FmtA) : Statement (.fmax h f) := joined rfl
theorem fcmp (h : Hdr) (f : FmtA) : Statement (.fcmp h f) := joined rfl
theorem fclass (h : Hdr) (f : FmtA) : Statement (.fclass h f) := joined rfl
theorem frnd (h : Hdr) (f : FmtA) : Statement (.frnd h f) := joined rfl
theorem ffrc (h : Hdr) (f : FmtA) : Statement (.ffrc h f) := joined rfl
theorem fscale (h : Hdr) (f : FmtA) : Statement (.fscale h f) := joined rfl
theorem fdiv (h : Hdr) (f : FmtA) : Statement (.fdiv h f) := joined rfl
theorem fsqrt (h : Hdr) (f : FmtA) : Statement (.fsqrt h f) := joined rfl
theorem fdot2 (h : Hdr) (f : FmtA) : Statement (.fdot2 h f) := joined rfl
theorem fmed3 (h : Hdr) (f : FmtA) : Statement (.fmed3 h f) := joined rfl
theorem fsgn (h : Hdr) (f : FmtA) : Statement (.fsgn h f) := joined rfl
theorem hadd2 (h : Hdr) (f : FmtA) : Statement (.hadd2 h f) := joined rfl
theorem hmul2 (h : Hdr) (f : FmtA) : Statement (.hmul2 h f) := joined rfl
theorem hfma2 (h : Hdr) (f : FmtA) : Statement (.hfma2 h f) := joined rfl
theorem hmin2 (h : Hdr) (f : FmtA) : Statement (.hmin2 h f) := joined rfl
theorem hmax2 (h : Hdr) (f : FmtA) : Statement (.hmax2 h f) := joined rfl
theorem hcmp2 (h : Hdr) (f : FmtA) : Statement (.hcmp2 h f) := joined rfl
theorem hdot2 (h : Hdr) (f : FmtA) : Statement (.hdot2 h f) := joined rfl
theorem cadd (h : Hdr) (f : FmtA) : Statement (.cadd h f) := joined rfl
theorem cmul (h : Hdr) (f : FmtA) : Statement (.cmul h f) := joined rfl
theorem cmad (h : Hdr) (f : FmtA) : Statement (.cmad h f) := joined rfl
theorem cmulc (h : Hdr) (f : FmtA) : Statement (.cmulc h f) := joined rfl
theorem cabs2 (h : Hdr) (f : FmtA) : Statement (.cabs2 h f) := joined rfl
theorem cexpi (h : Hdr) (f : FmtA) : Statement (.cexpi h f) := joined rfl
theorem cscale (h : Hdr) (f : FmtA) : Statement (.cscale h f) := joined rfl
theorem crot (h : Hdr) (f : FmtA) : Statement (.crot h f) := joined rfl
theorem cmag (h : Hdr) (f : FmtA) : Statement (.cmag h f) := joined rfl
theorem rcp (h : Hdr) (f : FmtA) : Statement (.rcp h f) := joined rfl
theorem rsq (h : Hdr) (f : FmtA) : Statement (.rsq h f) := joined rfl
theorem ex2 (h : Hdr) (f : FmtA) : Statement (.ex2 h f) := joined rfl
theorem lg2 (h : Hdr) (f : FmtA) : Statement (.lg2 h f) := joined rfl
theorem sint (h : Hdr) (f : FmtA) : Statement (.sint h f) := joined rfl
theorem cost (h : Hdr) (f : FmtA) : Statement (.cost h f) := joined rfl
theorem tanh (h : Hdr) (f : FmtA) : Statement (.tanh h f) := joined rfl
theorem sigm (h : Hdr) (f : FmtA) : Statement (.sigm h f) := joined rfl
theorem cvt (h : Hdr) (f : FmtA) : Statement (.cvt h f) := joined rfl
theorem cvpk2 (h : Hdr) (f : FmtA) : Statement (.cvpk2 h f) := joined rfl
theorem cvpk4 (h : Hdr) (f : FmtA) : Statement (.cvpk4 h f) := joined rfl
theorem unpk (h : Hdr) (f : FmtA) : Statement (.unpk h f) := joined rfl
theorem pk6 (h : Hdr) (f : FmtA) : Statement (.pk6 h f) := joined rfl
theorem upk6 (h : Hdr) (f : FmtA) : Statement (.upk6 h f) := joined rfl
theorem pki4 (h : Hdr) (f : FmtA) : Statement (.pki4 h f) := joined rfl
theorem qscl (h : Hdr) (f : FmtA) : Statement (.qscl h f) := joined rfl
theorem pull (h : Hdr) (f : FmtA) : Statement (.pull h f) := joined rfl
theorem pullt (h : Hdr) (f : FmtA) : Statement (.pullt h f) := joined rfl
theorem bcst (h : Hdr) (f : FmtA) : Statement (.bcst h f) := joined rfl
theorem poll (h : Hdr) (f : FmtA) : Statement (.poll h f) := joined rfl
theorem vmask (h : Hdr) (f : FmtA) : Statement (.vmask h f) := joined rfl
theorem lred (h : Hdr) (f : FmtA) : Statement (.lred h f) := joined rfl
theorem lscan (h : Hdr) (f : FmtA) : Statement (.lscan h f) := joined rfl
theorem peers (h : Hdr) (f : FmtA) : Statement (.peers h f) := joined rfl
theorem reord (h : Hdr) (f : FmtA) : Statement (.reord h f) := joined rfl
theorem perm (h : Hdr) (f : FmtA) : Statement (.perm h f) := joined rfl
theorem mov (h : Hdr) (f : FmtA) : Statement (.mov h f) := joined rfl
theorem movs (h : Hdr) (f : FmtA) : Statement (.movs h f) := joined rfl
theorem ccset (h : Hdr) (f : FmtA) : Statement (.ccset h f) := joined rfl
theorem ccmov (h : Hdr) (f : FmtA) : Statement (.ccmov h f) := joined rfl
theorem cclog (h : Hdr) (f : FmtA) : Statement (.cclog h f) := joined rfl
theorem first (h : Hdr) (f : FmtA) : Statement (.first h f) := joined rfl
theorem dmov (h : Hdr) (f : FmtA) : Statement (.dmov h f) := joined rfl
theorem dfromv (h : Hdr) (f : FmtA) : Statement (.dfromv h f) := joined rfl
theorem dtov (h : Hdr) (f : FmtA) : Statement (.dtov h f) := joined rfl
theorem ddot (h : Hdr) (f : FmtA) : Statement (.ddot h f) := joined rfl
theorem dcross (h : Hdr) (f : FmtA) : Statement (.dcross h f) := joined rfl
theorem drefl (h : Hdr) (f : FmtA) : Statement (.drefl h f) := joined rfl
theorem drefr (h : Hdr) (f : FmtA) : Statement (.drefr h f) := joined rfl
theorem dscl (h : Hdr) (f : FmtA) : Statement (.dscl h f) := joined rfl
theorem dnorm (h : Hdr) (f : FmtA) : Statement (.dnorm h f) := joined rfl
theorem dsetn (h : Hdr) (f : FmtA) : Statement (.dsetn h f) := joined rfl
theorem dslerp (h : Hdr) (f : FmtA) : Statement (.dslerp h f) := joined rfl
theorem dcmp (h : Hdr) (f : FmtA) : Statement (.dcmp h f) := joined rfl
theorem dneg (h : Hdr) (f : FmtA) : Statement (.dneg h f) := joined rfl
theorem dadd (h : Hdr) (f : FmtA) : Statement (.dadd h f) := joined rfl
theorem dproj (h : Hdr) (f : FmtA) : Statement (.dproj h f) := joined rfl
theorem dframe (h : Hdr) (f : FmtA) : Statement (.dframe h f) := joined rfl
theorem ld (h : Hdr) (f : FmtM) : Statement (.ld h f) := joined rfl
theorem st (h : Hdr) (f : FmtM) : Statement (.st h f) := joined rfl
theorem ldt (h : Hdr) (f : FmtM) : Statement (.ldt h f) := joined rfl
theorem stt (h : Hdr) (f : FmtM) : Statement (.stt h f) := joined rfl
theorem ldp (h : Hdr) (f : FmtM) : Statement (.ldp h f) := joined rfl
theorem stp (h : Hdr) (f : FmtM) : Statement (.stp h f) := joined rfl
theorem lds (h : Hdr) (f : FmtM) : Statement (.lds h f) := joined rfl
theorem sts (h : Hdr) (f : FmtM) : Statement (.sts h f) := joined rfl
theorem ldc (h : Hdr) (f : FmtM) : Statement (.ldc h f) := joined rfl
theorem ldpl (h : Hdr) (f : FmtM) : Statement (.ldpl h f) := joined rfl
theorem stpl (h : Hdr) (f : FmtM) : Statement (.stpl h f) := joined rfl
theorem pref (h : Hdr) (f : FmtM) : Statement (.pref h f) := joined rfl
theorem ldgn (h : Hdr) (f : FmtM) : Statement (.ldgn h f) := joined rfl
theorem stgn (h : Hdr) (f : FmtM) : Statement (.stgn h f) := joined rfl
theorem cctl (h : Hdr) (f : FmtM) : Statement (.cctl h f) := joined rfl
theorem stashMap (h : Hdr) (f : FmtE) : Statement (.stashMap h f) := joined rfl
theorem stashUnmap (h : Hdr) (f : FmtE) : Statement (.stashUnmap h f) := joined rfl
theorem aadd (h : Hdr) (f : FmtM) : Statement (.aadd h f) := joined rfl
theorem amin (h : Hdr) (f : FmtM) : Statement (.amin h f) := joined rfl
theorem amax (h : Hdr) (f : FmtM) : Statement (.amax h f) := joined rfl
theorem aand (h : Hdr) (f : FmtM) : Statement (.aand h f) := joined rfl
theorem aor (h : Hdr) (f : FmtM) : Statement (.aor h f) := joined rfl
theorem axor (h : Hdr) (f : FmtM) : Statement (.axor h f) := joined rfl
theorem axchg (h : Hdr) (f : FmtM) : Statement (.axchg h f) := joined rfl
theorem acas (h : Hdr) (f : FmtM) : Statement (.acas h f) := joined rfl
theorem afadd (h : Hdr) (f : FmtM) : Statement (.afadd h f) := joined rfl
theorem ainc (h : Hdr) (f : FmtM) : Statement (.ainc h f) := joined rfl
theorem adec (h : Hdr) (f : FmtM) : Statement (.adec h f) := joined rfl
theorem radd (h : Hdr) (f : FmtM) : Statement (.radd h f) := joined rfl
theorem rmin (h : Hdr) (f : FmtM) : Statement (.rmin h f) := joined rfl
theorem rmax (h : Hdr) (f : FmtM) : Statement (.rmax h f) := joined rfl
theorem rfadd (h : Hdr) (f : FmtM) : Statement (.rfadd h f) := joined rfl
theorem acas2 (h : Hdr) (f : FmtM) : Statement (.acas2 h f) := joined rfl
theorem fence (h : Hdr) (f : FmtM) : Statement (.fence h f) := joined rfl
theorem arv (h : Hdr) (f : FmtI) : Statement (.arv h f) := joined rfl
theorem arvx (h : Hdr) (f : FmtI) : Statement (.arvx h f) := joined rfl
theorem waitp (h : Hdr) (f : FmtI) : Statement (.waitp h f) := joined rfl
theorem waitc (h : Hdr) (f : FmtI) : Statement (.waitc h f) := joined rfl
theorem binit (h : Hdr) (f : FmtI) : Statement (.binit h f) := joined rfl
theorem bqry (h : Hdr) (f : FmtI) : Statement (.bqry h f) := joined rfl
theorem rput (h : Hdr) (f : FmtA) : Statement (.rput h f) := joined rfl
theorem rget (h : Hdr) (f : FmtA) : Statement (.rget h f) := joined rfl
theorem rrel (h : Hdr) (f : FmtA) : Statement (.rrel h f) := joined rfl
theorem rdv (h : Hdr) (f : FmtA) : Statement (.rdv h f) := joined rfl
theorem mswin (h : Hdr) (f : FmtI) : Statement (.mswin h f) := joined rfl
theorem mslot (h : Hdr) (f : FmtA) : Statement (.mslot h f) := joined rfl
theorem speed (h : Hdr) (f : FmtI) : Statement (.speed h f) := joined rfl
theorem evrec (h : Hdr) (f : FmtI) : Statement (.evrec h f) := joined rfl
theorem signal (h : Hdr) (f : FmtI) : Statement (.signal h f) := joined rfl
theorem cpy (h : Hdr) (f : FmtE) : Statement (.cpy h f) := joined rfl
theorem cpy2d (h : Hdr) (f : FmtE) : Statement (.cpy2d h f) := joined rfl
theorem cpyt (h : Hdr) (f : FmtE) : Statement (.cpyt h f) := joined rfl
theorem gath (h : Hdr) (f : FmtE) : Statement (.gath h f) := joined rfl
theorem scat (h : Hdr) (f : FmtE) : Statement (.scat h f) := joined rfl
theorem stsp (h : Hdr) (f : FmtE) : Statement (.stsp h f) := joined rfl
theorem ldsp (h : Hdr) (f : FmtE) : Statement (.ldsp h f) := joined rfl
theorem cpypl (h : Hdr) (f : FmtE) : Statement (.cpypl h f) := joined rfl
theorem coll (h : Hdr) (f : FmtE) : Statement (.coll h f) := joined rfl
theorem rdma (h : Hdr) (f : FmtE) : Statement (.rdma h f) := joined rfl
theorem nsend (h : Hdr) (f : FmtE) : Statement (.nsend h f) := joined rfl
theorem nrecv (h : Hdr) (f : FmtE) : Statement (.nrecv h f) := joined rfl
theorem cfill (h : Hdr) (f : FmtE) : Statement (.cfill h f) := joined rfl
theorem cinv (h : Hdr) (f : FmtE) : Statement (.cinv h f) := joined rfl
theorem cstat (h : Hdr) (f : FmtE) : Statement (.cstat h f) := joined rfl
theorem cabort (h : Hdr) (f : FmtE) : Statement (.cabort h f) := joined rfl
theorem mma (h : Hdr) (f : FmtX) : Statement (.mma h f) := joined rfl
theorem mmap (h : Hdr) (f : FmtX) : Statement (.mmap h f) := joined rfl
theorem mmat (h : Hdr) (f : FmtX) : Statement (.mmat h f) := joined rfl
theorem mmapt (h : Hdr) (f : FmtX) : Statement (.mmapt h f) := joined rfl
theorem acz (h : Hdr) (f : FmtX) : Statement (.acz h f) := joined rfl
theorem acld (h : Hdr) (f : FmtX) : Statement (.acld h f) := joined rfl
theorem acst (h : Hdr) (f : FmtX) : Statement (.acst h f) := joined rfl
theorem acmv (h : Hdr) (f : FmtX) : Statement (.acmv h f) := joined rfl
theorem net (h : Hdr) (f : FmtX) : Statement (.net h f) := joined rfl
theorem netr (h : Hdr) (f : FmtX) : Statement (.netr h f) := joined rfl
theorem plcv (h : Hdr) (f : FmtE) : Statement (.plcv h f) := joined rfl
theorem plq (h : Hdr) (f : FmtX) : Statement (.plq h f) := joined rfl
theorem mscl (h : Hdr) (f : FmtX) : Statement (.mscl h f) := joined rfl
theorem msoft (h : Hdr) (f : FmtX) : Statement (.msoft h f) := joined rfl
theorem mpairBind (h : Hdr) (f : FmtI) : Statement (.mpairBind h f) := joined rfl
theorem mpairRel (h : Hdr) (f : FmtI) : Statement (.mpairRel h f) := joined rfl
theorem mepi (h : Hdr) (f : FmtX) : Statement (.mepi h f) := joined rfl
theorem emit (h : Hdr) (f : FmtA) : Statement (.emit h f) := joined rfl
theorem emitv (h : Hdr) (f : FmtA) : Statement (.emitv h f) := joined rfl
theorem blend (h : Hdr) (f : FmtA) : Statement (.blend h f) := joined rfl
theorem ztest (h : Hdr) (f : FmtA) : Statement (.ztest h f) := joined rfl
theorem tres (h : Hdr) (f : FmtA) : Statement (.tres h f) := joined rfl
theorem splat (h : Hdr) (f : FmtE) : Statement (.splat h f) := joined rfl
theorem splatc (h : Hdr) (f : FmtE) : Statement (.splatc h f) := joined rfl
theorem trace (h : Hdr) (f : FmtA) : Statement (.trace h f) := joined rfl
theorem spawn (h : Hdr) (f : FmtA) : Statement (.spawn h f) := joined rfl
theorem hit (h : Hdr) (f : FmtA) : Statement (.hit h f) := joined rfl
theorem rqry (h : Hdr) (f : FmtA) : Statement (.rqry h f) := joined rfl
theorem bldfOpen (h : Hdr) (f : FmtE) : Statement (.bldfOpen h f) := joined rfl
theorem bldfAdd (h : Hdr) (f : FmtE) : Statement (.bldfAdd h f) := joined rfl
theorem bldc (h : Hdr) (f : FmtE) : Statement (.bldc h f) := joined rfl
theorem tlck (h : Hdr) (f : FmtE) : Statement (.tlck h f) := joined rfl
theorem tlrst (h : Hdr) (f : FmtE) : Statement (.tlrst h f) := joined rfl
theorem drawx (h : Hdr) (f : FmtE) : Statement (.drawx h f) := joined rfl
theorem rdsr (h : Hdr) (f : FmtI) : Statement (.rdsr h f) := joined rfl
theorem wrsr (h : Hdr) (f : FmtI) : Statement (.wrsr h f) := joined rfl
theorem save (h : Hdr) (f : FmtI) : Statement (.save h f) := joined rfl
theorem rest (h : Hdr) (f : FmtI) : Statement (.rest h f) := joined rfl
theorem ctxsw (h : Hdr) (f : FmtI) : Statement (.ctxsw h f) := joined rfl
theorem tlbi (h : Hdr) (f : FmtI) : Statement (.tlbi h f) := joined rfl
theorem cflush (h : Hdr) (f : FmtI) : Statement (.cflush h f) := joined rfl
theorem wake (h : Hdr) (f : FmtI) : Statement (.wake h f) := joined rfl
theorem dieq (h : Hdr) (f : FmtI) : Statement (.dieq h f) := joined rfl
theorem logr (h : Hdr) (f : FmtI) : Statement (.logr h f) := joined rfl
theorem perf (h : Hdr) (f : FmtI) : Statement (.perf h f) := joined rfl
theorem bud (h : Hdr) (f : FmtI) : Statement (.bud h f) := joined rfl
theorem halt (h : Hdr) (f : FmtI) : Statement (.halt h f) := joined rfl
theorem dbg (h : Hdr) (f : FmtI) : Statement (.dbg h f) := joined rfl
theorem brks (h : Hdr) (f : FmtI) : Statement (.brks h f) := joined rfl
theorem ill (h : Hdr) (f : FmtI) : Statement (.ill h f) := joined rfl

end Sys2Proof.Laws.WordParts
end

