-- ==== Sys2Proof/Laws/WordDispatch.lean ====
section
/-!
SUPPORT. The compiled dispatch of a word answers what `exec` answers on the instruction that the decoder reads.
-/

namespace Sys2Proof.Machine

theorem execRow0_eq (w : Word96) (s : State) : ∀ col, execRow0 col w s = exec (decodeRow0 col w) s
  | 0 => rfl
  | 1 => rfl
  | 2 => rfl
  | 3 => rfl
  | 4 => rfl
  | 5 => rfl
  | 6 => rfl
  | 7 => rfl
  | 8 => rfl
  | 9 => rfl
  | 10 => rfl
  | 11 => rfl
  | 12 => rfl
  | 13 => rfl
  | 14 => rfl
  | _ + 15 => rfl

theorem execRow1_eq (w : Word96) (s : State) : ∀ col, execRow1 col w s = exec (decodeRow1 col w) s
  | 0 => rfl
  | 1 => rfl
  | 2 => rfl
  | 3 => rfl
  | 4 => rfl
  | 5 => rfl
  | 6 => rfl
  | 7 => rfl
  | 8 => rfl
  | 9 => rfl
  | 10 => rfl
  | 11 => rfl
  | 12 => rfl
  | 13 => rfl
  | 14 => rfl
  | _ + 15 => rfl

theorem execRow2_eq (w : Word96) (s : State) : ∀ col, execRow2 col w s = exec (decodeRow2 col w) s
  | 0 => rfl
  | 1 => rfl
  | 2 => rfl
  | 3 => rfl
  | 4 => rfl
  | 5 => rfl
  | 6 => rfl
  | 7 => rfl
  | 8 => rfl
  | 9 => rfl
  | 10 => rfl
  | 11 => rfl
  | 12 => rfl
  | 13 => rfl
  | 14 => rfl
  | _ + 15 => rfl

theorem execRow3_eq (w : Word96) (s : State) : ∀ col, execRow3 col w s = exec (decodeRow3 col w) s
  | 0 => rfl
  | 1 => rfl
  | 2 => rfl
  | 3 => rfl
  | 4 => rfl
  | 5 => rfl
  | 6 => rfl
  | 7 => rfl
  | 8 => rfl
  | 9 => rfl
  | 10 => rfl
  | 11 => rfl
  | 12 => rfl
  | 13 => rfl
  | 14 => rfl
  | _ + 15 => rfl

theorem execRow4_eq (w : Word96) (s : State) : ∀ col, execRow4 col w s = exec (decodeRow4 col w) s
  | 0 => rfl
  | 1 => rfl
  | 2 => rfl
  | 3 => rfl
  | 4 => rfl
  | 5 => rfl
  | 6 => rfl
  | 7 => rfl
  | 8 => rfl
  | 9 => rfl
  | 10 => rfl
  | 11 => rfl
  | 12 => rfl
  | 13 => rfl
  | 14 => rfl
  | _ + 15 => rfl

theorem execRow5_eq (w : Word96) (s : State) : ∀ col, execRow5 col w s = exec (decodeRow5 col w) s
  | 0 => rfl
  | 1 => rfl
  | 2 => rfl
  | 3 => rfl
  | 4 => rfl
  | 5 => rfl
  | 6 => rfl
  | 7 => rfl
  | 8 => rfl
  | 9 => rfl
  | 10 => rfl
  | 11 => rfl
  | 12 => rfl
  | 13 => rfl
  | 14 => rfl
  | _ + 15 => rfl

theorem execRow6_eq (w : Word96) (s : State) : ∀ col, execRow6 col w s = exec (decodeRow6 col w) s
  | 0 => rfl
  | 1 => rfl
  | 2 => rfl
  | 3 => rfl
  | 4 => rfl
  | 5 => rfl
  | 6 => rfl
  | 7 => rfl
  | 8 => rfl
  | 9 => rfl
  | 10 => rfl
  | 11 => rfl
  | 12 => rfl
  | 13 => rfl
  | 14 => rfl
  | _ + 15 => rfl

theorem execRow7_eq (w : Word96) (s : State) : ∀ col, execRow7 col w s = exec (decodeRow7 col w) s
  | 0 => rfl
  | 1 => rfl
  | 2 => rfl
  | 3 => rfl
  | 4 => rfl
  | 5 => rfl
  | 6 => rfl
  | 7 => rfl
  | 8 => rfl
  | 9 => rfl
  | 10 => rfl
  | 11 => rfl
  | 12 => rfl
  | 13 => rfl
  | 14 => rfl
  | _ + 15 => rfl

theorem execRow8_eq (w : Word96) (s : State) : ∀ col, execRow8 col w s = exec (decodeRow8 col w) s
  | 0 => rfl
  | 1 => rfl
  | 2 => rfl
  | 3 => rfl
  | 4 => rfl
  | 5 => rfl
  | 6 => rfl
  | 7 => rfl
  | 8 => rfl
  | 9 => rfl
  | 10 => rfl
  | 11 => rfl
  | 12 => rfl
  | 13 => rfl
  | 14 => rfl
  | _ + 15 => rfl

theorem execRow9_eq (w : Word96) (s : State) : ∀ col, execRow9 col w s = exec (decodeRow9 col w) s
  | 0 => rfl
  | 1 => rfl
  | 2 => rfl
  | 3 => rfl
  | 4 => rfl
  | 5 => rfl
  | 6 => rfl
  | 7 => rfl
  | 8 => rfl
  | 9 => rfl
  | 10 => rfl
  | 11 => rfl
  | 12 => rfl
  | 13 => rfl
  | 14 => rfl
  | _ + 15 => by
    show (if w.getLsbD 0 = true then execStashUnmap (decodeHdr w) (decodeE w) s else execStashMap (decodeHdr w) (decodeE w) s) =
      exec (if w.getLsbD 0 = true then .stashUnmap (decodeHdr w) (decodeE w) else .stashMap (decodeHdr w) (decodeE w)) s
    split <;> rfl

theorem execRow10_eq (w : Word96) (s : State) : ∀ col, execRow10 col w s = exec (decodeRow10 col w) s
  | 0 => rfl
  | 1 => rfl
  | 2 => rfl
  | 3 => rfl
  | 4 => rfl
  | 5 => rfl
  | 6 => rfl
  | 7 => rfl
  | 8 => rfl
  | 9 => rfl
  | 10 => rfl
  | 11 => rfl
  | 12 => rfl
  | 13 => rfl
  | 14 => rfl
  | _ + 15 => rfl

theorem execRow11_eq (w : Word96) (s : State) : ∀ col, execRow11 col w s = exec (decodeRow11 col w) s
  | 0 => rfl
  | 1 => rfl
  | 2 => rfl
  | 3 => rfl
  | 4 => rfl
  | 5 => rfl
  | 6 => rfl
  | 7 => rfl
  | 8 => rfl
  | 9 => rfl
  | 10 => rfl
  | 11 => rfl
  | 12 => rfl
  | 13 => rfl
  | 14 => rfl
  | _ + 15 => rfl

theorem execRow12_eq (w : Word96) (s : State) : ∀ col, execRow12 col w s = exec (decodeRow12 col w) s
  | 0 => rfl
  | 1 => rfl
  | 2 => rfl
  | 3 => rfl
  | 4 => rfl
  | 5 => rfl
  | 6 => rfl
  | 7 => rfl
  | 8 => rfl
  | 9 => rfl
  | 10 => rfl
  | 11 => rfl
  | 12 => rfl
  | 13 => rfl
  | 14 => rfl
  | _ + 15 => rfl

theorem execRow13_eq (w : Word96) (s : State) : ∀ col, execRow13 col w s = exec (decodeRow13 col w) s
  | 0 => rfl
  | 1 => rfl
  | 2 => rfl
  | 3 => rfl
  | 4 => rfl
  | 5 => rfl
  | 6 => rfl
  | 7 => rfl
  | 8 => rfl
  | 9 => rfl
  | 10 => rfl
  | 11 => rfl
  | 12 => rfl
  | 13 => rfl
  | 14 => by
    show (if w.getLsbD 22 = true then execMpairBind (decodeHdr w) (decodeI w) s else execMpairRel (decodeHdr w) (decodeI w) s) =
      exec (if w.getLsbD 22 = true then .mpairBind (decodeHdr w) (decodeI w) else .mpairRel (decodeHdr w) (decodeI w)) s
    split <;> rfl
  | _ + 15 => rfl

theorem execRow14_eq (w : Word96) (s : State) : ∀ col, execRow14 col w s = exec (decodeRow14 col w) s
  | 0 => rfl
  | 1 => rfl
  | 2 => rfl
  | 3 => rfl
  | 4 => rfl
  | 5 => rfl
  | 6 => rfl
  | 7 => rfl
  | 8 => rfl
  | 9 => rfl
  | 10 => rfl
  | 11 => by
    show (if w.getLsbD 0 = true then execBldfAdd (decodeHdr w) (decodeE w) s else execBldfOpen (decodeHdr w) (decodeE w) s) =
      exec (if w.getLsbD 0 = true then .bldfAdd (decodeHdr w) (decodeE w) else .bldfOpen (decodeHdr w) (decodeE w)) s
    split <;> rfl
  | 12 => rfl
  | 13 => rfl
  | 14 => rfl
  | _ + 15 => rfl

theorem execRow15_eq (w : Word96) (s : State) : ∀ col, execRow15 col w s = exec (decodeRow15 col w) s
  | 0 => rfl
  | 1 => rfl
  | 2 => rfl
  | 3 => rfl
  | 4 => rfl
  | 5 => rfl
  | 6 => rfl
  | 7 => rfl
  | 8 => rfl
  | 9 => rfl
  | 10 => rfl
  | 11 => rfl
  | 12 => rfl
  | 13 => rfl
  | 14 => rfl
  | _ + 15 => rfl

/-- The compiled dispatch runs the decoded instruction. -/
theorem execWord_eq (w : Word96) (s : State) : execWord w s = exec (decodeWord w) s := by
  unfold execWord decodeWord
  dsimp only
  generalize (w.extractLsb' 88 4).toNat = col
  generalize (w.extractLsb' 92 4).toNat = row
  match row with
  | 0 => exact execRow0_eq w s col
  | 1 => exact execRow1_eq w s col
  | 2 => exact execRow2_eq w s col
  | 3 => exact execRow3_eq w s col
  | 4 => exact execRow4_eq w s col
  | 5 => exact execRow5_eq w s col
  | 6 => exact execRow6_eq w s col
  | 7 => exact execRow7_eq w s col
  | 8 => exact execRow8_eq w s col
  | 9 => exact execRow9_eq w s col
  | 10 => exact execRow10_eq w s col
  | 11 => exact execRow11_eq w s col
  | 12 => exact execRow12_eq w s col
  | 13 => exact execRow13_eq w s col
  | 14 => exact execRow14_eq w s col
  | _ + 15 => exact execRow15_eq w s col

end Sys2Proof.Machine
end

