-- ==== Sys2Proof/Tests/Slice0.lean ====
section
/-!
SUPPORT. Tests: the words of every row of the opcode map, a witness for the hypotheses of every statement, well-formedness,
and worked examples of the spec.
-/

namespace Sys2Proof.Tests

set_option Elab.async false

open Sys2Proof Sys2Proof.Machine

def src (ep lr : Bool) (o : Opnd) : Src := { ep := ep, lr := lr, reg := o }

def hdr : Hdr := { scope := .group, gc := 2, cond := .eq, fin := true }

def fieldsA : FmtA :=
  { dst := .v 4, cw := 5, sa := src true false (.v 2), sb := src false true (.s 7), sc := src false false (.imm 5), fn := 0x2AAAAAA9 }

def fieldsI : FmtI := { dst := .c 3, cw := 4, sa := src true true (.d 15), imm := 0x89ABCDEF, fn := 0x123456 }

def fieldsI0 : FmtI := { fieldsI with imm := 0x89ABCDEE }

def fieldsM : FmtM :=
  { data := .v 9, ord := 3, base := src false false (.s 10), index := src true false (.v 12), off := -16, space := 6, size := 2
    mscope := 5, cache := 6, scl := 3, fn := 1 }

def fieldsB : FmtB := { tgt := 0x3FFFFFC, await := [.s 3, .v 200, .t 7, .zr], safe := true, hint := false, fn := 0x155 }

def fieldsC : FmtC := { await := [.v 0, .s 159, .d 1, .t 2, .zr, .zr, .v 255], safe := true, yieldHint := false, rsv := 0 }

def fieldsE : FmtE :=
  { desc := .s 20, bar := 37, ben := true, evq := false, sa := src false false (.spec 2), sb := src false false (.imm (-32))
    imm := 0xABCDEE, fn := 0x1000 }

def fieldsE1 : FmtE := { fieldsE with fn := 0x1001 }

def fieldsX : FmtX :=
  { acc := 3, sla := 1, slb := 6, pa := 12, pb := 4, abase := src false false (.s 5), bbase := src true false (.s 6)
    shape := src false false (.s 159), tri := 2, mask := 4, fn := 0x54321 }

/-- Group scope, (c2.eq), END; DST v4, CW 5, SA v2 with EP, SB s7 with LR, SC 5, FN 0x2AAAAAA9 (R339, R347). -/
def bodyA : BitVec 88 := 0x61809600941C996AAAAAA9#88

/-- DST c3, CW 4, SA d15 with EP and LR, IMM 0x89ABCDEF, FN 0x123456 (R348). -/
def bodyI : BitVec 88 := 0x61C47387E26AF37BD23456#88

/-- The same with IMM 0x89ABCDEE. -/
def bodyI0 : BitVec 88 := 0x61C47387E26AF37B923456#88

/-- DATA v9, ORD 3, BASE s10, INDEX v12 with EP, OFF -16, SPACE 6, SIZE 2, MSCOPE 5, CACHE PF and 2, SCL 3, FN 1 (R349). -/
def bodyM : BitVec 88 := 0x61812C42A033FFFFC32B99#88

/-- FOFF -1, SLOT 4, AWAIT s3, v200, t7 and none, SAFE, FN 0x155 (R351). -/
def bodyB : BitVec 88 := 0x61FFFFFF88199103FFF155#88

/-- AWAIT v0, s159, d1, t2, none, none, v255; SAFE (R353). -/
def bodyC : BitVec 88 := 0x61800CFC23017FFFF9FF00#88

/-- DESC s20, BAR 37, BEN, SA s162, SB -32, IMM 0xABCDEE, FN 0x1000 (R354). -/
def bodyE : BitVec 88 := 0x61A292C344481579BDD000#88

/-- The same with FN 0x1001. -/
def bodyE1 : BitVec 88 := 0x61A292C344481579BDD001#88

/-- ACC 3, SLA 1, SLB 6, PA 12, PB 4, ABASE s5, BBASE s6 with EP, SHAPE s159, TRI 2, MASK 4, FN 0x54321 (R355). -/
def bodyX : BitVec 88 := 0x61B3B1041641867E454321#88

/-- R357: the opcodes of row 0x0. -/
theorem test_decode_row0 :
  decodeWord (0x0#8 ++ bodyA) = .nop hdr fieldsA ∧
  decodeWord (0x1#8 ++ bodyC) = .colo hdr fieldsC ∧
  decodeWord (0x2#8 ++ bodyB) = .bra hdr fieldsB ∧
  decodeWord (0x3#8 ++ bodyB) = .brx hdr fieldsB ∧
  decodeWord (0x4#8 ++ bodyB) = .call hdr fieldsB ∧
  decodeWord (0x5#8 ++ bodyB) = .callx hdr fieldsB ∧
  decodeWord (0x6#8 ++ bodyB) = .ret hdr fieldsB ∧
  decodeWord (0x7#8 ++ bodyA) = .exit hdr fieldsA ∧
  decodeWord (0x8#8 ++ bodyB) = .bany hdr fieldsB ∧
  decodeWord (0x9#8 ++ bodyB) = .ball hdr fieldsB ∧
  decodeWord (0xA#8 ++ bodyA) = .yield hdr fieldsA ∧
  decodeWord (0xB#8 ++ bodyI) = .trap hdr fieldsI ∧
  decodeWord (0xC#8 ++ bodyI) = .bkpt hdr fieldsI ∧
  decodeWord (0xD#8 ++ bodyI) = .rft hdr fieldsI ∧
  decodeWord (0xE#8 ++ bodyB) = .loop hdr fieldsB ∧
  decodeWord (0xF#8 ++ bodyB) = .jmpt hdr fieldsB := by
  decide +kernel

/-- R357: the opcodes of row 0x1. -/
theorem test_decode_row1 :
  decodeWord (0x10#8 ++ bodyA) = .iadd hdr fieldsA ∧
  decodeWord (0x11#8 ++ bodyA) = .isub hdr fieldsA ∧
  decodeWord (0x12#8 ++ bodyA) = .imul hdr fieldsA ∧
  decodeWord (0x13#8 ++ bodyA) = .imulh hdr fieldsA ∧
  decodeWord (0x14#8 ++ bodyA) = .imad hdr fieldsA ∧
  decodeWord (0x15#8 ++ bodyA) = .imadw hdr fieldsA ∧
  decodeWord (0x16#8 ++ bodyA) = .idiv hdr fieldsA ∧
  decodeWord (0x17#8 ++ bodyA) = .irem hdr fieldsA ∧
  decodeWord (0x18#8 ++ bodyA) = .imin hdr fieldsA ∧
  decodeWord (0x19#8 ++ bodyA) = .imax hdr fieldsA ∧
  decodeWord (0x1A#8 ++ bodyA) = .iabs hdr fieldsA ∧
  decodeWord (0x1B#8 ++ bodyA) = .ineg hdr fieldsA ∧
  decodeWord (0x1C#8 ++ bodyA) = .iaddc hdr fieldsA ∧
  decodeWord (0x1D#8 ++ bodyA) = .isubb hdr fieldsA ∧
  decodeWord (0x1E#8 ++ bodyA) = .isad hdr fieldsA ∧
  decodeWord (0x1F#8 ++ bodyA) = .idot4 hdr fieldsA := by
  decide +kernel

/-- R357: the opcodes of row 0x2. -/
theorem test_decode_row2 :
  decodeWord (0x20#8 ++ bodyI) = .iaddi hdr fieldsI ∧
  decodeWord (0x21#8 ++ bodyI) = .imuli hdr fieldsI ∧
  decodeWord (0x22#8 ++ bodyI) = .imadi hdr fieldsI ∧
  decodeWord (0x23#8 ++ bodyI) = .imini hdr fieldsI ∧
  decodeWord (0x24#8 ++ bodyI) = .imaxi hdr fieldsI ∧
  decodeWord (0x25#8 ++ bodyI) = .andi hdr fieldsI ∧
  decodeWord (0x26#8 ++ bodyI) = .ori hdr fieldsI ∧
  decodeWord (0x27#8 ++ bodyI) = .xori hdr fieldsI ∧
  decodeWord (0x28#8 ++ bodyI) = .shli hdr fieldsI ∧
  decodeWord (0x29#8 ++ bodyI) = .shri hdr fieldsI ∧
  decodeWord (0x2A#8 ++ bodyI) = .sari hdr fieldsI ∧
  decodeWord (0x2B#8 ++ bodyI) = .movi hdr fieldsI ∧
  decodeWord (0x2C#8 ++ bodyM) = .lea hdr fieldsM ∧
  decodeWord (0x2D#8 ++ bodyM) = .leax hdr fieldsM ∧
  decodeWord (0x2E#8 ++ bodyA) = .sptest hdr fieldsA ∧
  decodeWord (0x2F#8 ++ bodyA) = .spcast hdr fieldsA := by
  decide +kernel

/-- R357: the opcodes of row 0x3. -/
theorem test_decode_row3 :
  decodeWord (0x30#8 ++ bodyA) = .and_ hdr fieldsA ∧
  decodeWord (0x31#8 ++ bodyA) = .or_ hdr fieldsA ∧
  decodeWord (0x32#8 ++ bodyA) = .xor_ hdr fieldsA ∧
  decodeWord (0x33#8 ++ bodyA) = .btab hdr fieldsA ∧
  decodeWord (0x34#8 ++ bodyA) = .shl hdr fieldsA ∧
  decodeWord (0x35#8 ++ bodyA) = .shr hdr fieldsA ∧
  decodeWord (0x36#8 ++ bodyA) = .sar hdr fieldsA ∧
  decodeWord (0x37#8 ++ bodyA) = .rot hdr fieldsA ∧
  decodeWord (0x38#8 ++ bodyA) = .funnel hdr fieldsA ∧
  decodeWord (0x39#8 ++ bodyA) = .popc hdr fieldsA ∧
  decodeWord (0x3A#8 ++ bodyA) = .clz hdr fieldsA ∧
  decodeWord (0x3B#8 ++ bodyA) = .brev hdr fieldsA ∧
  decodeWord (0x3C#8 ++ bodyA) = .bfx hdr fieldsA ∧
  decodeWord (0x3D#8 ++ bodyA) = .bfi hdr fieldsA ∧
  decodeWord (0x3E#8 ++ bodyA) = .icmp hdr fieldsA ∧
  decodeWord (0x3F#8 ++ bodyA) = .sel hdr fieldsA := by
  decide +kernel

/-- R357: the opcodes of row 0x4. -/
theorem test_decode_row4 :
  decodeWord (0x40#8 ++ bodyA) = .fadd hdr fieldsA ∧
  decodeWord (0x41#8 ++ bodyA) = .fsub hdr fieldsA ∧
  decodeWord (0x42#8 ++ bodyA) = .fmul hdr fieldsA ∧
  decodeWord (0x43#8 ++ bodyA) = .ffma hdr fieldsA ∧
  decodeWord (0x44#8 ++ bodyA) = .fmin hdr fieldsA ∧
  decodeWord (0x45#8 ++ bodyA) = .fmax hdr fieldsA ∧
  decodeWord (0x46#8 ++ bodyA) = .fcmp hdr fieldsA ∧
  decodeWord (0x47#8 ++ bodyA) = .fclass hdr fieldsA ∧
  decodeWord (0x48#8 ++ bodyA) = .frnd hdr fieldsA ∧
  decodeWord (0x49#8 ++ bodyA) = .ffrc hdr fieldsA ∧
  decodeWord (0x4A#8 ++ bodyA) = .fscale hdr fieldsA ∧
  decodeWord (0x4B#8 ++ bodyA) = .fdiv hdr fieldsA ∧
  decodeWord (0x4C#8 ++ bodyA) = .fsqrt hdr fieldsA ∧
  decodeWord (0x4D#8 ++ bodyA) = .fdot2 hdr fieldsA ∧
  decodeWord (0x4E#8 ++ bodyA) = .fmed3 hdr fieldsA ∧
  decodeWord (0x4F#8 ++ bodyA) = .fsgn hdr fieldsA := by
  decide +kernel

/-- R357: the opcodes of row 0x5. -/
theorem test_decode_row5 :
  decodeWord (0x50#8 ++ bodyA) = .hadd2 hdr fieldsA ∧
  decodeWord (0x51#8 ++ bodyA) = .hmul2 hdr fieldsA ∧
  decodeWord (0x52#8 ++ bodyA) = .hfma2 hdr fieldsA ∧
  decodeWord (0x53#8 ++ bodyA) = .hmin2 hdr fieldsA ∧
  decodeWord (0x54#8 ++ bodyA) = .hmax2 hdr fieldsA ∧
  decodeWord (0x55#8 ++ bodyA) = .hcmp2 hdr fieldsA ∧
  decodeWord (0x56#8 ++ bodyA) = .hdot2 hdr fieldsA ∧
  decodeWord (0x57#8 ++ bodyA) = .cadd hdr fieldsA ∧
  decodeWord (0x58#8 ++ bodyA) = .cmul hdr fieldsA ∧
  decodeWord (0x59#8 ++ bodyA) = .cmad hdr fieldsA ∧
  decodeWord (0x5A#8 ++ bodyA) = .cmulc hdr fieldsA ∧
  decodeWord (0x5B#8 ++ bodyA) = .cabs2 hdr fieldsA ∧
  decodeWord (0x5C#8 ++ bodyA) = .cexpi hdr fieldsA ∧
  decodeWord (0x5D#8 ++ bodyA) = .cscale hdr fieldsA ∧
  decodeWord (0x5E#8 ++ bodyA) = .crot hdr fieldsA ∧
  decodeWord (0x5F#8 ++ bodyA) = .cmag hdr fieldsA := by
  decide +kernel

/-- R357: the opcodes of row 0x6. -/
theorem test_decode_row6 :
  decodeWord (0x60#8 ++ bodyA) = .rcp hdr fieldsA ∧
  decodeWord (0x61#8 ++ bodyA) = .rsq hdr fieldsA ∧
  decodeWord (0x62#8 ++ bodyA) = .ex2 hdr fieldsA ∧
  decodeWord (0x63#8 ++ bodyA) = .lg2 hdr fieldsA ∧
  decodeWord (0x64#8 ++ bodyA) = .sint hdr fieldsA ∧
  decodeWord (0x65#8 ++ bodyA) = .cost hdr fieldsA ∧
  decodeWord (0x66#8 ++ bodyA) = .tanh hdr fieldsA ∧
  decodeWord (0x67#8 ++ bodyA) = .sigm hdr fieldsA ∧
  decodeWord (0x68#8 ++ bodyA) = .cvt hdr fieldsA ∧
  decodeWord (0x69#8 ++ bodyA) = .cvpk2 hdr fieldsA ∧
  decodeWord (0x6A#8 ++ bodyA) = .cvpk4 hdr fieldsA ∧
  decodeWord (0x6B#8 ++ bodyA) = .unpk hdr fieldsA ∧
  decodeWord (0x6C#8 ++ bodyA) = .pk6 hdr fieldsA ∧
  decodeWord (0x6D#8 ++ bodyA) = .upk6 hdr fieldsA ∧
  decodeWord (0x6E#8 ++ bodyA) = .pki4 hdr fieldsA ∧
  decodeWord (0x6F#8 ++ bodyA) = .qscl hdr fieldsA := by
  decide +kernel

/-- R357: the opcodes of row 0x7. -/
theorem test_decode_row7 :
  decodeWord (0x70#8 ++ bodyA) = .pull hdr fieldsA ∧
  decodeWord (0x71#8 ++ bodyA) = .pullt hdr fieldsA ∧
  decodeWord (0x72#8 ++ bodyA) = .bcst hdr fieldsA ∧
  decodeWord (0x73#8 ++ bodyA) = .poll hdr fieldsA ∧
  decodeWord (0x74#8 ++ bodyA) = .vmask hdr fieldsA ∧
  decodeWord (0x75#8 ++ bodyA) = .lred hdr fieldsA ∧
  decodeWord (0x76#8 ++ bodyA) = .lscan hdr fieldsA ∧
  decodeWord (0x77#8 ++ bodyA) = .peers hdr fieldsA ∧
  decodeWord (0x78#8 ++ bodyA) = .reord hdr fieldsA ∧
  decodeWord (0x79#8 ++ bodyA) = .perm hdr fieldsA ∧
  decodeWord (0x7A#8 ++ bodyA) = .mov hdr fieldsA ∧
  decodeWord (0x7B#8 ++ bodyA) = .movs hdr fieldsA ∧
  decodeWord (0x7C#8 ++ bodyA) = .ccset hdr fieldsA ∧
  decodeWord (0x7D#8 ++ bodyA) = .ccmov hdr fieldsA ∧
  decodeWord (0x7E#8 ++ bodyA) = .cclog hdr fieldsA ∧
  decodeWord (0x7F#8 ++ bodyA) = .first hdr fieldsA := by
  decide +kernel

/-- R357: the opcodes of row 0x8. -/
theorem test_decode_row8 :
  decodeWord (0x80#8 ++ bodyA) = .dmov hdr fieldsA ∧
  decodeWord (0x81#8 ++ bodyA) = .dfromv hdr fieldsA ∧
  decodeWord (0x82#8 ++ bodyA) = .dtov hdr fieldsA ∧
  decodeWord (0x83#8 ++ bodyA) = .ddot hdr fieldsA ∧
  decodeWord (0x84#8 ++ bodyA) = .dcross hdr fieldsA ∧
  decodeWord (0x85#8 ++ bodyA) = .drefl hdr fieldsA ∧
  decodeWord (0x86#8 ++ bodyA) = .drefr hdr fieldsA ∧
  decodeWord (0x87#8 ++ bodyA) = .dscl hdr fieldsA ∧
  decodeWord (0x88#8 ++ bodyA) = .dnorm hdr fieldsA ∧
  decodeWord (0x89#8 ++ bodyA) = .dsetn hdr fieldsA ∧
  decodeWord (0x8A#8 ++ bodyA) = .dslerp hdr fieldsA ∧
  decodeWord (0x8B#8 ++ bodyA) = .dcmp hdr fieldsA ∧
  decodeWord (0x8C#8 ++ bodyA) = .dneg hdr fieldsA ∧
  decodeWord (0x8D#8 ++ bodyA) = .dadd hdr fieldsA ∧
  decodeWord (0x8E#8 ++ bodyA) = .dproj hdr fieldsA ∧
  decodeWord (0x8F#8 ++ bodyA) = .dframe hdr fieldsA := by
  decide +kernel

/-- R357: the opcodes of row 0x9. -/
theorem test_decode_row9 :
  decodeWord (0x90#8 ++ bodyM) = .ld hdr fieldsM ∧
  decodeWord (0x91#8 ++ bodyM) = .st hdr fieldsM ∧
  decodeWord (0x92#8 ++ bodyM) = .ldt hdr fieldsM ∧
  decodeWord (0x93#8 ++ bodyM) = .stt hdr fieldsM ∧
  decodeWord (0x94#8 ++ bodyM) = .ldp hdr fieldsM ∧
  decodeWord (0x95#8 ++ bodyM) = .stp hdr fieldsM ∧
  decodeWord (0x96#8 ++ bodyM) = .lds hdr fieldsM ∧
  decodeWord (0x97#8 ++ bodyM) = .sts hdr fieldsM ∧
  decodeWord (0x98#8 ++ bodyM) = .ldc hdr fieldsM ∧
  decodeWord (0x99#8 ++ bodyM) = .ldpl hdr fieldsM ∧
  decodeWord (0x9A#8 ++ bodyM) = .stpl hdr fieldsM ∧
  decodeWord (0x9B#8 ++ bodyM) = .pref hdr fieldsM ∧
  decodeWord (0x9C#8 ++ bodyM) = .ldgn hdr fieldsM ∧
  decodeWord (0x9D#8 ++ bodyM) = .stgn hdr fieldsM ∧
  decodeWord (0x9E#8 ++ bodyM) = .cctl hdr fieldsM ∧
  decodeWord (0x9F#8 ++ bodyE1) = .stashUnmap hdr fieldsE1 ∧
  decodeWord (0x9F#8 ++ bodyE) = .stashMap hdr fieldsE := by
  decide +kernel

/-- R357: the opcodes of row 0xA. -/
theorem test_decode_rowA :
  decodeWord (0xA0#8 ++ bodyM) = .aadd hdr fieldsM ∧
  decodeWord (0xA1#8 ++ bodyM) = .amin hdr fieldsM ∧
  decodeWord (0xA2#8 ++ bodyM) = .amax hdr fieldsM ∧
  decodeWord (0xA3#8 ++ bodyM) = .aand hdr fieldsM ∧
  decodeWord (0xA4#8 ++ bodyM) = .aor hdr fieldsM ∧
  decodeWord (0xA5#8 ++ bodyM) = .axor hdr fieldsM ∧
  decodeWord (0xA6#8 ++ bodyM) = .axchg hdr fieldsM ∧
  decodeWord (0xA7#8 ++ bodyM) = .acas hdr fieldsM ∧
  decodeWord (0xA8#8 ++ bodyM) = .afadd hdr fieldsM ∧
  decodeWord (0xA9#8 ++ bodyM) = .ainc hdr fieldsM ∧
  decodeWord (0xAA#8 ++ bodyM) = .adec hdr fieldsM ∧
  decodeWord (0xAB#8 ++ bodyM) = .radd hdr fieldsM ∧
  decodeWord (0xAC#8 ++ bodyM) = .rmin hdr fieldsM ∧
  decodeWord (0xAD#8 ++ bodyM) = .rmax hdr fieldsM ∧
  decodeWord (0xAE#8 ++ bodyM) = .rfadd hdr fieldsM ∧
  decodeWord (0xAF#8 ++ bodyM) = .acas2 hdr fieldsM := by
  decide +kernel

/-- R357: the opcodes of row 0xB. -/
theorem test_decode_rowB :
  decodeWord (0xB0#8 ++ bodyM) = .fence hdr fieldsM ∧
  decodeWord (0xB1#8 ++ bodyI) = .arv hdr fieldsI ∧
  decodeWord (0xB2#8 ++ bodyI) = .arvx hdr fieldsI ∧
  decodeWord (0xB3#8 ++ bodyI) = .waitp hdr fieldsI ∧
  decodeWord (0xB4#8 ++ bodyI) = .waitc hdr fieldsI ∧
  decodeWord (0xB5#8 ++ bodyI) = .binit hdr fieldsI ∧
  decodeWord (0xB6#8 ++ bodyI) = .bqry hdr fieldsI ∧
  decodeWord (0xB7#8 ++ bodyA) = .rput hdr fieldsA ∧
  decodeWord (0xB8#8 ++ bodyA) = .rget hdr fieldsA ∧
  decodeWord (0xB9#8 ++ bodyA) = .rrel hdr fieldsA ∧
  decodeWord (0xBA#8 ++ bodyA) = .rdv hdr fieldsA ∧
  decodeWord (0xBB#8 ++ bodyI) = .mswin hdr fieldsI ∧
  decodeWord (0xBC#8 ++ bodyA) = .mslot hdr fieldsA ∧
  decodeWord (0xBD#8 ++ bodyI) = .speed hdr fieldsI ∧
  decodeWord (0xBE#8 ++ bodyI) = .evrec hdr fieldsI ∧
  decodeWord (0xBF#8 ++ bodyI) = .signal hdr fieldsI := by
  decide +kernel

/-- R357: the opcodes of row 0xC. -/
theorem test_decode_rowC :
  decodeWord (0xC0#8 ++ bodyE) = .cpy hdr fieldsE ∧
  decodeWord (0xC1#8 ++ bodyE) = .cpy2d hdr fieldsE ∧
  decodeWord (0xC2#8 ++ bodyE) = .cpyt hdr fieldsE ∧
  decodeWord (0xC3#8 ++ bodyE) = .gath hdr fieldsE ∧
  decodeWord (0xC4#8 ++ bodyE) = .scat hdr fieldsE ∧
  decodeWord (0xC5#8 ++ bodyE) = .stsp hdr fieldsE ∧
  decodeWord (0xC6#8 ++ bodyE) = .ldsp hdr fieldsE ∧
  decodeWord (0xC7#8 ++ bodyE) = .cpypl hdr fieldsE ∧
  decodeWord (0xC8#8 ++ bodyE) = .coll hdr fieldsE ∧
  decodeWord (0xC9#8 ++ bodyE) = .rdma hdr fieldsE ∧
  decodeWord (0xCA#8 ++ bodyE) = .nsend hdr fieldsE ∧
  decodeWord (0xCB#8 ++ bodyE) = .nrecv hdr fieldsE ∧
  decodeWord (0xCC#8 ++ bodyE) = .cfill hdr fieldsE ∧
  decodeWord (0xCD#8 ++ bodyE) = .cinv hdr fieldsE ∧
  decodeWord (0xCE#8 ++ bodyE) = .cstat hdr fieldsE ∧
  decodeWord (0xCF#8 ++ bodyE) = .cabort hdr fieldsE := by
  decide +kernel

/-- R357: the opcodes of row 0xD. -/
theorem test_decode_rowD :
  decodeWord (0xD0#8 ++ bodyX) = .mma hdr fieldsX ∧
  decodeWord (0xD1#8 ++ bodyX) = .mmap hdr fieldsX ∧
  decodeWord (0xD2#8 ++ bodyX) = .mmat hdr fieldsX ∧
  decodeWord (0xD3#8 ++ bodyX) = .mmapt hdr fieldsX ∧
  decodeWord (0xD4#8 ++ bodyX) = .acz hdr fieldsX ∧
  decodeWord (0xD5#8 ++ bodyX) = .acld hdr fieldsX ∧
  decodeWord (0xD6#8 ++ bodyX) = .acst hdr fieldsX ∧
  decodeWord (0xD7#8 ++ bodyX) = .acmv hdr fieldsX ∧
  decodeWord (0xD8#8 ++ bodyX) = .net hdr fieldsX ∧
  decodeWord (0xD9#8 ++ bodyX) = .netr hdr fieldsX ∧
  decodeWord (0xDA#8 ++ bodyE) = .plcv hdr fieldsE ∧
  decodeWord (0xDB#8 ++ bodyX) = .plq hdr fieldsX ∧
  decodeWord (0xDC#8 ++ bodyX) = .mscl hdr fieldsX ∧
  decodeWord (0xDD#8 ++ bodyX) = .msoft hdr fieldsX ∧
  decodeWord (0xDE#8 ++ bodyI) = .mpairBind hdr fieldsI ∧
  decodeWord (0xDE#8 ++ bodyI0) = .mpairRel hdr fieldsI0 ∧
  decodeWord (0xDF#8 ++ bodyX) = .mepi hdr fieldsX := by
  decide +kernel

/-- R357: the opcodes of row 0xE. -/
theorem test_decode_rowE :
  decodeWord (0xE0#8 ++ bodyA) = .emit hdr fieldsA ∧
  decodeWord (0xE1#8 ++ bodyA) = .emitv hdr fieldsA ∧
  decodeWord (0xE2#8 ++ bodyA) = .blend hdr fieldsA ∧
  decodeWord (0xE3#8 ++ bodyA) = .ztest hdr fieldsA ∧
  decodeWord (0xE4#8 ++ bodyA) = .tres hdr fieldsA ∧
  decodeWord (0xE5#8 ++ bodyE) = .splat hdr fieldsE ∧
  decodeWord (0xE6#8 ++ bodyE) = .splatc hdr fieldsE ∧
  decodeWord (0xE7#8 ++ bodyA) = .trace hdr fieldsA ∧
  decodeWord (0xE8#8 ++ bodyA) = .spawn hdr fieldsA ∧
  decodeWord (0xE9#8 ++ bodyA) = .hit hdr fieldsA ∧
  decodeWord (0xEA#8 ++ bodyA) = .rqry hdr fieldsA ∧
  decodeWord (0xEB#8 ++ bodyE1) = .bldfAdd hdr fieldsE1 ∧
  decodeWord (0xEB#8 ++ bodyE) = .bldfOpen hdr fieldsE ∧
  decodeWord (0xEC#8 ++ bodyE) = .bldc hdr fieldsE ∧
  decodeWord (0xED#8 ++ bodyE) = .tlck hdr fieldsE ∧
  decodeWord (0xEE#8 ++ bodyE) = .tlrst hdr fieldsE ∧
  decodeWord (0xEF#8 ++ bodyE) = .drawx hdr fieldsE := by
  decide +kernel

/-- R357: the opcodes of row 0xF. -/
theorem test_decode_rowF :
  decodeWord (0xF0#8 ++ bodyI) = .rdsr hdr fieldsI ∧
  decodeWord (0xF1#8 ++ bodyI) = .wrsr hdr fieldsI ∧
  decodeWord (0xF2#8 ++ bodyI) = .save hdr fieldsI ∧
  decodeWord (0xF3#8 ++ bodyI) = .rest hdr fieldsI ∧
  decodeWord (0xF4#8 ++ bodyI) = .ctxsw hdr fieldsI ∧
  decodeWord (0xF5#8 ++ bodyI) = .tlbi hdr fieldsI ∧
  decodeWord (0xF6#8 ++ bodyI) = .cflush hdr fieldsI ∧
  decodeWord (0xF7#8 ++ bodyI) = .wake hdr fieldsI ∧
  decodeWord (0xF8#8 ++ bodyI) = .dieq hdr fieldsI ∧
  decodeWord (0xF9#8 ++ bodyI) = .logr hdr fieldsI ∧
  decodeWord (0xFA#8 ++ bodyI) = .perf hdr fieldsI ∧
  decodeWord (0xFB#8 ++ bodyI) = .bud hdr fieldsI ∧
  decodeWord (0xFC#8 ++ bodyI) = .halt hdr fieldsI ∧
  decodeWord (0xFD#8 ++ bodyI) = .dbg hdr fieldsI ∧
  decodeWord (0xFE#8 ++ bodyI) = .brks hdr fieldsI ∧
  decodeWord (0xFF#8 ++ bodyI) = .ill hdr fieldsI := by
  decide +kernel

/-! ### Witnesses: states and operands that meet the hypotheses of the statements -/

/-- A unit executes an instruction of a shape with its registers in order, and a condition holds on the state and the unit. -/
def runs (s : State) (h : Hdr) (sh : Shape) (ok : State → Ux → Bool) : Bool :=
  match executing s h sh with
  | some (s1, u) => (regStop s1 u sh).isNone && ok s1 u
  | none => false

/-- The check says that the hypotheses of a statement hold together. -/
theorem runs_spec {s : State} {h : Hdr} {sh : Shape} {ok : State → Ux → Bool} (hr : runs s h sh ok = true) :
    ∃ s1 u, Runs s h sh s1 u ∧ ok s1 u = true := by
  unfold runs at hr
  split at hr
  · next s1 u he =>
    rw [Bool.and_eq_true, Option.isNone_iff_eq_none] at hr
    exact ⟨s1, u, ⟨he, hr.1⟩, hr.2⟩
  · simp at hr

/-- Lane scope, every lane, the end of a quire; group scope; a guard that no lane meets. -/
def lane : Hdr := { scope := .lane, gc := 0, cond := .al, fin := true }
def grp : Hdr := { lane with scope := .group }
def never : Hdr := { lane with cond := .nv }

/-- The machine after reset with an instruction of a row of the opcode map where the next step fetches it: one group of 32
threads, on core 0, in user mode. -/
def st (row : Nat) : State := State.reset.withFetchWord 96 (row * 2 ^ 92)

/-- The same in system mode. -/
def sys (row : Nat) : State := (st row).modGroup 0 fun g => { g with sys := true }

/-- Scalar registers from `k` on hold words. -/
def regs (k : Nat) (l : List Nat) (s : State) : State :=
  s.modGroup 0 fun g => { g with s := l.zipIdx.foldl (fun m x => FMap.set 0 m (k + x.2) (BitVec.ofNat 32 x.1)) g.s }

/-- Vector register `k` holds a word in every lane. -/
def vreg (k x : Nat) (s : State) : State :=
  s.modGroup 0 fun g => { g with v := (List.range 32).foldl (fun m j => FMap.set 0 m (32 * k + j) (BitVec.ofNat 32 x)) g.v }

/-- Slot 0 of the folio of the next instruction may be entered by a branch. -/
def entered (s : State) : State := putMems s 0x1000000303C (leBytes 4 (2 ^ 27 + 4))

def some_ (_ : State) (u : Ux) : Bool := !u.active.isEmpty
def none_ (_ : State) (u : Ux) : Bool := u.active.isEmpty

def z : Src := src false false .zr
def v (n : Nat) : Src := src false false (.v n)
def s_ (n : Nat) : Src := src false false (.s n)
def k_ (n : Int) : Src := src false false (.imm n)
def a1 : FmtA := { dst := .v 4, cw := 0, sa := v 2, sb := z, sc := z, fn := 0 }
def a2 : FmtA := { a1 with sb := v 8 }
def a3 : FmtA := { a2 with sc := v 6 }
def i1 : FmtI := { dst := .v 4, cw := 0, sa := v 2, imm := 7, fn := 0 }

theorem test_witness_integer :
    ([shapeIadd a2, shapeIsub a2, shapeImul a2, shapeImad a3, shapeIsad a3, shapeIabs a1, shapeIneg a1, shapeImin a2,
      shapeImax a2, shapeImulh a2, shapeImadw a3, shapeIdot4 a3, shapeIaddc { a2 with sc := src false false (.c 0) },
      shapeIsubb { a2 with sc := src false false (.c 0) }].all fun sh => runs (st 1) lane sh some_) = true := by
  decide +kernel

/-- Division by 3, by zero, and of the least integer by -1. -/
theorem test_witness_division :
    (let f (x : Int) : FmtA := { a1 with sb := k_ x }
     runs (st 1) lane (shapeIdiv (f 3)) some_ && runs (st 1) lane (shapeIrem (f 0)) (fun s u =>
       u.active.all fun p => rdInt s u 0 (.imm 0) p == 0) &&
     runs (vreg 2 0x80000000 (st 1)) lane (shapeIdiv (f (-1))) fun s u =>
       u.active.all fun p => rdInt s u 0 (.v 2) p == (tyRange 0).1) = true := by
  decide +kernel

theorem test_witness_quotient :
    (idivOf 0 (-7) 2, iremOf 0 (-7) 2) = (-3, -1) ∧ (idivOf 0 (-2 ^ 31) (-1), iremOf 0 (-2 ^ 31) (-1)) = (-2 ^ 31, 0) ∧
    (idivOf 1 5 0, iremOf 1 5 0) = (2 ^ 32 - 1, 5) ∧ (idivOf 0 (-5) 0, idivOf 0 5 0) = (-1, 2 ^ 31 - 1) := by
  decide

theorem test_witness_shift :
    tb (shiftLeft 32 1 31).1 31 = true ∧ tb (shiftRight 32 0x80000000 31).1 0 = true ∧
    tb (shiftArith 64 (2 ^ 63) 64).1 0 = true ∧ tb (rotate 32 0x80000000 33).1 0 = true := by
  decide

theorem test_witness_logic :
    ([shapeAnd a2, shapeOr a2, shapeXor a2, shapeBtab a3, shapeBrev a1, shapeShl a2, shapeShr a2, shapeSar a2, shapeRot a2,
      shapePopc a1, shapeClz a1, shapeFunnel a3, shapeBfx a2, shapeBfi a3, shapeIcmp { a2 with cw := 4 }, shapeSel a2].all
      fun sh => runs (st 3) lane sh some_) = true := by
  decide +kernel

theorem test_witness_immediates :
    (([shapeIaddi i1, shapeImuli i1, shapeImadi i1, shapeImini i1, shapeImaxi i1, shapeAndi i1, shapeOri i1, shapeXori i1,
      shapeShli i1, shapeShri i1, shapeSari i1, shapeMovi { i1 with sa := z }].all fun sh => runs (st 2) lane sh some_) &&
     runs (st 2) lane (shapeMovi { i1 with sa := z, fn := 6 }) some_ && ({ i1 with imm := 64 } : FmtI).imm.toNat == 64 &&
     [4, 5].all fun n => ({ i1 with fn := n } : FmtI).fn.getLsbD 2 && tyOf ({ i1 with fn := n } : FmtI).fn.toNat != 2) = true := by
  decide +kernel

/-- Plain, weak, global space, 32 bits, no index, the offset as the whole address. -/
def m1 : FmtM :=
  { data := .v 4, ord := 0, base := z, index := z, off := 0x4000, space := 1, size := 2, mscope := 6, cache := 0, scl := 0, fn := 0 }

def m2 : FmtM := { m1 with size := 3, mscope := 0 }

theorem test_witness_addresses :
    (runs (st 2) lane (shapeLea m2) some_ && runs (st 2) lane (shapeLeax m2) (fun s u =>
       u.active.all fun p => (castAddr s p.gid p.lane 1 0 (effAddr s u m2 true p)).isSome) &&
     runs (st 2) lane (shapeLeax { m2 with space := 6 }) some_ && runs (st 2) lane (shapeSptest a1) some_ &&
     runs (st 2) lane (shapeSpcast { a1 with fn := 8 }) some_) = true := by
  decide +kernel

def b1 : FmtB := { tgt := 0, await := [.zr, .zr, .zr, .zr], safe := false, hint := false, fn := 0 }
/-- A branch to the target in s0 and s1. -/
def br : FmtB := { b1 with tgt := BitVec.ofNat 12 256 ++ (0 : BitVec 14) }
def c1 : FmtC := { await := List.replicate 7 .zr, safe := false, yieldHint := false, rsv := 0 }
def a0 : FmtA := { a1 with dst := .zr, sa := z }

theorem test_witness_control :
    (runs (st 0) lane (shapeNop a0) some_ && runs (st 0) lane (shapeColo lane c1) some_ && runs (st 0) lane (shapeExit a0) some_ &&
     runs (st 0) lane (shapeYield a0) some_ &&
     ([shapeBra b1, shapeCall b1, shapeLoop b1, shapeBany b1, shapeBall b1].all fun sh => runs (entered (st 0)) lane sh fun s u =>
       !u.active.isEmpty && u.active.length == u.issuing.length && targetOk s u.gid (immTarget u b1)) &&
     ([shapeBrx br, shapeRet br, shapeCallx br].all fun sh =>
       runs (regs 0 [0x3000] (entered (st 0))) lane sh fun s u => u.active.all fun p =>
         (targetFault s p.gid (rd64 s u (tgtSrc br).reg p).toNat).isNone) &&
     runs (st 0) lane (shapeJmpt br) (fun s u => u.active.all fun p =>
       (targetFault s p.gid ((u.pc / 64 * 64 + 64 * (1 + min (rd s u (tgtSrc br).reg p).toNat (br.fn.toNat % 256 + 1))) % 2 ^ 57)) ==
         some 22) &&
     runs (st 0) never (shapeBany b1) none_) = true := by
  decide +kernel

/-- A slot of the launch's table holds a descriptor word. -/
def slotted (k x : Nat) (s : State) : State :=
  s.setLaunch 0 { s.l 0 with words := (s.l 0).words.set (16 + k) (BitVec.ofNat 64 x) }

/-- A branch into a folio whose TGT bits are 0, a slot number above 4, and a software trap. -/
theorem test_witness_control_traps :
    (runs (st 0) lane (shapeBra b1) (fun s u => !u.active.isEmpty && !targetOk s u.gid (immTarget u b1)) &&
     runs (st 0) lane (shapeCall b1) some_ &&
     ([shapeBrx br, shapeRet br, shapeCallx br].all fun sh => runs (regs 0 [0x3005] (st 0)) lane sh fun s u =>
       u.active.all fun p => targetFault s p.gid (rd64 s u (tgtSrc br).reg p).toNat == some 23) &&
     runs (st 0) lane (shapeTrap { i1 with dst := .zr, sa := z }) some_ &&
     runs (st 0) lane (shapeBkpt { i1 with dst := .zr, sa := z, imm := 0 }) some_ &&
     runs (st 0) never (shapeTrap { i1 with dst := .zr, sa := z }) none_ && (st 0).cur.isSome) = true := by
  decide +kernel

/-- A group in system mode whose frame stands in mapped memory: one of a resumable cause, and one of cause 9.0, which is not. -/
theorem test_witness_return :
    (let f : FmtI := { i1 with dst := .zr, sa := z, imm := 0 }
     let s1 := (sys 0).setCore 0 { (sys 0).core 0 with tfarea := 0x8000 }
     let aside (c : Nat) (g : Group) : Held :=
       { pcs := g.pcs, narrows := g.narrows, members := [0], trap := { cause := c }, wide := false, scope := .lane, slices := 255 }
     let held (c : Nat) (s : State) : State := s.modGroup 0 fun g => { g with held := some (aside c g) }
     let stands (want : Bool) (s : State) (u : Ux) : Bool :=
       let t := drainAll s u.gid
       resumable (heldOf (t.g 0) u).trap.cause == want && (vRead t (t.launchOf (t.g 0).bid).ctx sysRead (frameVa t (t.g 0)) 1152).isSome
     runs (held 4 s1) lane (shapeRft f) (stands true) && runs (held 0x120 s1) lane (shapeRft f) (stands false)) = true := by
  decide +kernel

theorem test_witness_float :
    ([shapeFadd a2, shapeFsub a2, shapeFmul a2, shapeFfma a3, shapeFdiv a2, shapeFsqrt a1, shapeFdot2 a3, shapeFscale a2,
      shapeFfrc a1, shapeFrnd a1, shapeFmin a2, shapeFmax a2, shapeFmed3 a3, shapeFcmp { a2 with cw := 4 }, shapeFclass a1,
      shapeFsgn a2, shapeSfu a1].all fun sh => runs (st 4) lane sh fun _ u => !u.active.isEmpty) = true := by
  decide +kernel

theorem test_witness_paired :
    ([shapeHadd2 a2, shapeHmul2 a2, shapeHfma2 a3, shapeHmin2 a2, shapeHmax2 a2, shapeHcmp2 a2, shapeHdot2 a3, shapeCadd a2,
      shapeCmul a2, shapeCmad a3, shapeCmulc a2, shapeCscale a2, shapeCrot a1, shapeCexpi a1, shapeCabs2 a1, shapeCmag a1].all
      fun sh => runs (st 5) lane sh some_) = true := by
  decide +kernel

/-- Slot 0 holds f16; slot 1 i8; slot 2 e2m3 under shared scales. -/
theorem test_witness_conversions :
    (let s := slotted 2 0x20005 (slotted 1 8 (slotted 0 2 (st 6)))
     let sl (k : Nat) : Slot := slotAt s 0 k
     runs s lane (shapeCvt a1 (sl 0)) (fun _ u => !u.active.isEmpty && (slotFault (sl 0) (sl 0).elem).isNone) &&
     runs s lane (shapeCvpk a1 (sl 0) 2) (fun _ _ => (sl 0).F.width == 16 && (slotFault (sl 0) true).isNone) &&
     runs s lane (shapeCvpk { a1 with sa := v 8, fn := 8 } (sl 1) 4) (fun _ _ => (sl 1).elem && (sl 1).F.width == 8) &&
     runs s lane (shapeUnpk a1 (sl 0)) (fun _ _ => 2 * 16 ≤ 32) &&
     runs s grp (shapePk6 a1) (fun s u => (needCells s [(useOf a1.sa 1, (List.range 6).map fun k => ⟨k, u.gid, k⟩)]).isNone) &&
     runs s lane (shapePki4 a2) some_ &&
     runs s grp (shapeQscl { a1 with fn := 16 }) fun _ _ => (slotFault (sl 2) (sl 2).mx).isNone) = true := by
  decide +kernel

theorem test_witness_cross_lane :
    ([shapePull a2, shapePullt { a2 with fn := 0 }, shapeBcst { a2 with sb := s_ 2 }, shapePerm a2, shapeFirst a1, shapePoll { a1 with sa := z },
      shapeVmask { a1 with sa := z }, shapeLred a1, shapeLscan a1, shapePeers a1].all fun sh => runs (st 7) lane sh fun s u =>
      !u.active.isEmpty && (needCells s (dstFull s u (.v 4) u.active)).isNone &&
        (needCells s (dstFull s u (.v 4) u.issuing)).isNone) = true := by
  decide +kernel

theorem test_witness_cross_lane_laws : reduce 0 [1, 2, 3] = reduce 0 [3, 1, 2] ∧ ∀ x ∈ [1, 2, 2 ^ 32 - 1], x < 2 ^ 32 := by
  decide

theorem test_witness_reord :
    runs (st 7) { lane with scope := .block } (shapeReord { a1 with dst := .zr }) (fun s u =>
      (needCells s [({ o := .v (reordF { a1 with dst := .zr }), n := reordN { a1 with dst := .zr } }, u.issuing)]).isNone) = true := by
  decide +kernel

theorem test_witness_moves :
    (runs (st 7) lane (shapeMov a1) some_ && runs (st 7) lane (shapeMovs { a2 with sb := z }) some_ &&
     runs (st 7) lane (shapeCcset { a1 with dst := .c 1 }) some_ &&
     runs (st 7) lane (shapeCcmov { a1 with dst := .c 1, sa := src false false (.c 0) }) some_ &&
     runs (st 7) lane (shapeCcmov { a1 with sa := src false false (.c 0) }) some_ &&
     runs (st 7) lane (shapeCclog { a1 with dst := .c 1, sa := src false false (.c 0), sb := src false false (.c 2) }) some_) =
      true := by
  decide +kernel

def d_ (n : Nat) : Src := src false false (.d n)
def dd : FmtA := { dst := .d 2, cw := 0, sa := d_ 0, sb := d_ 1, sc := z, fn := 0 }

theorem test_witness_directional :
    ([shapeDmov { dd with sb := z }, shapeDneg { dd with sb := z }, shapeDnorm { dd with sb := z },
      shapeDfromv { dd with sa := v 8, sb := z }, shapeDadd dd, shapeDcross dd, shapeDrefl dd, shapeDproj dd, shapeDframe dd,
      shapeDslerp { dd with sc := v 2 }, shapeDtov { dd with dst := .v 8, sb := z }, shapeDdot { dd with dst := .v 4 },
      shapeDcmp { dd with dst := .zr, cw := 4 }, shapeDscl { dd with sa := d_ 2, sb := v 2 }, shapeDsetn { dd with sa := d_ 2, sb := v 2 },
      shapeDrefr { dd with sc := v 2 }].all fun sh => runs (st 8) lane sh some_) = true := by
  decide +kernel

theorem test_witness_directional_encoding :
    dvalOf (dWord (-8388608) 8388607 1 (-8388607)) = .vec (-8388608) 8388607 1 (-8388607) ∧
    dvalOf (dWord 0 0 1 8388606) = .vec 0 0 1 8388606 := by
  decide

def okE {ε α : Type} (x : Except ε α) (p : α → Bool) : Bool := match x with | .ok a => p a | .error _ => false
def errE {α : Type} (x : Except Trap α) (c : Nat) : Bool := match x with | .ok _ => false | .error t => t.cause == c

/-- Scalar accesses of 32 bits: global, constant and generic memory, tile memory, private memory, cluster-shared memory. -/
def ms : FmtM := { m1 with data := .s 4 }
def mt : FmtM := { ms with off := 0x10, space := 2 }
def mp : FmtM := { ms with off := 0x10, space := 3 }
def mc : FmtM := { ms with off := 0x10, space := 4 }

/-- The first page of the private space of lane 0 is mapped. -/
def priv (s : State) : State := { s with tlb :=
  [{ ctx := 0, vpn := privateVa s (s.g 0) 0 0 / 4096, pages := 1, pfn := 0x10000010, w := true, x := false, u := true, mt := 0 }] }

/-- One lane works, and it reaches its place. -/
def placed (f : FmtM) (k : Kind) (s : State) (u : Ux) : Bool :=
  okE (sitesOf s u f k (k == .load && f.cache.getLsbD 2) (workLanes u (isScalar f.data))) fun l => l.length == 1

theorem test_witness_loads_and_stores :
    (runs (st 9) lane (shapeLd ms) (placed ms .load) && runs (st 9) lane (shapeLdt mt) (placed mt .load) &&
     runs (priv (st 9)) lane (shapeLdp mp) (placed mp .load) && runs (st 9) lane (shapeLds mc) (placed mc .load) &&
     runs (st 9) lane (shapeLdc { ms with space := 6 }) (placed { ms with space := 6 } .load) &&
     runs (st 9) lane (shapeLdgn { ms with space := 0 }) (placed { ms with space := 0 } .load) &&
     runs (st 9) lane (shapePref { m1 with data := .zr }) some_ &&
     runs (st 9) lane (shapeSt ms) (placed ms .store) && runs (st 9) lane (shapeStt mt) (placed mt .store) &&
     runs (priv (st 9)) lane (shapeStp mp) (placed mp .store) && runs (st 9) lane (shapeSts mc) (placed mc .store) &&
     runs (st 9) lane (shapeStgn { ms with space := 0 }) (placed { ms with space := 0 } .store)) = true := by
  decide +kernel

/-- The frame of a store: plain memory, at the address of its site; and a queue entry that drains. -/
theorem test_witness_store_frame :
    (runs (st 9) lane (shapeSt ms) (fun s u => okE (sitesOf s u ms .store false (workLanes u (isScalar ms.data))) fun l =>
       l.all fun x => x.2.mt == 0) && Memory.wf (st 9) && (st 9).group 0 != none && !isWindow 0x10000004000) = true := by
  decide +kernel

/-- A misaligned address, one beyond each form, and one whose page is not mapped. -/
theorem test_witness_access_traps :
    ([(1, 0x4002, 103), (1, 2 ^ 57, 102), (2, 2 ^ 21, 106), (2, 1024, 107), (3, 0xFFFE, 111), (6, 0x4001, 123), (0, 0x4001, 103),
      (0, 2 * 2 ^ 56, 98), (1, 0x40000000, 100)].all fun x => match access (st 9) 0 0 x.1 x.2.1 4 .load with
      | .ok _ => false
      | .error (c, ea) => c == x.2.2 && ea == x.2.1) = true ∧
    runs (st 9) lane (shapeLd { ms with off := 0x4002 }) (fun s u =>
      (workLanes u true).all fun p => errE (siteOf s u { ms with off := 0x4002 } .load p) 103) = true := by
  decide +kernel

def e1 : FmtE := { desc := .s 8, bar := 0, ben := false, evq := false, sa := z, sb := z, imm := 0, fn := 0 }

/-- A stash of two lines at the start of the tile memory. -/
theorem test_witness_stash :
    (runs (st 9) lane (shapeCctl { m1 with data := .zr }) some_ &&
     runs (regs 8 [0, 0x4000, 0, 256] (st 9)) lane (shapeStashMap e1) (fun s u =>
       !u.active.isEmpty && !stashConflict (drainUnit s u) ((drainUnit s u).g 0) 0 0 0x4000 256 &&
         (stashPas (drainUnit s u) 0 0x4000 2).isSome) &&
     runs (regs 8 [0, 0x4001, 0, 256] (st 9)) lane (shapeStashMap e1) (fun s u =>
       stashConflict (drainUnit s u) ((drainUnit s u).g 0) 0 0 0x4001 256) &&
     runs (st 9) lane (shapeStashUnmap { e1 with desc := .zr, fn := 1 }) some_) = true := by
  decide +kernel

def me : FmtM := { ms with index := s_ 8 }
def atoms (f : FmtM) (sizes : List Nat) (s : State) (u : Ux) : Bool :=
  !u.active.isEmpty && (atomSites s u f sizes ((workLanes u (isScalar f.data)).filter fun p => !tb u.done p.lane)).2.isNone

/-- Every lane reaches its place; and a lane whose address is misaligned. -/
theorem test_witness_atomics :
    (([shapeAadd me, shapeAmin me, shapeAmax me, shapeAand me, shapeAor me, shapeAxor me, shapeAxchg me, shapeAcas me,
       shapeAfadd me, shapeAinc me, shapeAdec me].all fun sh => runs (st 10) lane sh (atoms me [2, 3])) &&
     runs (st 10) lane (shapeAcas2 { me with size := 4 }) (atoms { me with size := 4 } [4]) &&
     ([shapeRadd { me with data := .zr }, shapeRmin { me with data := .zr }, shapeRmax { me with data := .zr },
       shapeRfadd { me with data := .zr }].all fun sh => runs (st 10) lane sh some_) &&
     runs (st 10) lane (shapeAadd { me with off := 0x4002 }) fun s u =>
       (atomSites s u { me with off := 0x4002 } [2, 3] (workLanes u true)).2.isSome) = true := by
  decide +kernel

/-- Object 0 of core 0 expects 64 arrivals and is active. -/
def barred (s : State) : State := s.setBar 0 0 { s.bar 0 0 with aexp := 64, act := true, blk := true }
def i0 : FmtI := { dst := .zr, cw := 0, sa := z, imm := 0, fn := 0 }

theorem test_witness_barriers :
    (runs (st 11) lane (shapeFence { m1 with data := .zr, ord := 4, off := 0, size := 0 }) some_ &&
     runs (barred (st 11)) lane (shapeArv { i0 with dst := .v 4 }) (fun s u =>
       (s.bar (objCore s u.gid false) 0).act && ((s.bar (objCore s u.gid false) 0).arriveMany 32).isSome) &&
     runs (barred (st 11)) lane (shapeArvx { i0 with dst := .v 4 }) (fun s u =>
       (s.bar (objCore s u.gid true) 0).blk && ((s.bar (objCore s u.gid true) 0).arriveMany 32).isSome) &&
     runs (barred (st 11)) lane (shapeWaitp { i0 with cw := 4, sa := k_ 3 }) (fun s u =>
       ((s.bar (objCore s u.gid false) 0).phase.toNat + 65536 - (rdU s u (.imm 3)).toNat % 65536) % 65536 == 65533) &&
     runs (barred (st 11)) lane (shapeWaitp { i0 with cw := 4 }) (fun s u => (s.bar (objCore s u.gid false) 0).phase == 0) &&
     runs (st 11) lane (shapeWaitc i0) (fun s u => (s.g u.gid).counter 0 == 0) &&
     runs (regs 8 [64, 0] (st 11)) lane (shapeBinit { i0 with sa := s_ 8 }) (fun s u => (rdU64 s u (.s 8)).toNat == 64) &&
     runs (st 11) lane (shapeBqry { i0 with dst := .v 4 }) some_) = true := by
  decide +kernel

/-- Arrivals that complete a phase: the last that is expected. -/
theorem test_witness_phase :
    let b : Bar := { (State.reset.bar 0 0) with act := true, aexp := 1 }
    b.acnt ≠ b.aexp ∧ b.acnt + 1 = b.aexp ∧ b.bcnt = b.bexp := by
  decide

/-- A ring of two slots after stage 0, in stage 0 or 1 of which the group stands, its first slot in a state. -/
def ringed (stage x : Nat) (s : State) : State :=
  (s.setRing 0 0 0 { slots := [{ pay := 5, st := x, ph := 0 }, { pay := 0, st := 0, ph := 0 }], pix := 0, plap := 0, gix := 0, glap := 0,
                     xix := 0 }).modGroup 0 fun g => { g with stage := stage }

def inState (x : Nat) (s : State) (_ : Ux) : Bool := okE (match s.ring 0 0 0 with
  | some r => (.ok r : Except Unit Ring)
  | none => .error ()) fun r => (r.slot 0).st == x

theorem test_witness_rings :
    (runs (ringed 0 0 (st 11)) grp (shapeRput { a0 with sa := k_ 3 }) (inState 0) &&
     runs (ringed 1 1 (st 11)) grp (shapeRget { a0 with dst := .v 4 }) (inState 1) &&
     runs (ringed 1 2 (st 11)) grp (shapeRrel a0) (inState 2) && runs (st 11) grp (shapeRdv a0) some_ &&
     runs (st 11) grp (shapeRput { a0 with sa := k_ 3 }) (fun s _ => (s.ring 0 0 0).isNone) &&
     runs (st 11) grp (shapeRget { a0 with dst := .v 4 }) (fun s u => (takeRing s (s.g u.gid)).isNone) &&
     runs (ringed 1 1 (st 11)) grp (shapeRrel a0) (inState 1) &&
     runs (ringed 0 1 (st 11)) grp (shapeRput { a0 with sa := k_ 3 }) (inState 1) &&
     runs (ringed 1 0 (st 11)) grp (shapeRget { a0 with dst := .v 4 }) (inState 0)) = true := by
  decide +kernel

/-- The next slot of cluster 0 is `n` fc away, or it is open. -/
def slotIn (n : Nat) (o : Bool) (s : State) : State :=
  s.setCluster 0 { s.cluster 0 with slot := { (s.cluster 0).slot with wait := n, opened := o } }

theorem test_witness_slots :
    (runs (st 11) lane (shapeMslot { a0 with dst := .v 4 }) some_ &&
     runs (slotIn 8 false (st 11)) lane (shapeMswin { i0 with imm := 7 }) (fun s _ => !(s.cluster 0).slot.opened) &&
     runs (slotIn 8 true (st 11)) lane (shapeMswin { i0 with imm := 7 }) (fun s _ => (s.cluster 0).slot.opened) &&
     runs (slotIn 7 false (st 11)) lane (shapeMswin { i0 with imm := 7 }) (fun s _ => (s.cluster 0).slot.wait ≤ 7) &&
     runs (st 11) lane (shapeSpeed { i0 with imm := 2 }) some_ &&
     runs (st 11) lane (shapeEvrec { i0 with imm := 2 }) (fun s _ => (s.cluster 0).eq.length == 0) &&
     runs (regs 8 [0x4000, 0] (st 11)) lane (shapeSignal { i0 with dst := .s 12, sa := s_ 8, imm := 1 }) (fun s u =>
       okE (access s u.gid 0 1 (rdU64 s u (.s 8)).toNat 8 .atomic) fun x => x.mt == 0 && !sitePoisoned s x &&
         !brkHit (s.g u.gid) .store x 8)) = true := by
  decide +kernel

/-- The plan of a command begins at once. -/
def fits (cls : Nat) (x : Except Nat Plan) (s : State) (u : Ux) : Bool :=
  !u.active.isEmpty && okE x fun p => (p.bad s).isNone &&
    Claims.paid s u p && decide ((s.g u.gid).counter cls < 63) && !unitHeld s u

/-- A command whose descriptor from s8 on holds words runs, and its plan fits. -/
def command (sh : Shape) (cls op nw : Nat) (plan : State → Nat → Job → Except Nat Plan) (f : FmtE) (w : List Nat) : Bool :=
  runs (regs 8 w (st 12)) lane sh fun s u => fits cls (plan s u.gid (jobOf s u op nw f)) s u

/-- The tile window of core 0. -/
def tw : Nat := 0xFE000000

theorem test_witness_engines :
    (command (shapeCpy e1) 0 0xC0 5 planCpy e1 [0x4000, 0, 0x10, tw, 64] &&
     command (shapeCpy2d e1) 0 0xC1 8 planCpy2d e1 [0x4000, 0, 0x5000, 0, 64, 2, 64, 64] &&
     command (shapeCpyt e1) 0 0xC2 8 planCpyt e1 [0x4000, 0, 0x10, tw, 4, 2, 4, 4] &&
     command (shapeStsp e1) 1 0xC5 6 (planSparse true) e1 [0x4000, 0, 0x5000, 0, 8, 80] &&
     command (shapeLdsp e1) 1 0xC6 6 (planSparse false) e1 [0x4000, 0, 0x5000, 0, 8, 80] &&
     command (shapeColl e1) 3 0xC8 5 planColl e1 [0, tw, 0x100, tw, 64] &&
     command (shapeNsend { e1 with imm := 2 * 2 ^ 16 }) 0 0xCA 3 (planLink false) { e1 with imm := 2 * 2 ^ 16 } [0, tw, 64] &&
     command (shapeNrecv { e1 with imm := 2 * 2 ^ 16 }) 0 0xCB 3 (planLink true) { e1 with imm := 2 * 2 ^ 16 } [0, tw, 64] &&
     command (shapeCinv e1) 0 0xCD 3 planCinv e1 [0x4000, 0, 64]) = true ∧
    runs (regs 8 [0x4000, 0, 0x5000, 0, 0] (st 12)) lane (shapeCpy e1) (fun s u =>
      match planCpy s u.gid (jobOf s u 0xC0 5 e1) with
      | .ok _ => false
      | .error c => c == 198) = true := by
  decide +kernel

/-- A bound connection; a fill; a gather of one index; the counters; an abort. -/
theorem test_witness_fill_gather :
    (runs (regs 8 [0, 0, 0, 0, 0x4000, 0, 64] { st 12 with host := { (st 12).host with bound := [(0, 0)] } }) lane (shapeRdma e1)
       (fun s u => fits 3 (planRdma s u.gid (jobOf s u 0xC9 7 e1)) s u) &&
     runs (regs 8 [0x4000, 0, 64] (st 12)) lane (shapeCfill e1) (fun s u =>
       fits 0 (planCfill s u.gid { jobOf s u 0xCC 3 e1 with args := (jobOf s u 0xCC 3 e1).args ++ [0] }) s u) &&
     runs (regs 8 [0x4000, 0, 0x5000, 0, 1, 0, tw] (st 12)) lane (shapeGath e1) (fun s u =>
       okE (gathIdx s u.gid (jobOf s u 0xC3 7 e1)) fun ix =>
         (ix == [0]) && fits 1 (planGather false s u.gid { jobOf s u 0xC3 7 e1 with args := (jobOf s u 0xC3 7 e1).args ++ ix }) s u) &&
     runs (st 12) lane (shapeCstat e1) some_ && runs (st 12) lane (shapeCabort { e1 with desc := .zr }) some_) = true := by
  decide +kernel

/-- A launch with 16 KiB of tile memory, slot 0 of i8, and a plane region of 1,024 rows of 512 bytes for it. -/
def matrixed (s : State) : State :=
  slotted 0 8 (s.setLaunch 0 { s.l 0 with
    words := (s.l 0).words.set 5 0x00000FFE10A00100
    regions := [BitVec.ofNat 64 (2 * 2 ^ 62 + 1024)] })

def x1 : FmtX :=
  { acc := 0, sla := 0, slb := 0, pa := 0, pb := 0, abase := s_ 8, bbase := s_ 9, shape := s_ 10, tri := 0, mask := 0, fn := 0 }

def allPass (l : List (Option Nat)) : Bool := l.all Option.isNone

/-- Two panels of one column; the partner core bound; and an accumulator that does not exist. -/
theorem test_witness_matrix :
    (let s := regs 8 [0, 512 * (slotAt (matrixed (st 13)) 0 0).panelRows, 1, 0, 0] (matrixed (st 13))
     let two := s.setCore 1 { s.core 1 with bound := some 0 }
     runs s lane (shapeMma x1) (fun s u => allPass (mmaChecks x1 false false u s)) &&
     runs two lane (shapeMmap x1) (fun s u => allPass (mmaChecks x1 false true u s)) &&
     runs s lane (shapeMmat { x1 with tri := 1 }) (fun s u => allPass (mmaChecks { x1 with tri := 1 } true false u s)) &&
     runs two lane (shapeMmapt { x1 with tri := 2 }) (fun s u => allPass (mmaChecks { x1 with tri := 2 } true true u s)) &&
     runs s lane (shapeMma { x1 with acc := 4 }) (fun s u =>
       (mmaChecks { x1 with acc := 4 } false false u s).take 5 == [none, none, none, none, some 233])) = true := by
  decide +kernel

/-- The plane region ends after two panels of the slot. -/
def elems (s : State) : State :=
  (matrixed s).setLaunch 0 { (matrixed s).l 0 with regions := [BitVec.ofNat 64 (2 * 2 ^ 62 + 22)] }

def x0 : FmtX := { x1 with abase := z, bbase := z, shape := z }

theorem test_witness_accumulators :
    (let s := regs 8 [0x4000, 0x9000, 256, 0, 0] (elems (st 13))
     let l (s : State) (u : Ux) : Launch := s.launchOf (s.g u.gid).bid
     let clear (s : State) (u : Ux) (r : List (Nat × Nat)) : Bool :=
       !u.active.isEmpty && allPass [elemClear (l s u) r, elemInside (l s u) r, stashClear s (s.g u.gid).bid (s.g u.gid).bcore r]
     let xa : FmtX := { x0 with abase := s_ 8, shape := s_ 10 }
     runs s lane (shapeAcz x0) some_ && runs s lane (shapeAcld xa) (fun s u => clear s u [(0x4000, 63 * 256 + 256)] &&
       uniX s u xa.abase 0 == 0x4000 && uniX s u xa.shape 0 == 256) &&
     runs s lane (shapeAcst xa (slotX s xa)) (fun s u => clear s u [(0x4000, 63 * 256 + 64)] &&
       (slotFault (slotAt s u.gid 0) true).isNone && (slotAt s u.gid 0).smode == 0 && (slotAt s u.gid 0).F.storeBits == 8) &&
     runs s lane (shapeMscl { x0 with bbase := s_ 9, fn := 2 }) (fun s u => clear s u [(0x9000, 256)]) &&
     runs s lane (shapeMsoft { x0 with fn := 64 }) some_ &&
     runs s lane (shapeMepi { x0 with bbase := s_ 9, fn := 8 }) (fun s u => clear s u [(0x9000, 256)]) &&
     runs s lane (shapeAcmv { x0 with fn := 0x30104 }) some_ && runs s lane (shapeAcmv { x0 with fn := 4 }) some_ &&
     runs (regs 8 [0] s) lane (shapePlq { x0 with abase := s_ 8, fn := 4 }) (fun s u => !u.active.isEmpty &&
       (l s u).regs.any fun r => r.kind == 2 && panelsOk (l s u) r.slot (uniX s u x1.abase 0) 1 (slotAt s u.gid r.slot))) = true := by
  decide +kernel

/-- A shape record at 0x8000: one layer of width 8 to 8, weights at 0x8100, no bias. -/
def netted (s : State) : State :=
  putMems (elems s) 0x10000008000 (leBytes 16 (1 + 8 * 2 ^ 8 + 8 * 2 ^ 16) ++ leBytes 8 0x8100)

/-- A descriptor of PLCV from s8 on: a panel at 0 from elements at 0x8000. -/
def plcvF : FmtE := { e1 with imm := 0 }

theorem test_witness_networks :
    (let s := netted (st 13)
     let f : FmtX := { x0 with abase := s_ 8, shape := s_ 10 }
     let ready (f : FmtX) (s : State) (u : Ux) : Bool := !u.active.isEmpty &&
       allPass (netSlots f (slotAt s u.gid 0) (slotAt s u.gid 0)) && okE (readNetRec s u 0x8000) fun bs =>
         allPass [netBad (netRec bs) (slotAt s u.gid 0) (slotAt s u.gid 0)] &&
           !overBudget s (s.g u.gid).bid (netCharge s (s.g u.gid).bid (netRec bs) (slotAt s u.gid 0).F)
     let l (s : State) (u : Ux) : Launch := s.launchOf (s.g u.gid).bid
     runs (regs 8 [0, 0, 0x8000, 0] s) lane (shapeNet f) (fun s u => ready f s u && uniX s u f.shape 0 == 0x8000 &&
       panelsOk (l s u) 0 0 1 (slotAt s u.gid 0) && allPass [stashClear s (s.g u.gid).bid (s.g u.gid).bcore [(0, 512 * 11)]]) &&
     runs (regs 8 [0, 0, 0x8000, 0] s) lane (shapeNetr { f with abase := z, fn := 4 }) (fun s u =>
       ready { f with abase := z, fn := 4 } s u && (useFault (l s u) { o := .v 4, n := 8, align := false }).isNone) &&
     runs (regs 8 [0x8000, 0, 1] s) lane (shapePlcv plcvF) (fun s u =>
       let j := jobOf s u 0xDA 3 plcvF
       j.w 0 == 0x8000 && j.w 1 == 0 && j.w 2 == 1 && panelsOk (l s u) 0 0 1 (slotAt s u.gid 0) &&
         allPass [elemClear (l s u) [(0x8000, 16384)], elemInside (l s u) [(0x8000, 16384)],
           stashClear s (s.g u.gid).bid (s.g u.gid).bcore [(0, 512 * 11), (0x8000, 16384)]])) = true := by
  decide +kernel

/-- The follower of core 0 belongs to the block and is free, is bound, or has work; and a group on core 1. -/
theorem test_witness_pairs :
    (let s (b : Option Nat) : State := (st 13).setCore 1 { (st 13).core 1 with bound := b }
     let two (s : State) : State := s.setBlock 0 { s.b 0 with cores := (s.b 0).cores ++ ((s.b 0).cores.take 1).map fun k => { k with core := 1 } }
     let busy (s : State) : State := s.modGroup 0 fun g => { g with ops := [{ n := 0, cls := 2, job := { op := 0xD1, user := true, fn := 0, imm := 0, args := [], lanes := [] }, bar := none, evq := none, aborted := false, complete := false, fault := none }] }
     runs (two (s none)) lane (shapeMpair i0) (fun s u => (s.b (s.g u.gid).bid).cores.any fun c => c.core == (s.g u.gid).core + 1) &&
     runs (s (some 0)) lane (shapeMpair { i0 with imm := 1 }) (fun s u => (s.core 1).bound == some (s.g u.gid).bid && !pairBusy s (s.g u.gid).bid) &&
     runs (busy (s (some 0))) lane (shapeMpair { i0 with imm := 1 }) (fun s u => pairBusy s (s.g u.gid).bid) &&
     runs ((st 13).modGroup 0 fun g => { g with core := 1 }) lane (shapeMpair i0) fun s u => !u.active.isEmpty && (s.g u.gid).core % 2 == 1) = true := by
  decide +kernel

/-- Plane elements of the region, a copy into it, and a scatter of one index. -/
theorem test_witness_planes :
    (let f : FmtM := { m1 with off := 0, space := 2, index := v 6 }
     let at_ (f : FmtM) (s : State) (u : Ux) : Bool := okE (planeSites s u f u.active) fun l => l.length == 32
     runs (elems (st 9)) lane (shapeLdpl f) (at_ f) && runs (elems (st 9)) lane (shapeStpl f) (at_ f) &&
     runs (regs 8 [0x4000, 0, 0, 0, 1, 0, 0] (elems (st 12))) lane (shapeCpypl e1) (fun s u =>
       fits 0 (planCpypl s u.gid (jobOf s u 0xC7 7 e1)) s u) &&
     runs (regs 8 [0x4000, 0, 0x5000, 0, 1, 0, tw] (st 12)) lane (shapeScat e1) (fun s u =>
       let j := jobOf s u 0xC4 7 e1
       okE (gathIdx s u.gid j) fun ix => fits 1 (planGather true s u.gid { j with args := j.args ++ ix }) s u)) = true := by
  decide +kernel

/-- A draw record at 0x7000 with both launch records at 0x5000, their kernel header at 0x6000, and the words of a draw of
32 x 32 pixels. -/
def drawWords : List Nat :=
  [0x5000, 0x5000, 0x100000, 65536, 0x200000, 0x300000, 0x310000, 0x00000000200020, 0x3F000000, 0x4000, 1024]

def drawing (s : State) : State :=
  let launch := (stageRecord 0).zipIdx.map fun x => if x.2 == 1 then 0x6000 else x.1
  regs 8 [0x7000, 0] (putMems (putMems s 0x10000005000 (launch.flatMap fun w => leBytes 8 w.toNat))
    0x10000007000 (drawWords.flatMap (leBytes 8)))

def dx : FmtE := e1

theorem test_witness_drawx :
    runs (drawing (st 14)) lane (shapeDrawx dx) (fun s u =>
      let t := drainUnit s u
      let l := t.launchOf (t.g u.gid).bid
      let d := Draw.fresh 0 0 (wordsOf 16 ((vRead t l.ctx sysRead 0x7000 128).getD [])) t.nextLaunch (t.nextLaunch + 1)
      !u.active.isEmpty && drawsInFlight s < 16 && (rdU64 t u dx.desc).toNat == 0x7000 && (readFail t l.ctx false 0x7000 128).isNone &&
        d.fieldsOk && d.recordsOk t l.ctx && d.pagesFit t l.ctx && d.w 0 == 0x5000 && (drawLaunch t l 0x5000).isSome) = true := by
  decide +kernel

/-- The group's block serves draw 0, whose mesh launch is `m` and whose fragment launch is 0; the group runs a wave of the
triangle 3 in tile 0, of lane 0 alone. -/
def shading (m : Nat) (s : State) : State :=
  let d : Draw := { Draw.fresh 9 9 (drawWords.map (BitVec.ofNat 64)) m 0 with
    waves := [{ gid := 0, tile := 0, seq := 3, pixels := [(0, 0)], ended := false }] }
  (s.setDraw 0 d).setBlock 0 { s.b 0 with draw := some 0 }

theorem test_witness_emission :
    (let room (n : Nat) (s : State) (u : Ux) : Bool := !u.active.isEmpty && match drawOf s u.gid with
       | some (_, d, true) => d.count + u.active.length ≤ 2 ^ 32 && (s.b (s.g u.gid).bid).emitted + n * u.active.length ≤ 2048
       | _ => false
     let wide (s : State) : State := s.setDraw 0 { ((s.draw 0).getD (Draw.fresh 0 0 [] 0 0)) with
       words := (drawWords.map (BitVec.ofNat 64)).set 10 2048 }
     runs (wide (shading 0 (st 14))) lane (shapeEmit { a0 with fn := 4 } 0) (room 64) &&
     runs (wide (shading 0 (st 14))) lane (shapeEmitv { a0 with fn := 4 }) (room 64) &&
     runs (st 14) lane (shapeEmit { a0 with fn := 4 } 0) (fun s u => (drawOf s u.gid).isNone)) = true := by
  decide +kernel

def turn (s : State) (u : Ux) : Bool := !u.active.isEmpty && match waveOf s u.gid with
  | some (k, d, w) => !mustWait s k d w
  | none => false

/-- A checkpoint at 0x4000, whose record is that of tile 0 at sequence index 0. -/
def checkpoint (s : State) : State := regs 8 [0x4000, 0] (putMems s 0x10000004000 (leBytes 16 (2 ^ 64)))

def largeTile (s : State) : State := s.setLaunch 0 { s.l 0 with words := (s.l 0).words.set 5 0x00000FFE10A00100 }

/-- Build 0 of die 0 is open. -/
def building (s : State) : State := { s with builds := [{ die := 0, handle := 0, recs := [], count := 0, closing := false }] }

theorem test_witness_splats_builds :
    (([shapeSplat e1, shapeSplatc e1].all fun sh => runs (regs 8 [0, tw, 1, 0x10000, tw, 0, 0x3F000000] (largeTile (st 14))) lane sh
       fun s u => fits 0 (planSplat s u.gid (jobOf s u 0xE5 7 e1)) s u) &&
     runs (st 14) lane (shapeBldfOpen e1) (fun s _ => (freeHandle s 0).isSome) &&
     runs { st 14 with builds := (List.range 16).map fun k => { die := 0, handle := k, recs := [], count := 0, closing := false } } lane
       (shapeBldfOpen e1) (fun s _ => (freeHandle s 0).isNone) &&
     runs (regs 8 [0, 2, 0, tw] (building (st 14))) lane (shapeBldfAdd { e1 with fn := 1 }) (fun s u =>
       fits 0 (planBldf s u.gid (jobOf s u 0xEB 4 { e1 with fn := 1 })) s u) &&
     runs (regs 8 [0, 0x4000, 0, 4096] (building (st 14))) lane (shapeBldc e1) (fun s u =>
       fits 0 (planBldc s u.gid (jobOf s u 0xEC 4 e1)) s u)) = true := by
  decide +kernel

def aRay : Ray :=
  { n := 0, lane := 0, root := 0, table := 0, org := [0, 0, 0], tmin := 0, dir := 0, gen := 0, seen := [], best := none
    cand := some { prim := 0, t := 0, b1 := 0, b2 := 0, user := 0, dot := 0, num := 0, den := 1 }
    ended := false, primary := [], stack := [], pushed := 0, traced := 0 }

/-- The group's lanes run hit programs for lane 0 of group 1, whose ray has a candidate. -/
def hitting (s : State) : State :=
  (s.setGroup 1 { (s.g 0) with rays := [aRay] }).modGroup 0 fun g => { g with hit := some { lanes := List.replicate 32 (1, 0) } }

theorem test_witness_rays :
    (let s := regs 4 [0x4000, 0, 0x8000, 0] (largeTile { putMems (st 14) 0x10000004030 [1] with structs := FMap.set [] [] 0x10000004000 [[]] })
     runs s lane (shapeTrace { a1 with dst := .v 32, sa := v 0, sb := d_ 0, sc := s_ 4 }) (fun s u =>
       let t := drainUnit s u
       let l := t.launchOf (t.g u.gid).bid
       (rdU64 t u (.s 4)).toNat == 0x4000 && (rdU64 t u (.s 6)).toNat == 0x8000 && (readFail t l.ctx true 0x4000 64).isNone &&
         structAt t ((vAddr t l.ctx sysRead 0x4000).getD 0) == some [] &&
         field ((vRead t l.ctx sysRead 0x4000 64).getD []) 48 4 == 1 && decide (stackBytes t u.gid ≤ l.tileb)) &&
     runs (st 14) lane (shapeRqry { a1 with dst := .v 8, sa := z }) some_ &&
     runs (hitting (st 14)) lane (shapeHit { a0 with fn := 1 }) (fun s u => u.active.all fun p => (candRay s p).isSome) &&
     runs (st 14) lane (shapeHit { a0 with fn := 1 }) (fun s u => u.active.any fun p => (candRay s p).isNone) &&
     runs (hitting (st 14)) lane (shapeSpawn { a0 with sa := v 12, sb := d_ 7 }) (fun s u => u.active.all fun p =>
       match candRay s p with
       | some (_, r, _) => decide (r.pushed < 8)
       | none => false)) = true := by
  decide +kernel

def iq (k : Nat) : FmtI := { i0 with dst := .v 4, imm := BitVec.ofNat 32 k }

/-- A query by its IMM into v4; SIGNED registers in system mode. -/
theorem test_witness_queries :
    (([shapeRdsr (iq 0), shapeRdsr { iq 0x102 with dst := .v 4 }, shapeDieq (iq 8), shapeLogr (iq 3), shapePerf (iq 5), shapeBud (iq 0),
       shapeBud (iq 1)].all fun sh => runs (sys 15) lane sh some_) &&
     ([0x100, 0x101, 0x103, 0x108].all fun k => runs (sys 15) lane (shapeWrsr { i0 with sa := s_ 8, imm := BitVec.ofNat 32 k }) some_) &&
     runs (st 15) lane (shapeWake (iq 16)) some_ && (st 15).group 0 != none && FMap.wf Core.reset (st 15).cores &&
     FMap.wf 0 ((st 15).g 0).tscr) = true := by
  decide +kernel

/-- A launch that declares 16 vector registers and no scalar or directional ones, so that a record is short, and the address
0x8000 in s8. -/
def small (s : State) : State :=
  regs 8 [0x8000, 0] (s.setLaunch 0 { s.l 0 with words := (s.l 0).words.set 5 0x0000000200A00010 })

theorem test_witness_records :
    (let f : FmtI := { i0 with sa := s_ 8 }
     let reached (w : Bool) (s : State) (u : Ux) : Bool :=
       let t := drainAll s u.gid
       let n := recordSize (t.launchOf (t.g u.gid).bid)
       !u.active.isEmpty && (producersWait s u).isNone && (t.g u.gid).ecc == [] && (rdU64 s u f.sa.reg).toNat == 0x8000 &&
         (recordFault t u.gid w 0x8000 n).isNone && (vRead t 0 (ownWant t u.gid false) 0x8000 n).isSome
     let written (sys : Bool) (s : State) (u : Ux) : Bool :=
       let t := drainAll s u.gid
       let g := t.g u.gid
       let l := t.launchOf g.bid
       (vWrite t 0 (ownWant t u.gid true) 0x8000 (recordBytes l g (quiresNow g (g.nar u.slices))
         (if sys then { saveHead u true true with wdog := g.wdog } else saveHead u false false)) g.bid g.bcore).isSome
     runs (small (st 15)) grp (shapeSave f) (fun s u => reached true s u && written false s u) &&
     runs (small (st 15)) grp (shapeRest f) (reached false) &&
     runs (small (sys 15)) grp (shapeCtxsw f) (fun s u => reached true s u && written true s u && physByte s 0x10000008000 == 0) &&
     runs ((small (st 15)).modGroup 0 fun g => { g with pend := [{ n := 0, writes := [], job := none }] }) grp (shapeSave f) fun s u =>
       !u.active.isEmpty && match producersWait s u with
         | some (.wait _) => true
         | _ => false) = true := by
  decide +kernel

theorem test_witness_maintenance :
    (let s := regs 8 [0x4000, 0] (sys 15)
     let f (k : Nat) : FmtI := { i0 with sa := s_ 8, imm := BitVec.ofNat 32 k }
     let n (k : Nat) : FmtI := { i0 with imm := BitVec.ofNat 32 k }
     runs s lane (shapeTlbi (f 0)) some_ && runs s lane (shapeTlbi (n 2)) some_ && runs s lane (shapeCflush (n 2)) some_ &&
     runs s lane (shapeCflush (n 3)) some_ && runs s lane (shapeCflush (f 1)) (fun s u => okE (reach s 0 false false 1 0x4000) fun x =>
       !u.active.isEmpty && match x.loc with
         | .phys _ => true
         | _ => false) &&
     runs s lane (shapeHalt (n 0)) some_ && runs s lane (shapeDbg (f 1)) some_ && runs (st 15) lane (shapeBrks (f 25)) some_) = true := by
  decide +kernel

/-- R341: the same instructions under a guard that no lane meets. -/
theorem test_witness_no_lane :
    (([shapeCpy e1, shapeGath e1, shapeColl e1, shapeCabort { e1 with desc := .zr }].all fun sh => runs (st 12) never sh none_) &&
     ([shapeMma x1, shapeAcz x0].all fun sh => runs (st 13) never sh none_) && runs (st 11) never (shapeSpeed i0) none_ &&
     runs (st 14) never (shapeDrawx e1) none_ && runs (st 15) never (shapeRdsr (iq 0)) none_) = true := by
  decide +kernel

def issuing (s : State) (ok : Group → Narrow → Bool) : Bool :=
  s.inbox == [] && s.host.fatal.isNone && match s.cur with
    | some (gid, sl) => unitRuns s gid sl && ok (s.g gid) ((s.g gid).nar sl)
    | none => false

/-- A unit that fetches a word; one whose step trap is due; one at an address that is not mapped; and one of two narrow groups
at a join point. -/
theorem test_witness_step :
    (let fetched (s : State) (g : Group) (n : Narrow) (p : Fetched → Bool) : Bool := (dueTrap s g n).isNone && p (fetchWord s 0 (g.issuePc n))
     let s := st 1
     let away := s.modGroup 0 fun g => { g with pcs := (List.range 32).map fun k => (k, 0x40000000) }
     let split := (putMems s 0x1000000303C (leBytes 4 (2 ^ 22 + 2 ^ 3))).modGroup 0 fun g =>
       { g with narrows := [{ g.nar 255 with slices := 1 }, { g.nar 255 with slices := 254 }] }
     let word (want : Bool) (g : Group) (n : Narrow) (x : Fetched) : Bool := match x with
       | .word _ j _ => (!want || j) && joinWaits g n j == want
       | .fault _ _ _ => false
     issuing s (fun g n => fetched s g n (word false g n)) &&
     (let t := s.modGroup 0 fun g => { g with stepDue := true }
      issuing t (fun g n => (dueTrap t g n).isSome)) &&
     issuing away (fun g n => fetched away g n fun x => match x with
       | .fault c _ _ => c == 24
       | .word _ _ _ => false) &&
     issuing { split with cur := some (0, 1) } (fun g n => fetched split g n (word true g n))) = true := by
  decide +kernel

theorem test_witness_encoding :
    (Instr.iadd lane a2).wf = true ∧ (encodeWord (.iadd lane a2)).isSome = true ∧ (Instr.mma lane x1).wf = true ∧
    (encodeWord (.mma lane x1)).isSome = true := by
  decide +kernel

theorem no_draws {s : State} (h : s.draws = []) (k : Nat) : s.draw k = none := by simp [State.draw, h, FMap.get]

def answers (o : Host.Outcome State Fault Refusal) : Bool := match o with
  | .next _ => true
  | .fault _ => false
  | .refused _ => false

theorem answers_next {o : Host.Outcome State Fault Refusal} (h : answers o = true) : ∃ t, o = .next t := by
  cases o with
  | next t => exact ⟨t, rfl⟩
  | fault f => cases h
  | refused r => cases h

theorem settled_of {s : State} (hf : s.host.fatal.isSome = false) (hd : s.draws = []) : Claims.Settled s := by
  refine ⟨fun h => ?_, fun k d h => ?_⟩
  · rw [hf] at h; cases h
  · rw [no_draws hd] at h; cases h

theorem test_witness_settled : Claims.Settled (st 1) ∧ ∃ t, step (st 1) = .next t :=
  ⟨settled_of (by decide +kernel) (by decide +kernel), answers_next (by decide +kernel)⟩

theorem test_witness_memory : Memory.wf (st 1) = true ∧ isWindow 0x10000004000 = false := by
  decide +kernel

def trapState (sys : Bool) (tvec area : Nat) : State :=
  ((st 1).setCore 0 { (st 1).core 0 with tvec := BitVec.ofNat 64 tvec, tfarea := BitVec.ofNat 64 area }).modGroup 0 fun g => { g with sys := sys }

def frameWritten (s : State) : Bool :=
  let s0 := drainAll s 0
  let g := s0.g 0
  match vWrite s0 (s0.launchOf g.bid).ctx sysWrite (frameVa s0 g)
      (frameBytes g (g.nar 255) (soloUnit s lane 0 255) lane false { cause := 4 }) g.bid g.bcore with
  | some t => (t.group 0).isSome
  | none => false

/-- A handler and a frame in mapped memory; no handler; system mode; and a frame that cannot be written. -/
theorem test_witness_traps :
    (let s := trapState false 0x9000 0x8000
     frameWritten s && !(s.g 0).sys && (s.core 0).tvec != 0 && !((trapState false 0 0x8000).g 0).sys &&
       ((trapState false 0 0x8000).core 0).tvec == 0 && ((trapState true 0x9000 0x8000).g 0).sys &&
       !frameWritten (trapState false 0x9000 0x40000000) && ((drainAll s 0).launch ((drainAll s 0).b ((drainAll s 0).g 0).bid).lid).isSome &&
       ((drainAll s 0).l ((drainAll s 0).b ((drainAll s 0).g 0).bid).lid).draw.isNone) = true ∧ (4 : Nat) / 32 ≠ 11 := by
  decide +kernel

/-- Each check of an instruction met by one that fails there, in the order of the checks. -/
theorem test_witness_checks :
    (let chk (s : State) (h : Hdr) (sh : Shape) : Option Nat := (admitCause (s.g 0) h sh).map fun t => t.cause
     let s := st 1
     let cls0 := (s.setLaunch 0 { s.l 0 with words := ((s.l 0).words.set 4 0).set 10 5 }).modGroup 0 fun g => { g with quires := 5 }
     let f : FmtM := { m1 with data := .zr, ord := 4, off := 0, size := 0 }
     chk s { lane with scope := .block } (shapeIadd a2) == some 4 && chk s { lane with scope := .set } (shapeFence f) == some 5 &&
     chk s lane (shapeMma x1) == some 3 && chk s lane (shapeIadd { a2 with fn := 2 ^ 29 }) == some 8 &&
     chk (st 15) lane (shapeHalt i0) == some 0x140 && chk s lane (shapeIadd a2) == none &&
     (budgetTrap (cls0.l 0) (cls0.g 0) ((cls0.g 0).nar 255)).isSome) = true := by
  decide +kernel

/-- A slot is open. -/
def holding (s : State) : State := { s with pkg := { s.pkg with slots := [{ seq := 1, kind := 3, len := 160, overran := false, hit := [] }] } }

/-- A rendezvous that stands at another instruction; a narrow group that another one keeps waiting; and a block on both sides of a
die edge while a slot is open, where the arrival crosses the edge or the result does. -/
theorem test_witness_rendezvous :
    (let s := st 5
     let far := s.modGroup 0 fun g => { g with rv := some { pc := 0x7000, arrived := [], complete := false } }
     let two := { s.modGroup 0 fun g => { g with narrows := [{ g.nar 255 with slices := 1 }, { g.nar 255 with slices := 254 }] } with
       cur := some (0, 1) }
     let u (s : State) : Ux := soloUnit s grp 0 (match s.cur with | some x => x.2 | none => 0)
     let sh := shapePk6 a1
     let here (s : State) (h : Hdr) (sh : Shape) : Bool := allArrived s 0 (u s).pc (wideMembers s 0 h.scope sh.perCore) (arrivals s (u s) h sh)
     let wide : Hdr := { lane with scope := .block }
     let edge (gid : Nat) (l : List (Nat × Nat)) : State :=
       let s := holding (st 11)
       { (s.setGroup 1 { s.g 0 with core := 48 }).setBlock 0 { s.b 0 with rv := some { pc := (s.g 0).pc 0, arrived := l, complete := false } } with
         cur := some (gid, 255) }
     let crosses (s : State) : Bool := match s.cur with
       | some (gid, _) => (admitCause (s.g gid) wide (shapeRdv a0)).isNone && edgeHeld s gid wide (shapeRdv a0) && acrossEdge s gid
       | none => false
     (admitCause (s.g 0) grp sh).isNone && (openRvs far 0 .group).map (·.pc) == [0x7000] && (u far).pc != 0x7000 &&
     (openRvs two 0 .group).isEmpty && !here two grp sh && !edgeHeld two 0 grp sh &&
     crosses (edge 1 []) && !crosses (edge 0 [(1, 255)]) && edgeHeld (edge 0 [(1, 255)]) 0 wide (shapeRdv a0) &&
     allArrived (edge 0 [(1, 255)]) 0 ((edge 0 [(1, 255)]).g 0 |>.pc 0) [0, 1] (arrivals (edge 0 [(1, 255)]) (soloUnit (edge 0 [(1, 255)]) wide 0 255) wide (shapeRdv a0))) = true := by
  decide +kernel

/-- Registers beyond the declaration, an odd pair, an empty source under the trapping policy, a waiting one, and an error. -/
theorem test_witness_registers :
    (let stops (s : State) (sh : Shape) (ok : Stop → Bool) : Bool := match executing s lane sh with
       | some (s1, u) => !u.active.isEmpty && match regStop s1 u sh with
         | some x => ok x
         | none => false
       | none => false
     let cause (n : Nat) (x : Stop) : Bool := match x with
       | .trap t => t.cause == n
       | _ => false
     let few (s : State) : State := s.setLaunch 0 { s.l 0 with words := (s.l 0).words.set 5 0x0000000200040010 }
     let empty (s : State) : State := s.modGroup 0 fun g => g.markEmpty (.v 2 0)
     stops (few (st 1)) (shapeIadd { a2 with sb := v 16 }) (cause 36) && stops (few (st 1)) (shapeIadd { a2 with sa := v 2, sb := s_ 4 }) (cause 37) &&
     stops (few (st 8)) (shapeDadd dd) (cause 38) && stops (st 1) (shapeImadw { a3 with sc := v 7 }) (cause 40) &&
     stops (empty (st 1)) (shapeIadd { a2 with sa := src true false (.v 2) }) (cause 32) &&
     stops (empty (st 1)) (shapeIadd a2) (fun x => match x with
       | .wait (.cells l) => !l.isEmpty
       | _ => false) &&
     stops ((st 1).modGroup 0 fun g => { g with ecc := [64] }) (shapeIadd a2) (cause 44)) = true := by
  decide +kernel

theorem only_group {s : State} (h : s.groups.map (·.1) = [0]) {k : Nat} (hk : k ≠ 0) : s.g k = Group.blank := by
  match hg : s.groups with
  | [(a, b)] =>
    simp only [hg, List.map_cons, List.map_nil, List.cons.injEq, and_true] at h
    simp [State.g, State.group, hg, FMap.get, h, hk]
  | [] => simp [hg] at h
  | _ :: _ :: _ => simp [hg] at h

/-- A status bit of the one group that is newly set and traps: division by zero. -/
theorem test_witness_status :
    ∃ s s1 u, Runs s lane (shapeFdiv { a2 with sa := k_ 1, sb := z }) s1 u ∧
      (let e : Eff := { st := s1, fst := [(0, 2)] }
       let hot (k : Nat) : BitVec 6 := (BitVec.ofNat 6 (newFst e k) &&& ~~~ (s1.g k).fst) &&& (s1.g k).ftrap
       (∀ k, k ≠ 0 → hot k = 0) ∧ (hot 0).getLsbD 1 = true ∧ (hot 0).getLsbD 0 = false) := by
  have hr : runs ((st 4).modGroup 0 fun g => { g with ftrap := 63 }) lane (shapeFdiv { a2 with sa := k_ 1, sb := z })
      (fun s _ => s.groups.map (·.1) == [0] && (s.g 0).ftrap == 63 && (s.g 0).fst == 0) = true := by decide +kernel
  obtain ⟨s1, u, h, ho⟩ := runs_spec hr
  simp only [Bool.and_eq_true, beq_iff_eq] at ho
  refine ⟨_, s1, u, h, fun k hk => ?_, ?_, ?_⟩
  · simp only [only_group ho.1.1 hk]; exact BitVec.and_zero
  · simp only [ho.1.2, ho.2, newFst]; decide
  · simp only [ho.1.2, ho.2, newFst]; decide

/-- The lanes of a unit are distinct, and every register map is in its form. -/
theorem test_witness_lanes :
    (let u := soloUnit (st 1) lane 0 255
     (u.active.map fun p => (p.gid, p.lane)).Nodup ∧ u.active.all (fun p => ((st 1).group p.gid).isSome && decide (p.lane < 32)) = true) ∧
    ∀ k, FMap.wf (0 : Word) ((st 1).g k).v = true ∧ FMap.wf (0 : BitVec 4) ((st 1).g k).c = true ∧ ((st 1).g k).vEmpty.Nodup := by
  refine ⟨by decide +kernel, fun k => ?_⟩
  by_cases hk : k = 0
  · subst hk; decide +kernel
  · rw [only_group (by decide +kernel) hk]; decide

theorem test_witness_register_frame :
    Delivers (.iadd lane a2) lane (shapeIadd a2) a2.dst (widthOf 0) a2.cw (Claims.exact a2 (fun a b _ => a + b) fun a b r _ =>
      flagsAdd (widthOf 0) a b r) ∧ ∃ s s1 u, Runs s lane (shapeIadd a2) s1 u := by
  have hr : runs (st 1) lane (shapeIadd a2) some_ = true := by decide +kernel
  obtain ⟨s1, u, h, -⟩ := runs_spec hr
  exact ⟨fun s s1 u hr => issue_plain hr rfl rfl, st 1, s1, u, h⟩

/-- Queue 1 is enabled, and its ring at 0x20000 holds one entry. -/
def queued (w : List Nat) (s : State) : State :=
  putMems (s.setQueue 1 { Queue.reset with en := true, base := 0x20000, widx := 1 }) 0x10000020000 (w.flatMap (leBytes 8))

def entry (w : List Nat) : List DWord := (List.range 8).map fun k => BitVec.ofNat 64 (w.getD k 0)

/-- The processor reads that entry next. -/
def readsIt (w : List Nat) (s : State) : Bool := nextQueue (queued w s) 0 == some 1 && peekEntry (queued w s) 1 == some (entry w)

/-- A command with every field in order is read with nothing to wait for, and at its turn, and a condition holds each time on the
state in which it acts. -/
def takes (w : List Nat) (ok : List DWord → State → Bool) (s : State) (on : Bool := false) : Bool :=
  let t := queued w s
  let held := t.setQueue 1 { t.queue 1 with waiting := some (false, entry w) }
  readsIt w s && t.host.fatal.isNone && !badPayload (entry w) && !outstanding t 1 &&
    ok (entry w) (Claims.begun 1 (entry w) on (Claims.readOff 1 t)) &&
    !outstanding held 1 && !hostHeld held && ok (entry w) (Claims.begun 1 (entry w) on held)

/-- A command that waits for nothing is read. -/
def serves (w : List Nat) (ok : List DWord → State → Bool) (s : State) : Bool :=
  readsIt w s && !badPayload (entry w) && ok (entry w) (Claims.readOff 1 (queued w s))

/-- The boot chain has verified. -/
def up (s : State) : State := { s with host := { s.host with booted := [0, 1, 2, 3, 4] } }

/-- A fatal error has been taken. -/
def dead (s : State) : State := { s with host := { s.host with fatal := some (0x160, 0), dump := some (64, 9) } }

def keyed (s : State) (k : Word := 7) : State :=
  { s with host := { s.host with keys := [{ key := k, ctx := 0, va := 0x4000, len := 4096, rights := 3 }] } }

/-- The block of core 0 asks for sixteen awake segments, and three stand awake. -/
def asking (s : State) : State :=
  ((s.modBc 0 0 fun c => { c with wake := 16 }).setCore 0 { s.core 0 with awake := 3 }).setLaunch 0
    { s.l 0 with words := (s.l 0).words.set 5 0x0000000200A00010 }

def slotNow (n : Nat) (overran : Bool) (s : State) : State :=
  { s with pkg := { s.pkg with ns := n, slots := [{ seq := 1, kind := 0, len := 160, overran := overran, hit := [0] }], toOpen := [] } }

def anOp : AsyncOp :=
  { n := 0, cls := 2, job := { op := 0xD4, user := true, fn := 0, imm := 0, args := [0], lanes := [] }, bar := none, evq := none
    aborted := false, complete := false, fault := none }

/-- What the sequencers bring to a group. -/
theorem test_witness_sequencers :
    (let s := { st 13 with cur := none }
     winner (refuseAll s 0 0) 0 0 == some (0, 255) &&
     (let t := (s.setGroup 1 { s.g 0 with bid := 1 }).modGroup 0 fun g => g.modNar 255 fun n => { n with st := .parked, why := .cells [(0, .s 4)] }
      let u := (t.setBlock 1 { t.b 0 with lid := 5 }).setLaunch 5 { t.l 0 with words := (t.l 0).words.set 4 (BitVec.ofNat 64 0x000000FF00100101) }
      let x := (u.g 0).nar 255
      x.st == .parked && x.why == .cells [(0, .s 4)] && (candidates u 0 0).any fun y => decide (classOf u y.2.1 < classOf u (u.g 0))) &&
     (let t := s.modGroup 0 fun g => { g with pend := [{ n := 3, writes := [], job := none }] }
      (t.g 0).pend.find? (fun p => p.n == 3) == some { n := 3, writes := [], job := none }) &&
     (let t := s.modGroup 0 fun g => { g with wdog := 2 ^ 40 }
      (t.launchOf 0).wdogLimit != 0 && decide ((t.launchOf 0).wdogLimit ≤ (t.g 0).wdog) && (waitingNarrow t 0 (t.g 0)).isSome &&
        (t.g 0).stop.isNone && (t.g 0).susp.isEmpty) &&
     (let t := (s.modGroup 0 fun g => { g with ops := [anOp] }).setCore 0 { s.core 0 with array := [(0, 0)] }
      (t.g 0).ops.find? (fun o => o.n == 0 && !o.complete) == some anOp && oldestOp (t.g 0) anOp && arrayTurn t 0 0 0xD4) &&
     (let t := s.modGroup 0 fun g => { g with sq := [{ loc := .phys 0x10000004000, bytes := [1, 2] }] }
      (t.g 0).sq.length == 1)) = true := by
  decide +kernel

/-- A triangle whose corners are (0, 0), (16, 0) and (0, 16). -/
def aTriangle : Prim :=
  let at_ : List Nat := [0, 0, 0, 0x3F800000, 0x41800000, 0, 0, 0x3F800000, 0, 0x41800000, 0, 0x3F800000]
  { gauss := false, seq := 0, words := at_.map (BitVec.ofNat 32) }

def aDraw : Draw := Draw.fresh 9 9 (drawWords.map (BitVec.ofNat 64)) 1 0

/-- A ray whose traversal is over, with a child that waits or without. -/
theorem test_witness_ray_steps :
    (let r : Ray := { aRay with cand := none }
     let c : ChildRay := { org := [0, 0, 0], dir := 0, user := 0, gen := 1 }
     let s (r : Ray) : State := { st 14 with cur := none }.modGroup 0 fun g => { g with rays := [r] }
     let kid : Ray := { r with stack := [c] }
     rayWhere (s kid) 0 0 (fun r => r.isOver (s kid) && !r.stack.isEmpty) == some kid &&
     rayWhere (s r) 0 0 (fun x => x.isOver (s r) && x.stack.isEmpty) == some r) = true := by
  decide +kernel

/-- While a slot is open, the group's queue holds a store to a line that its die does not own. -/
def waiting (s : State) : State :=
  holding (s.modGroup 0 fun g => { g with sq := [{ loc := .phys 0x10000004000, bytes := [1, 2] }] })

/-- A block whose leader core lies on the other die. -/
def afar (s : State) : State := s.setBlock 0 { s.b 0 with cores := (s.b 0).cores.map fun k => { k with core := 48 } }

/-- What a slot holds: ordered accesses, atomics, fences, arrivals and waits across a die edge, and a ring's release. -/
theorem test_witness_held :
    (let sc (f : FmtM) : FmtM := { f with ord := 4 }
     let after (f : FmtM) (k : Kind) (s : State) (u : Ux) : Bool :=
       unitHeld s u && okE (sitesOf s u f k (k == .load && f.cache.getLsbD 2) (workLanes u (isScalar f.data))) fun l => mustFollow f l
     let x : FmtI := { i0 with imm := 64 }
     runs (waiting (st 9)) lane (shapeLd (sc ms)) (after (sc ms) .load) && runs (waiting (st 9)) lane (shapeSt (sc ms)) (after (sc ms) .store) &&
     runs (waiting (st 10)) lane (shapeAadd me) (fun s u => unitHeld s u && atoms me [2, 3] s u) &&
     runs (holding (st 10)) lane (shapeAadd me) (fun s u => sitesFar s true (atomSites s u me [2, 3] (workLanes u false)).1) &&
     runs (waiting (st 11)) lane (shapeFence { m1 with data := .zr, ord := 4, off := 0, size := 0 }) (fun s u => unitHeld s u) &&
     runs (holding (afar (st 11))) lane (shapeArvx { i0 with dst := .v 4 }) (fun s u => !u.active.isEmpty && leaderHeld s u.gid true) &&
     runs (holding (afar (st 11))) lane (shapeWaitp { x with cw := 4 }) (fun s u => leaderHeld s u.gid (tb x.imm.toNat 6)) &&
     runs (waiting (ringed 0 0 (st 11))) grp (shapeRput { a0 with sa := k_ 3 }) (fun s u => inState 0 s u && unitHeld s u) &&
     runs (waiting (drawing (st 14))) lane (shapeDrawx dx) (fun s u => !u.active.isEmpty && drawsInFlight s < 16 && unitHeld s u) &&
     runs { st 14 with draws := (List.range 16).map fun k => (k, some aDraw) } lane (shapeDrawx dx) (fun s u =>
       !u.active.isEmpty && decide (16 ≤ drawsInFlight s))) = true := by
  decide +kernel

/-- Sixteen of the 32 arrivals of a unit complete a phase: the lanes find two phases. -/
theorem test_witness_two_phases :
    runs ((st 11).setBar 0 0 { (st 11).bar 0 0 with aexp := 16, act := true }) lane (shapeArv { i0 with dst := .s 4 }) (fun s u =>
      !u.active.isEmpty && match (s.bar (objCore s u.gid false) 0).arriveMany 32 with
        | some r => r.1.any fun x => x != r.1.headD 0
        | none => false) = true := by
  decide +kernel

/-- Where an engine command does not begin: a charge beyond the budget, a range out of bounds, 63 outstanding operations, an older
access that a slot holds, and a slot that is not in use. -/
theorem test_witness_engine_stops :
    (let f : FmtE := e1
     let made (w : List Nat) (s : State) (ok : Plan → State → Ux → Bool) : Bool := runs (regs 8 w s) lane (shapeCpy f) fun s u =>
       !u.active.isEmpty && okE (planCpy (drainUnit s u) u.gid (jobOf s u 0xC0 5 f)) fun p => ok p s u
     let poor : State := (st 12).setLaunch 0 { (st 12).l 0 with words := (((st 12).l 0).words.set 4 0).set 10 5 }
     let many : State := (st 12).modGroup 0 fun g => { g with ops := (List.range 63).map fun k => { anOp with n := k, cls := 0 } }
     let w : List Nat := [0x4000, 0, 0x10, tw, 64]
     made w poor (fun p s u => !Claims.paid s u p) &&
     made [0x4000, 0, 0x1FFFF0, tw, 64] (st 12) (fun p s u => Claims.paid s u p && p.bad s == some 2) &&
     made w many (fun p s u => Claims.paid s u p && (p.bad s).isNone && decide (63 ≤ (s.g u.gid).counter 0)) &&
     made w (waiting (st 12)) (fun p s u => Claims.paid s u p && (p.bad s).isNone && decide ((s.g u.gid).counter 0 < 63) && unitHeld s u) &&
     runs (st 12) lane (shapeCpypl f) (fun s u => !u.active.isEmpty && (slotFault (slotAt s u.gid 0) (slotAt s u.gid 0).elem).isSome) &&
     runs ((st 13).setCore 0 { (st 13).core 0 with accEcc := [0] }) lane (shapeMsoft { x0 with fn := 64 }) (fun s u =>
       !u.active.isEmpty && !Claims.accSound { x0 with fn := 64 } (Claims.own s u) s)) = true := by
  decide +kernel

/-- A store that drains where its die owns the line, and one that asks for the line. -/
theorem test_witness_drains :
    (let s := st 9
     let l := lineOf 0x10000004000
     let o := s.setLine l { DirLine.idle with st := 3, owner := 0 }
     (lineNeeded s 0 (.phys 0x10000004000) == some l) && !(s.line l).asked 0 && !isHole 0x10000004000 && !isDark s 0x10000004000 &&
     (o.line l).owns 0 && (lineNeeded o 0 (.phys 0x10000004000)).isNone && !memHeld o) = true := by
  decide +kernel

/-- A cluster with a ratio to take, a reserve to apply, an event in its queue, and a beat on its way. -/
theorem test_witness_clusters :
    (let s := st 0
     let t := s.setCluster 5 { s.cluster 5 with
       ratioNext := some 3, c0next := some 0, eq := [0], flight := FMap.set [] [] 1 [List.replicate 4 0] }
     let c := t.cluster 5
     c.ratioNext == some 3 && (blocksIn t 5).isEmpty && c.claims.isEmpty && c.c0next == some 0 && !c.eq.isEmpty &&
     !(FMap.get [] c.flight 1).isEmpty && !memHeld t && c.slot.follow != 1) = true := by
  decide +kernel

/-! ### Witnesses: the host, the package, the blocks and the draws -/

/-- A command of each kind, read with nothing to wait for and at its turn. -/
theorem test_witness_commands :
    (let s := st 0
     let vw (t : State) (w : List DWord) (n : Nat) : Bool := (vWrite t (t.queue 1).ctx sysWrite (entW w 1) (leBytes 8 n) noBlock 0).isSome
     takes [1, 0x5000] (fun w _ => entKind w == 1 && !entHolds w) s true &&
     takes [2, 0x4000, 0x5000, 64] (fun w _ => entKind w == 2 && entW w 3 == 64) s true &&
     takes [2, 0x4000, 0x5000, 0] (fun w _ => entKind w == 2 && entW w 3 == 0) s &&
     takes [3, 0x4000, 5, 1] (fun w t => entKind w == 3 && (vRead t (t.queue 1).ctx sysRead (entW w 1) 8).isSome && vw t w 5) s &&
     takes [3, 0x4001, 5, 1] (fun w _ => entKind w == 3 && entW w 1 % 8 == 1) s &&
     takes [4, 0x4000, 0, 0] (fun w _ => entKind w == 4 && entW w 1 % 8 == 0 && entHolds w) s true &&
     takes [4, 0x4001, 0, 0] (fun w _ => entKind w == 4 && entW w 1 % 8 == 1) s &&
     takes [5, 0x100, 0x10000000000] (fun w t => entKind w == 5 && entW w 1 % 4 == 0 && (FMap.get none t.ctxs (ctxOf w)).isNone &&
       entW w 2 % 4096 == 0 && isLp (entW w 2) && !isFirmware (entW w 2)) s &&
     takes [5, 0x101] (fun w t => (FMap.get none t.ctxs (ctxOf w)).isSome && !ctxInUse t (ctxOf w))
       { s with ctxs := FMap.set none s.ctxs 1 (some 0x10000000000) } &&
     takes [5, 2, 0x4000, 4096, 3] (fun w t => (FMap.get none t.ctxs (ctxOf w)).isSome && entW w 4 != 0 &&
       decide ((t.host.keys.filter fun k => k.rights != 0).length < 65536)) s &&
     takes [5, 3, 7] (fun w t => t.host.keys.any fun k => k.key == BitVec.ofNat 32 (entW w 2) && k.rights != 0) (keyed s)) = true := by
  decide +kernel

/-- What a HALTED queue serves: a snapshot with and without room, the dump's record, its release with and without an image, and the
report. -/
theorem test_witness_halted :
    (let s := dead (st 0)
     let none_ : State := { s with host := { s.host with dump := none } }
     serves [6, 0x4000, 65536] (fun w t => entKind w == 6 && decide ((snapshot t).length ≤ entW w 2)) s &&
     serves [6, 0x4000, 0] (fun w t => entKind w == 6 && decide (entW w 2 < (snapshot t).length)) s &&
     serves [7, 0, 0x4000] (fun w _ => entKind w == 7 && entW w 1 % 2 == 0 && entW w 2 % 16 == 0) s &&
     serves [7, 0, 0x4008] (fun w _ => entKind w == 7 && entW w 1 % 2 == 0 && entW w 2 % 16 == 8) s &&
     serves [7, 1] (fun w t => entKind w == 7 && entW w 1 % 2 == 1 && t.host.dump.isSome) s &&
     serves [7, 1] (fun w t => entKind w == 7 && entW w 1 % 2 == 1 && t.host.dump.isNone) none_ &&
     serves [8, 0, 0, 0, 0, 0x4000] (fun w _ => entKind w == 8) s) = true := by
  decide +kernel

/-- A command read after a fatal error; one that waits for a copy before it; one with a bad field, read and at its turn; a report
with one; and an unknown kind, read and at its turn. -/
theorem test_witness_refused_commands :
    (let s := st 0
     let w : List Nat := [0x102, 0x4000, 0x5000, 64]
     let bad : List Nat := [0x402, 0x4000, 0x5000, 64]
     let t := queued w s
     let copying := t.setQueue 1 { t.queue 1 with copies := [(3, entry [2])] }
     let atTurn (w : List Nat) : Bool :=
       let h := (queued w s).setQueue 1 { (queued w s).queue 1 with waiting := some (false, entry w) }
       h.host.fatal.isNone && !outstanding h 1 && !hostHeld h
     readsIt w (dead s) && (dead s).host.fatal.isSome && entKind (entry w) == 2 &&
     nextQueue copying 0 == some 1 && peekEntry copying 1 == some (entry w) && entWaits (entry w) && outstanding copying 1 &&
     readsIt bad s && badPayload (entry bad) && entKind (entry bad) == 2 && !entWaits (entry bad) && atTurn bad &&
     readsIt [0x408] s && badPayload (entry [0x408]) && readsIt [0] s && entKind (entry [0]) == 0 && !entWaits (entry [0]) &&
     readsIt [9] s && entKind (entry [9]) == 9 && atTurn [0]) = true := by
  decide +kernel

/-- The doorbell, the acknowledgement, the enable, a COPY that completes, a WAIT that is met, an entry that cannot be read, and an
abort. -/
theorem test_witness_queues :
    (let s := up (st 0)
     let w : List Nat := [2, 0x4000, 0x5000, 64]
     let t := queued w s
     let q := t.queue 1
     anyPort s && !hostHeld s && (q.en && !q.err && (3 - q.widx).toNat == 2 && (3 - q.ridx).toNat == 3 && q.records.isEmpty &&
       (let a : Queue := { q with cqidx := 4, cqack := 1 }
        (BitVec.ofNat 32 3 - a.cqack).toNat == 2 && (a.cqidx - a.cqack).toNat == 3) &&
       !(s.queue 0).en && (s.queue 0).base.toNat % 64 == 0 && (FMap.get none s.ctxs (s.queue 0).ctx).isSome) &&
     (let c := t.setQueue 1 { q with copies := [(3, entry w)] }
      let held := t.setQueue 1 { q with copies := [(3, entry (0x102 :: w.tail))], waiting := some (true, entry (0x102 :: w.tail)) }
      let r := copyPages c 0 0 0x4000 0x5000 64 4 0
      r.2 == 64 && (r.1.queue 1).waiting.isNone && ((c.queue 1).copies.find? fun x => x.1 == 3).isSome && !hostHeld c &&
        (held.queue 1).waiting == some (true, entry (0x102 :: w.tail)) && entKind (entry (0x102 :: w.tail)) == 2) &&
     (let t := s.setQueue 1 { q with waiting := some (true, entry [4, 0x4000, 0, 0]) }
      (t.queue 1).en && (t.queue 1).waiting == some (true, entry [4, 0x4000, 0, 0]) && !hostHeld t) &&
     (waitMet (entry [4, 0x4000, 0, 0]) 0 && (vRead s 0 sysRead 0x4000 8).isSome) &&
     (let u := t.setQueue 1 { q with base := 0x40000000 }
      nextQueue u 0 == some 1 && (peekEntry u 1).isNone) &&
     ((queueLaunches s 0).find? fun e => e.2.tag == 0 && !e.2.ending).isSome) = true := by
  decide +kernel

/-- The window's key: an access that it allows, which a slot does not hold, and one that it does not. -/
theorem test_witness_rdma (w : Bool) :
    rdmaTarget (up (st 0)) Config.windowKey 0xFFF0000000000 8 w = some [(0xFFF0000000000, 8)] ∧
    rdmaTarget (up (st 0)) Config.windowKey 0x4000 8 w = none := by
  unfold rdmaTarget
  simp only [beq_self_eq_true, if_true]
  decide +revert

/-- An access to memory through a key of its own, which a slot holds. -/
theorem test_witness_rdma_memory :
    ∃ k, rdmaTarget (holding (keyed (up (st 0)) k)) k 0x4000 8 true = some [(0x10000004000, 8)] ∧ isWindow 0x10000004000 = false := by
  have h (k : Word) (hk : k = 7 ∨ k = 8) (hn : k ≠ Config.windowKey) :
      rdmaTarget (holding (keyed (up (st 0)) k)) k 0x4000 8 true = some [(0x10000004000, 8)] := by
    unfold rdmaTarget
    rw [beq_eq_false_iff_ne.mpr hn]
    rcases hk with rfl | rfl <;> decide +kernel
  by_cases h7 : Config.windowKey = 7
  · exact ⟨8, h 8 (.inr rfl) (by rw [h7]; decide), by decide⟩
  · exact ⟨7, h 7 (.inl rfl) (Ne.symm h7), by decide⟩

/-- The network and the board: a port that is up, a request behind another one, sixteen READs that wait, the boot, the die of an
error, and a link module. -/
theorem test_witness_network :
    (let s := up (st 0)
     let l := holding s
     let three := { l with pkg := { l.pkg with modsOff := [1800, 1801, 1802] } }
     let later (n : Nat) : State := { s with host := { s.host with inbound := List.replicate n { conn := 0, parts := none, data := none } } }
     portUp s 0 && s.host.inbound.isEmpty && !memBusy s && memBusy l && !(later 1).host.inbound.isEmpty && readsWaiting (later 15) 0 == 15 &&
     readsWaiting (later 16) 0 == 16 && s.host.fatal.isNone && (dead s).host.fatal.isSome && !isDark s 0x10000004000 &&
     (l.pkg.slots.any fun x => x.kind == 3) && !moduleOff l 0 1 0 && decide (0 < linkModules 0 1) && !moduleOff three 1 8 3 &&
     (List.range 4).all (fun m => m == 3 || moduleOff three 1 8 m) &&
     errorDie s 4 5 == some 0 && (errorDie s 5 0x200000000).isSome && (errorDie s 6 5).isSome && errorDie s 7 3 == some 0 &&
     (errorDie s 10 (0x1FF00000000 / 128)).isSome && isHbm (128 * 5) && isLp (128 * 0x200000000) && s.host.bootHalt.isNone) = true := by
  decide +kernel

/-- A rail that keeps four phases, one that does not, one wholly lost, on a shader die and on the front end. -/
theorem test_witness_rails :
    (let s := st 0
     let lost (k n : Nat) : State := { s with pkg := { s.pkg with rails := FMap.set Rail.reset s.pkg.rails k { drt := true, lost := n } } }
     let after (k n c : Nat) : Rail := { drt := true, lost := min 12 (((lost k n).rail k).lost + c) }
     railDie 0 == some 0 && (railDie 24).isNone && ((lost 0 12).rail 0).lost == 12 && decide (((lost 0 2).rail 0).lost < 12) &&
     decide (4 ≤ phsOf (after 0 2 2)) && decide (phsOf (after 0 8 2) < 4) && decide (4 ≤ phsOf (after 24 2 2)) &&
     decide (phsOf (after 24 8 2) < 4)) = true := by
  decide +kernel

/-- Register errors: a register with no twin, a vector register of a thread with one, and an accumulator. -/
theorem test_witness_register_errors :
    (let s := st 0
     let mark (key : Nat) (s : State) : State := s.modGroup 0 fun g => { g with ecc := NSet.add g.ecc key }
     let twin := (hitting s).modGroup 1 fun g => { g with ecc := NSet.add g.ecc 64 }
     (s.group 0).isSome && (twinOf (mark 37 s) 0 5).isNone && ((hitting s).group 1).isSome && (twinOf twin 1 0).isSome) = true := by
  decide +kernel

/-- A die that goes offline and one that comes back; a request that waits on one in transition, and one that nothing follows; a page
that moves; a bucket; a segment. -/
theorem test_witness_dies :
    (let s := st 0
     let die (n : Nat) (s : State) : State := s.setDie 1 { DieRec.reset with st := n }
     let ask := { s with pkg := { s.pkg with requests := [{ die := 1, online := false, reason := 1 }] } }
     let away := { die 2 s with ctxs := FMap.set none s.ctxs 0 (some 0x1000000000) }
     let back := { s with pkg := { s.pkg with wakeDue := some 1, slots := (holding s).pkg.slots } }
     let cut := { s with pkg := { s.pkg with modsOff := [1800, 1801, 1802, 1803] } }
     !anyMoving ask && allowed s { die := 1, online := false, reason := 1 } 0 && !allowed s { die := 1, online := true, reason := 0 } 0 &&
     feLost cut 1 && !allowed (die 4 cut) { die := 1, online := true, reason := 0 } 4 &&
     (let again := die 8 s
      (again.die 1).st == 8 && !allowed again { die := 1, online := true, reason := 0 } ((again.die 1).prev)) &&
     (let w := widestOf away 1 0x1000000
      (framesOf away 0 0x4000).find? (inStackOf 1) == some 0x1000000 && 0x10000100000 % (4096 * w.2) == 0 &&
        frameFree away (0x10000100000 / 4096) w.2 && !memBusy away) &&
     (stackFrames (die 2 s) 1).isEmpty && (away.die 1).st == 2 &&
     back.pkg.wakeDue == some 1 && (back.pkg.slots.any fun x => x.kind == 3) && ((die 1 s).die 1).st == 1 && blocksLeft (die 1 s) 1 == 0 &&
     (s.tlb.all fun e => !inStackOf 1 e.pfn) && ((die 3 s).die 1).st == 3 && s.pkg.darkDue.isNone &&
     ((die 6 s).die 1).st == 6 &&
     sliceUsable s 40 && decide (awakeFree (asking s) 0 < wakeAsked (asking s) 0) && decide (awakeFree (asking s) 0 < freeSegments (asking s) 0)) = true := by
  decide +kernel

theorem all_to_zero (l : List Nat) (b : Nat) (h : b ∈ l) : FMap.get none (l.map fun k => (k, some 0)) b = some (0 : Nat) := by
  induction l with
  | nil => cases h
  | cons k l ih =>
    by_cases hk : k = b
    · simp [FMap.get, hk]
    · simp [FMap.get, ih ((List.mem_cons.1 h).resolve_left (Ne.symm hk))]

/-- Every bucket on slice 0, and every bucket at home. -/
theorem test_witness_buckets :
    (let s : State := { st 0 with sliceMap := (List.range 4096).map fun k => (k, some 0) }
     ∀ b, b < 4096 → sliceOf s b / 12 ≠ 1) ∧ ∀ b, b < 4096 → sliceOf State.reset b = b % 96 := by
  refine ⟨fun b h => ?_, fun b _ => rfl⟩
  simp [sliceOf, all_to_zero _ b (List.mem_range.2 h)]

/-- The device's frame and slots, one at its published end alone, before a fixed slot or an L slot; an L slot that is owed, and one
that is not. -/
theorem test_witness_frames :
    (let s := st 0
     let due (next : List (Nat × Nat)) : State := { slotNow 160 false s with pkg := { (slotNow 160 false s).pkg with toOpen := next } }
     let owed : State := { s with pkg := { s.pkg with modDue := true } }
     let ends (t : State) : Bool := (runningSlot t).any fun x => decide (publishedEnd x ≤ t.pkg.ns)
     decide (3900 ≤ ({ s with pkg := { s.pkg with ns := 3900 } }).pkg.ns) &&
     decide (16 ≤ framesTo s.pkg.frame.toNat 100) && (secondSlot s 100).isNone && !owedL s && spacedL s 100 && owedL owed &&
     decide (16 ≤ framesTo owed.pkg.frame.toNat (owedFrame owed)) && (secondSlot owed (owedFrame owed)).isNone && owedFrame owed != 100 &&
     decide (((slotIn 512 false s).cluster 0).slot.wait ≤ 512) && ((slotIn 0 false s).cluster 0).slot.wait == 0 &&
     [[], [(1, 500)], [(3, 500)]].all (fun next => ends (due next) && (due next).pkg.toOpen == next) &&
     ((slotNow 160 true s).pkg.slots.find? fun x => x.overran).isSome) = true := by
  decide +kernel

/-- A cluster that closes with its slot, or with the last slot of an overrun; its interval; and its other times. -/
theorem test_witness_cluster_times :
    (let s := { st 0 with pkg := { (st 0).pkg with slotSeq := 3 } }
     let c (f : Cluster → Cluster) : State := s.setCluster 0 (f (s.cluster 0))
     let merged : State := { (slotIn 0 true s).setCluster 0 { (slotIn 0 true s).cluster 0 with
         slot := { ((slotIn 0 true s).cluster 0).slot with opened := true, seq := 0, follow := 1 } } with
       pkg := { s.pkg with slots := [{ seq := 0, kind := 0, len := 160, overran := true, hit := [] }] } }
     hasOpened s ((slotIn 0 true s).cluster 0).slot.seq && s.pkg.slots.isEmpty && ((slotIn 0 true s).cluster 0).slot.follow != 1 &&
     (merged.cluster 0).slot.opened && hasOpened merged 0 &&
     (let t := c fun x => { x with ivl := 4096 }
      adoptedClass t 0 == (t.cluster 0).cls && decide (4096 ≤ (t.cluster 0).ivl)) && ((c fun x => { x with stop := 1 }).cluster 0).stop == 1 &&
     (blocksIn s 5).isEmpty && (blocksIn s 0).all (fun b => (s.l b.2.lid).cls != 0) && !memHeld s && s.host.fatal.isNone) = true := by
  decide +kernel

/-- Launch 5 waits for its first block, in a class; or it is a launch of tasks, or a COOP one of tasks. Class 0 has its reserve in
cluster 2. -/
def launched (cls : Nat) (task : Bool) (s : State) (coop : Bool := false) : State :=
  let w4 := 0x000000FF00100100 + cls + (if task then 32 else 0) + (if coop then 16 else 0)
  let w := (((s.l 0).words.set 4 (BitVec.ofNat 64 w4)).set 5 0x0000000200A00010).set 10 100
  let l : Launch := { s.l 0 with words := w, st := .waiting, placed := 0, q := 1, tag := 7 }
  (s.setLaunch 5 l).setCluster 2 { s.cluster 2 with c0rsv := 0xFFFF }

def decided (places : List (List Nat)) (s : State) : Option Nat :=
  match decide0 s 5 ((argWords s (s.l 5)).getD [0]) places with
  | some (.ok x) => some (1000 + x.2)
  | some (.error r) => some r
  | none => none

/-- The pending task of launch 5 stands in cluster 2, its turn come. -/
def tabled (t : State) : State :=
  (t.setCluster 2 { t.cluster 2 with tasks := [{ lid := 5, lin := 0, order := some 0 }] }).setLaunch 5 { t.l 5 with placed := 1, st := .running }

/-- The placing of blocks: an accepted launch of class 0, one whose tasks find no room in a table, and a refused one, a block, a task, and
the block of a task and of a COOP launch's. -/
theorem test_witness_placing :
    (let s := st 0
     let oldest (s : State) : Bool :=
       ((launchesOf s).find? fun e => e.2.cls == 0 && e.2.st == .waiting && e.2.draw.isNone).map (·.1) == some 5
     let zero := launched 0 false s
     let room (t : State) (full : Bool) : Bool := match decide0 t 5 ((argWords t (t.l 5)).getD [0]) [[8]] with
       | some (.ok x) => x.1.clusters.any (fun e => decide (64 < e.2.tasks.length)) == full
       | _ => false
     let crowd (t : State) : State := t.setCluster 2 { t.cluster 2 with
       tasks := List.replicate 64 { lid := 9, lin := 0, order := some 0 }, noTask := true }
     oldest zero && (argWords zero (zero.l 5)).isSome && room zero false && decide (1000 ≤ (decided [[8]] zero).getD 0) && zero.host.fatal.isNone &&
     oldest (launched 0 true s) && room (crowd (launched 0 true s)) true &&
     decided [] (zero.setCluster 2 { zero.cluster 2 with c0rsv := 0 }) == some 8 &&
     (let t := launched 2 false s
      classHead t 2 == some 5 && noneHigher t 2 && !(t.l 5).task && !(t.l 5).coop && (placeMany t 5 [[8]]).isSome) &&
     (let t := launched 2 true s
      let u := tabled t
      classHead t 2 == some 5 && (t.l 5).task && (taskClusters t (t.l 5)).contains 2 && nextTask (u.cluster 2) == some 0 && !(u.l 5).coop &&
        (u.l 5).positions.contains [8] && goodPosition u (u.l 5) [8] && (freePrivate u).isSome && noneHigher u 2) &&
     (let u := tabled (launched 2 true s true)
      nextTask (u.cluster 2) == some 0 && (u.l 5).coop && noneHigher u 2 && (standCoop u 5).isSome)) = true := by
  decide +kernel

/-- Block 0 in a state. -/
def blockIn (x : BState) (s : State) : State := s.setBlock 0 { s.b 0 with st := x }

/-- A block that is admitted, with its arguments read or not, or again after its save; that is throttled or retired; pre-empted with its
die, or for a higher class that lacks room; saved and resumed. -/
theorem test_witness_blocks :
    (let s := st 0
     let idle := s.modGroup 0 fun g => { g with alive := 0, narrows := g.narrows.map fun n => { n with st := .exited } }
     let placed := { blockIn .placed s with groups := [] }
     let unread := placed.setLaunch 0 { placed.l 0 with words := ((placed.l 0).words.set 24 0x40000000).set 25 1 }
     let leaving := s.setDie 0 { DieRec.reset with st := 1 }
     let admits (t : State) : Bool := (t.b 0).st == .placed && !(t.l 0).ending && powerOk t (chargesDue t (t.b 0)) && !(t.l 0).task
     let asks (t : State) : Bool := !memHeld t && (t.l 0).cls != 0 && (t.group (gidOf 0 0)).isNone
     let full (t : State) : State := (List.range 8).foldl (fun t d => t.setDie d { DieRec.reset with st := 4 }) t
     admits placed && asks placed && (argWords placed (placed.l 0)).isSome && admits unread && asks unread && (argWords unread (unread.l 0)).isNone &&
     admits (blockIn .placed s) && ((blockIn .placed s).group (gidOf 0 0)).isSome &&
     ((s.setLaunch 0 { s.l 0 with words := (s.l 0).words.set 13 (2 ^ 24 + 1) }).l 0).energy != 0 && (s.b 0).st == .admitted &&
     blockDone idle 0 (idle.b 0) && !blockHeld idle 0 && onLeavingDie leaving (leaving.b 0) &&
     needsRoom (full (launched 1 false s)) 1 && (s.l 0).cls == 2 && !ownsTile (full (launched 1 false s)) (s.b 0) &&
     readyToSave (blockIn .preempting idle) 0 && !ownsTile (blockIn .preempting idle) ((blockIn .preempting idle).b 0) && !memHeld idle &&
     (let t := blockIn .preempted idle
      !(t.l 0).ending && (t.l 0).positions.contains [8] && goodPosition t (t.l 0) [8] && !(t.l 0).coop) &&
     (let t := (blockIn .preempted idle).setLaunch 0 { idle.l 0 with words := (idle.l 0).words.set 4 0x000000FF00100112 }
      !(t.l 0).ending && (t.l 0).positions.contains [8] && goodPosition t (t.l 0) [8] && (t.l 0).coop && couldHold t (t.l 0))) = true := by
  decide +kernel

/-- The group's wave runs; or it waits for a wave of an earlier triangle. -/
def inWave (late : Bool) (s : State) (u : Ux) : Bool := !u.active.isEmpty && match waveOf s u.gid with
  | some (k, d, w) => mustWait s k d w == late
  | none => false

/-- The place of a tile operation's record, with the draw's, in a wave. -/
def recordAt (ok : Draw → Wave → ELoc → State → Ux → Bool) (s : State) (u : Ux) : Bool :=
  !u.active.isEmpty && match waveOf s u.gid, engLoc s u.gid ((jobOf s u 0xEE 2 e1).addr 0) with
  | some (_, d, w), some x => ok d w x s u
  | _, _ => false

/-- The plan of TLRST is affordable and in range. -/
def loads (d : Draw) (x : ELoc) (s : State) (u : Ux) : Bool :=
  let p : Plan := { reads := [(x, d.recordBytes)], parts := [(some x, none, d.recordBytes)] }
  Claims.paid s u p && (p.bad s).isNone

/-- TLRST finds its header, or the fault of reading it. -/
def heads (ok : Draw → Wave → Except Trap (List Byte) → Bool) : State → Ux → Bool := recordAt fun d w x s u =>
  fits 0 (.ok { reads := [(x, d.recordBytes)], parts := [(some x, none, d.recordBytes)] }) s u &&
    !(memHeld (drainUnit s u) && rangeFar (drainUnit s u) u.gid (false, x, 64)) &&
    ok d w (headerOf (drainUnit s u) u.gid (jobOf s u 0xEE 2 e1).user x)

/-- The record is the checkpoint of the wave's tile at an earlier triangle. -/
def checked (d : Draw) (w : Wave) (bs : List Byte) : Bool :=
  field bs 8 8 % 2 == 1 && field bs 0 2 == w.tile % d.ntx && field bs 2 2 == w.tile / d.ntx && decide (field bs 4 4 < w.seq)

/-- The bytes that TRES stores. -/
def targets (s : State) (u : Ux) (ok : List (Pos × Site × List Byte) → Bool) : Bool := match waveOf s u.gid with
  | some (_, d, w) => okE (tresStores u s (u.active.flatMap fun p =>
      (resolveStores d (d.tile w.tile) (w.pixel p.lane).1 (w.pixel p.lane).2).map fun x => (p, x.1, x.2))) ok
  | none => false

/-- The accesses of a wave to its tile, their checkpoints, and their waits; and outside a wave. -/
theorem test_witness_fragments :
    (let s := shading 1 (st 14)
     let record (n : Nat) (s : State) : State := regs 8 [0x4000, 0] (putMems s 0x10000004000 (leBytes 16 n))
     let rst (t : State) (ok : Draw → Wave → Except Trap (List Byte) → Bool) : Bool := runs t lane (shapeTlrst e1) (heads ok)
     let bad (c : Nat) (d : Draw) (w : Wave) (x : Except Trap (List Byte)) : Bool :=
       okE x fun bs => !checked d w bs && (if field bs 8 8 % 2 = 0 then drawCause 11 else engCause 0 6) == c
     let slot (t : State) : Bool := runs t lane (shapeTlrst e1) (recordAt fun d _ x s u => loads d x s u &&
       (unitHeld s u || (memHeld (drainUnit s u) && rangeFar (drainUnit s u) u.gid (false, x, 64))))
     ([shapeZtest { a1 with fn := 9 }, shapeBlend { a0 with fn := 0x104 }, shapeTres { a0 with fn := 4 },
       shapeTres { a0 with fn := 0x104 }].all fun sh => runs s lane sh (inWave false)) &&
     runs s lane (shapeTres { a0 with fn := 0x104 }) (fun s u => targets s u fun l => l.all fun x => x.2.1.mt == 0) &&
     runs (checkpoint s) lane (shapeTlck e1) (recordAt fun d _ x =>
       fits 0 (.ok { writes := [(x, d.recordBytes)], parts := [(none, some x, d.recordBytes)] })) &&
     rst (checkpoint s) (fun d w x => okE x (checked d w)) && rst (record 0 s) (bad (drawCause 11)) &&
     rst (record (2 ^ 64 + 1) s) (bad (engCause 0 6)) &&
     rst { checkpoint s with poison := [(lineOf 0x10000004000, 1)] } (fun _ _ x => !okE x fun _ => true) &&
     slot (waiting (checkpoint s)) && slot (holding (checkpoint s)) &&
     ([shapeTlck e1, shapeTlrst e1].all fun sh => runs (st 14) lane sh fun s u => !u.active.isEmpty && (waveOf s u.gid).isNone) &&
     ([shapeZtest a1, shapeBlend { a0 with fn := 4 }, shapeTres { a0 with fn := 4 }].all fun sh =>
       runs (st 14) lane sh (fun s u => !u.active.isEmpty && (waveOf s u.gid).isNone) &&
       runs (s.setDraw 0 { ((s.draw 0).getD (Draw.fresh 0 0 [] 0 0)) with waves :=
         [{ gid := 7, tile := 0, seq := 2, pixels := [], ended := false }, { gid := 0, tile := 0, seq := 3, pixels := [(0, 0)], ended := false }] })
         lane sh (inWave true))) = true := by
  decide +kernel

/-- A wave whose pixel is stored to uncached pages: at once, behind an older access that a slot holds, and in a slot itself. -/
theorem test_witness_wave_waits :
    (let page (vpn : Nat) : TlbEntry := { ctx := 0, vpn := vpn, pages := 16, pfn := 0x10000400, w := true, x := false, u := true, mt := 1 }
     let s : State := { shading 1 (st 14) with tlb := [page 0x200, page 0x300, page 0x310] }
     let stores (t : State) (ok : State → Ux → List (Pos × Site) → Bool) : Bool := runs t lane (shapeTres { a0 with fn := 0x104 }) fun s u =>
       inWave false s u && targets s u fun l => l.any (fun x => x.2.1.mt != 0) && ok s u (l.map fun x => (x.1, x.2.1))
     stores s (fun s u l => !unitHeld s u && !writesHeld (drainUnit s u) l) && stores (waiting s) (fun s u _ => unitHeld s u) &&
     stores (holding s) (fun s u l => writesHeld (drainUnit s u) l)) = true := by
  decide +kernel

/-- A request of die 2 for a line. -/
def aRequest : DirReq := { kind := 1, die := 2, core := none, near := none, zero := false, at_ := (0, 0) }

/-- A link queue that has room, and one that has none, while a slot holds what crosses the die links. -/
theorem test_witness_link_queue :
    (∃ s : State, memHeld s = true ∧ homeDie (128 * 5) ≠ 2 ∧ sentBy s 2 ≤ Config.linkDepth) ∧
    ∃ s : State, memHeld s = true ∧ homeDie (128 * 5) ≠ 2 ∧ Config.linkDepth < sentBy s 2 := by
  refine ⟨⟨holding State.reset, by decide +kernel, by decide +kernel, Nat.zero_le _⟩,
    { holding State.reset with dir := [(5, { DirLine.idle with sent := List.replicate (Config.linkDepth + 1) aRequest })] },
    by decide +kernel, by decide +kernel, ?_⟩
  simp [sentBy, aRequest]

/-- The messages of a line: between a sharer, an owner and the home agent, with write-backs that the owner's ownership outlives, that its
ownership has left before they come home, and that come after. -/
theorem test_witness_directory :
    (let l : DirLine := { DirLine.idle with sharers := [1], acks := [1] }
     let own : DirLine := { DirLine.idle with st := 5, owner := 1, serving := some aRequest, wbuf := [1] }
     let seen : DirLine := { own with snooped := true, wbPend := true }
     let sent : DirLine := { DirLine.idle with wbuf := [1] }
     let under (x : DirLine) : Bool := NSet.has x.wbuf 1 && !NSet.has x.wbAck 1 && !NSet.has x.wbHome 1
     !memHeld (st 0) && memHeld (holding (st 0)) && homeDie (128 * 5) == 0 &&
     NSet.has l.acks 1 && NSet.has l.sharers 1 && !NSet.has { l with sharers := [] }.sharers 1 &&
     (let x : DirLine := { l with sharers := [], st := 4, owner := 0 }
      (NSet.del x.acks 1).isEmpty && x.st == 4) &&
     own.st == 5 && own.owner == 1 && !own.snooped && under own &&
     [seen, { seen with wbPend := false }, { seen with wbHome := [1] }].all
       (fun x => x.serving == some aRequest && x.st == 5 && x.owner == 1 && x.snooped && x.acks.isEmpty) &&
     [{ sent with stale := [1] }, { sent with st := 5, owner := 1 }, { sent with st := 3, owner := 1 },
       { sent with st := 2, owner := 1, sharers := [2] }, { sent with st := 3, owner := 0 }].all under &&
     NSet.has ({ DirLine.idle with wbAck := [1] } : DirLine).wbAck 1 &&
     (let x : DirLine := { DirLine.idle with st := 6, serving := some aRequest }
      x.acks.isEmpty && aRequest.die == 2) &&
     [2, 3, 5].all (fun k => let y : DirLine := { DirLine.idle with st := k, owner := 1 }
      y.owner == 1 && !y.snooped && !NSet.has y.wbuf 1)) = true := by
  decide

/-- The binning of a draw, with a primitive that is culled, that no store can hold, that the store has no room for and that it takes;
and the steps of its one tile. -/
theorem test_witness_tiles :
    (let s := st 14
     let d := { aDraw with queue := [aTriangle] }
     let t : TileRec := { TileRec.cleared with st := .listed, tris := { seqs := [0], chunks := [0], fill := 1 } }
     let stored := { aDraw with stored := [aTriangle], used := 4 }
     let owned := stored.setTile 0 { t with st := .owned, owner := some 0 }
     let drawn := owned.setTile 0 { t with st := .owned, owner := some 0, nextSeq := 1 }
     let small (n : Nat) : Draw := { d with words := (drawWords.map (BitVec.ofNat 64)).set 3 n }
     let free (d : Draw) : Bool := ((s.setDraw 0 d).draw 0).isSome && d.ended == 0 && !memBusy (s.setDraw 0 d)
     let leaves (s : State) (d : Draw) : Bool := !tileOpLive s 0 0 && !stagesHeld s d 0
     retiredBlock ((s.setBlock 3 { s.b 0 with lid := 1, st := .retired }).setDraw 0 aDraw) 1 0 &&
     aDraw.ntiles == 1 && free d && primTiles d { aTriangle with words := List.replicate 12 0 } == [] && primTiles d aTriangle == [0] &&
     decide ((small 64).units < unitsFor d aTriangle [0]) && decide (d.used + unitsFor d aTriangle [0] ≤ d.units) &&
     (let e := { d with used := d.units }
      decide (unitsFor e aTriangle [0] ≤ e.units) && decide (e.units < e.used + unitsFor e aTriangle [0])) &&
     gaussUnits { aDraw with flush := true } == aDraw.used && gaussUnits { drawn with flush := true } != drawn.used &&
     (let f := { drawn with flush := true }
      free f && flushTiles f == [0] && rendered f 0 && (f.tile 0).st == .owned && leaves (s.setDraw 0 f) f &&
        (((flushTiles f).foldl (fun st i => takeTile st 0 i) (s.setDraw 0 f)).draw 0).isSome) &&
     ((stored.setTile 0 t).tile 0).st == .listed && ((stored.setTile 0 { t with st := .checkpointed }).tile 0).st == .checkpointed &&
     dieOnline s 0 && (holdBlock ((shading 1 s).setDraw 0 owned) owned 0).isSome &&
     (owned.tile 0).st == .owned && (owned.tile 0).owner == some 0 && (wavesIn owned 0).isEmpty && leaves (s.setDraw 0 owned) owned &&
     ((s.setDie 0 { DieRec.reset with st := 1 }).die 0).st == 1 && !(owned.tile 0).added && (s.l owned.frag).nstage != 0 &&
     (let v := ((shading 1 s).setDraw 0 owned).modGroup 0 fun g => { g with alive := 0 }
      (v.group 0).isSome && waveReady v owned 0 (v.g 0) && (nextWave owned 0).isSome) &&
     !aDraw.binned && !aDraw.flush && aDraw.queue.isEmpty && ({ aDraw with nextBlock := (s.l aDraw.mesh).blocks }).ntiles == 1 &&
     tileDone { drawn with binned := true } 0) = true := by
  decide +kernel

/-- Two rays from (0.25, 0.25, -0.25) along z, whose candidate the lanes of one hit program take. -/
theorem test_witness_hit_dispatch :
    (let r (lane : Nat) : Ray := { aRay with cand := none, lane := lane, root := 0x10000004000, table := 0x8000
                                             org := [0x3E800000, 0x3E800000, 0xBE800000], dir := dWord 0 0 8388607 0 }
     let tri : List Word := ([0, 0, 0, 0x3F800000, 0, 0, 0, 0x3F800000, 0, 0, 0, 0] : List Nat).map (BitVec.ofNat 32)
     let t := { st 14 with cur := none, structs := FMap.set [] [] 0x10000004000 [tri, []] }
     let s := t.modGroup 0 fun g => { g with rays := [r 0, r 3] }
     [0, 3].all (fun lane => match callable s 0 lane 0 with
       | some x => hitTarget x.1 x.2 == 0x8000
       | none => false) && rising [0, 3] && canLend s 0 && (s.group 0).isSome && (s.g 0).bid == 0 && (s.g 0).core == 0) = true := by
  decide +kernel

/-- The async budget of class 0 holds no byte. -/
def poor (s : State) : State := s.setLaunch 0 { s.l 0 with words := (((s.l 0).words.set 4 0).set 10 5) }

/-- A charge that is known exceeds the budget. -/
def beyond (charge : State → Ux → Option Nat) (s : State) (u : Ux) : Bool := !u.active.isEmpty && match charge s u with
  | some n => overBudget s (s.g u.gid).bid n
  | none => false

/-- What the budget does not hold: a product's, an array's, a network's and a conversion's bytes; and an accumulator in error. -/
theorem test_witness_budgets :
    (let s := regs 8 [0, 512 * (slotAt (matrixed (st 13)) 0 0).panelRows, 1, 0, 0] (poor (matrixed (st 13)))
     let t := regs 8 [0, 0, 0x8000, 0] (poor (netted (st 13)))
     let f : FmtX := { x0 with abase := s_ 8, shape := s_ 10 }
     let slot (s : State) (u : Ux) : Slot := slotAt s u.gid 0
     let known (s : State) (u : Ux) : Option NetRec := netKnown s u 0x8000 (slot s u) (slot s u)
     let cost (s : State) (u : Ux) : Option Nat := (known s u).map fun r => netCharge s (s.g u.gid).bid r (slot s u).F
     let p (s : State) (u : Ux) : Bool := let j := jobOf s u 0xDA 3 plcvF
       1 ≤ j.w 2 && decide (j.w 2 ≤ Claims.panelSpace (s.launchOf (s.g u.gid).bid) (j.w 1) (512 * (slot s u).panelRows)) &&
         (slotFault (slot s u) (slot s u).elem).isNone && overBudget s (s.g u.gid).bid (16384 * j.w 2)
     let spoilt := s.setCore 0 { s.core 0 with accEcc := [0] }
     runs s lane (shapeMma x1) (beyond fun s u => mmaCharge x1 false u s) &&
     runs s lane (shapeAcld f) (fun s u => !u.active.isEmpty && overBudget s (s.g u.gid).bid 16384) &&
     runs t lane (shapeNet f) (beyond cost) && runs t lane (shapeNetr { f with abase := z, fn := 4 }) (beyond cost) &&
     runs (regs 8 [0x8000, 0, 1] (poor (netted (st 13)))) lane (shapePlcv plcvF) p &&
     runs spoilt lane (shapeMma x1) (fun s u => !Claims.accSound x1 (Claims.own s u) s) &&
     runs (regs 8 [0, 0, 0x8000, 0] ((netted (st 13)).setLaunch 0 { (netted (st 13)).l 0 with
         words := ((netted (st 13)).l 0).words.set 5 0x00000FFE10A00008 })) lane (shapeNetr { f with abase := z, fn := 4 }) (fun s u =>
       !u.active.isEmpty && !beyond cost s u && !netHeld s u 0x8000 && okE (readNetRec s u 0x8000) fun bs => (netRec bs).ok &&
         (useFault (s.launchOf (s.g u.gid).bid) { o := .v 4, n := (netRec bs).wd 0, align := false }).isSome)) = true := by
  decide +kernel

/-- What a slot holds of the records, tables and pages that an instruction reads at once; and a line with a transaction at hand. -/
theorem test_witness_reads_held :
    (let f : FmtX := { x0 with abase := s_ 8, shape := s_ 10 }
     let net (s : State) : State := holding (regs 8 [0, 0, 0x8000, 0] (netted s))
     let slots (s : State) (u : Ux) : Bool := !u.active.isEmpty && allPass (netSlots f (slotAt s u.gid 0) (slotAt s u.gid 0)) &&
       panelsOk (s.launchOf (s.g u.gid).bid) 0 0 1 (slotAt s u.gid 0) && netHeld s u 0x8000
     let draw (s : State) (record : Bool) : Bool := runs s lane (shapeDrawx dx) (fun s u =>
       let t := drainUnit s u
       let l := t.launchOf (t.g u.gid).bid
       let d := Draw.fresh 0 0 (wordsOf 16 ((vRead t l.ctx sysRead 0x7000 128).getD [])) t.nextLaunch (t.nextLaunch + 1)
       !u.active.isEmpty && drawsInFlight s < 16 && !unitHeld s u && (readFail t l.ctx false 0x7000 128).isNone && d.fieldsOk &&
         d.recordsOk t l.ctx && d.pagesFit t l.ctx && (drawLaunch t l 0x5000).isSome &&
         vHeld t (t.g u.gid).core l.ctx (ownWant t u.gid false) 0x7000 128 == record &&
         (record || vHeld t (t.g u.gid).core l.ctx sysWrite ({ d with leaves := (d.pagesOf t l.ctx).getD [] } : Draw).pbase (16 * d.ntiles)))
     let tracing (s : State) : State :=
       regs 4 [0x4000, 0, 0x8000, 0] (largeTile { putMems s 0x10000004030 [1] with structs := FMap.set [] [] 0x10000004000 [[]] })
     let trace (s : State) (ok : State → Ux → Bool) : Bool :=
       runs s lane (shapeTrace { a1 with dst := .v 32, sa := v 0, sb := d_ 0, sc := s_ 4 }) fun s u => !u.active.isEmpty && ok s u
     let recs (s : State) (ok : State → Ux → Bool) : Bool := [shapeSave { i0 with sa := s_ 8 }, shapeRest { i0 with sa := s_ 8 }].all fun sh =>
       runs s grp sh fun s u => !u.active.isEmpty && (producersWait s u).isNone && ok s u
     let heldRec (s : State) (u : Ux) : Bool := [true, false].any fun w => vHeld (drainUnit s u) (s.g u.gid).core 0 (ownWant s u.gid w) 0x8000
       (recordSize (s.launchOf (s.g u.gid).bid))
     let flush (s : State) (ok : State → Bool) : Bool := runs s lane (shapeCflush { i0 with imm := 2 }) fun s u =>
       !u.active.isEmpty && ok (drainUnit s u)
     let busy (s : State) : State := { s with dir := [(5, { DirLine.idle with st := 4 })] }
     runs (net (st 13)) lane (shapeNet f) slots && runs (net (st 13)) lane (shapeNetr { f with abase := z, fn := 4 }) slots &&
     draw (holding (drawing (st 14))) true && draw ((drawing (st 14)).setLine (lineOf 0x10000100000) { DirLine.idle with st := 4 }) false &&
     trace (waiting (tracing (st 14))) (fun s u => unitHeld s u) &&
     trace (holding (tracing (st 14))) (fun s u => vHeld (drainUnit s u) (s.g u.gid).core 0 (ownWant s u.gid false) 0x4000 64) &&
     recs (waiting (small (st 15))) (fun s u => unitHeld s u) && recs (holding (small (st 15))) heldRec &&
     flush (busy (sys 15)) linesBusy && flush (waiting (sys 15)) memHeld &&
     trapHeld (holding (trapState false 0x9000 0x8000)) 0 && trapHeld (waiting (st 1)) 0 && !trapHeld (st 1) 0) = true := by
  decide +kernel

/-- An index that is poisoned, one outside the tile window, an address that no scatter takes, and indices in a stash; a record of another
state; and rings that do not stand, or hold nothing. -/
theorem test_witness_more_traps :
    (let gath (w : List Nat) (s : State) (ok : State → Ux → Job → Bool) : Bool := runs (regs 8 w s) lane (shapeGath e1) fun s u =>
       !u.active.isEmpty && ok s u (jobOf s u 0xC3 7 e1)
     let w : List Nat := [0x4000, 0, 0x5000, 0, 1, 0, tw]
     let ranged (s : State) (u : Ux) (j : Job) (p : ELoc × Nat → Bool) : Bool := okE (gathIdx s u.gid j) fun ix =>
       okE (planGather false s u.gid { j with args := j.args ++ ix }) fun _ => match engLoc s u.gid (j.addr 5) with
         | some l => p (l, 4 * ix.length)
         | none => false
     let bad (s : State) : State := s.modBc 0 0 fun c => { c with bad := [0] }
     let mapped (s : State) : State := s.modBc 0 0 fun c => { c with stashes := [{ n := 0, tile := 0, va := 0x4000, lines := 1, st := [], pas := [] }] }
     let state1 (s : State) : State := putMems (small s) 0x10000008000 [1]
     gath w (bad (st 12)) (fun s u j => ranged s u j fun x => !rangeStashed s x && rangePoisoned s x) &&
     gath w (mapped (st 12)) (fun s u j => ranged s u j (rangeStashed s)) &&
     gath [0x4000, 0, 0x5000, 0, 1, 0, 0] (st 12) (fun s u j => !okE (gathIdx s u.gid j) fun _ => true) &&
     gath [0x4000, 0x80000000, 0x5000, 0, 1, 0, tw] (st 12) (fun s u j => okE (gathIdx s u.gid j) fun ix =>
       !okE (planGather false s u.gid { j with args := j.args ++ ix }) fun _ => true) &&
     runs (state1 (sys 15)) grp (shapeCtxsw { i0 with sa := s_ 8 }) (fun s u => !u.active.isEmpty && (producersWait s u).isNone &&
       match vRead (drainUnit s u) 0 (ownWant s u.gid false) 0x8000 (recordSize (s.launchOf (s.g u.gid).bid)) with
       | some bs => leVal (bs.take 1) % 8 == 1
       | none => false) &&
     runs (st 11) grp (shapeRput { a0 with sa := k_ 3 }) (fun s u => !u.active.isEmpty && (s.ring (s.g u.gid).bid (s.g u.gid).bcore (s.g u.gid).stage).isNone) &&
     [shapeRget { a0 with dst := .v 4 }, shapeRrel a0].all (fun sh => runs (st 11) grp sh fun s u => !u.active.isEmpty && (takeRing s (s.g u.gid)).isNone) &&
     runs (ringed 1 0 (st 11)) grp (shapeRrel a0) (fun s u => match takeRing s (s.g u.gid) with
       | some (_, r) => !u.active.isEmpty && (r.slot r.xix).st != 2
       | none => false) && (dead (st 1)).host.fatal.isSome) = true := by
  decide +kernel

/-! ### One instruction on a small state: the worked examples of the spec -/

/-- A condition on the state that an instruction answers. -/
def ran (o : Host.Outcome State Fault Refusal) (p : State → Bool) : Bool := match o with
  | .next t => p t
  | .fault _ => false
  | .refused _ => false

/-- Vector register `k` of a lane, and condition register `k` of lane 0. -/
def vAt (t : State) (k lane : Nat) : Nat := (FMap.get 0 (t.g 0).v (32 * k + lane)).toNat
def cAt (t : State) (k : Nat) : Nat := ((t.g 0).creg k 0).toNat

/-- Chapter 13, first example: v2 = 0xFFFFFFF0, v3 = 1, v4 = 32, v9 = 0x7FFFFFF0; then v7 = 2 and v8 = 0x7FFFFFFF. -/
def sums (s : State) : State :=
  s.modGroup 0 fun g => { g with v := [(64, 0xFFFFFFF0), (96, 1), (128, 32), (288, 0x7FFFFFF0)] }

def sum (dst : Nat) (cw : BitVec 3) (a b : Src) (fn : BitVec 30) : FmtA := { dst := .v dst, cw := cw, sa := a, sb := b, sc := z, fn := fn }

theorem test_iadd :
    ran (execIadd lane (sum 6 4 (v 2) (v 4) 1) (sums (st 1))) (fun t => vAt t 6 0 == 0x10 && cAt t 0 == 2 && vAt t 2 0 == 0xFFFFFFF0) =
      true := by
  decide +kernel

theorem test_iaddc :
    ran (execIaddc lane { sum 7 5 (v 3) (v 5) 1 with sc := src false false (.c 0) }
      ((sums (st 1)).modGroup 0 fun g => { g with c := FMap.set 0 [] 0 2 })) (fun t => vAt t 7 0 == 2 && cAt t 1 == 0) = true := by
  decide +kernel

theorem test_iadd_sat :
    ran (execIadd lane (sum 8 6 (v 9) (v 4) 4) (sums (st 1))) (fun t =>
      vAt t 8 0 == 0x7FFFFFFF && cAt t 2 == 1 && (t.g 0).fst == 0) = true := by
  decide +kernel

theorem test_icmp :
    ran (execIcmp lane (sum 10 7 (v 7) (k_ 2) 1) (vreg 7 2 (st 3))) (fun t => vAt t 10 0 == 1 && cAt t 3 == 6) = true := by
  decide +kernel

/-- Chapter 13, second example: a group on core 270, whose tile pointer in generic form is 0xFE87000000012340. -/
def core270 (s : State) : State :=
  (s.modGroup 0 fun g => { g with core := 270 }).setBlock 0 { s.b 0 with cores := (s.b 0).cores.map fun k => { k with core := 270 } }

theorem test_leax :
    ran (execLeax lane { m2 with data := .v 10, off := 0x12340, space := 2 } (core270 (st 2))) (fun t =>
      vAt t 10 5 == 0x00012340 && vAt t 11 5 == 0xFE870000) = true := by
  decide +kernel

/-- Chapter 14: d0 and d1 as the example has them, and the reflection, which lands later. -/
theorem test_drefl :
    ran (execDrefl lane dd ((st 8).modGroup 0 fun g => { g with
      d := (FMap.set 0 (FMap.set 0 [] 0 0x266666333333000000012935) 32 0x000000400000000000008000) })) (fun t =>
        (t.g 0).pend.any fun p => p.writes.contains (.d 2 0, 0x266666CCCCCD000000012935)) = true := by
  decide +kernel

/-- Chapter 14: QSCL of 3.0, -0.7, 12.5 and 0.2, and the codes that CVPK4 packs. -/
def mxs (s : State) : State :=
  slotted 3 0xA0007 (s.modGroup 0 fun g => { g with v :=
    [(256, 0x40400000), (288, 0xBF333333), (320, 0x41480000), (352, 0x3E4CCCCD)] })

theorem test_qscl :
    ran (execQscl grp { a1 with dst := .v 12, sa := v 8, fn := 920 } (mxs (st 6))) (fun t =>
      vAt t 12 0 == 0x80 && vAt t 12 7 == 0x80 && vAt t 12 8 == 0) = true := by
  decide +kernel

theorem test_cvpk4 :
    ran (execCvpk4 lane { a1 with dst := .v 13, sa := v 8, sc := v 12, fn := 24 } (vreg 12 0x80 (mxs (st 6)))) (fun t =>
      vAt t 13 0 == 0x793 && vAt t 13 1 == 0 && (t.g 0).fst == 16) = true := by
  decide +kernel

/-- R384, R372: 3 - 5 borrows, so C = 0; 7 * 7 + 1 = 50. -/
theorem test_isub : ran (execIsub lane (sum 4 4 (k_ 3) (k_ 5) 1) (st 1)) (fun t => vAt t 4 0 == 0xFFFFFFFE && cAt t 0 == 8) = true := by
  decide +kernel

theorem test_imad :
    ran (execImad lane { sum 4 0 (k_ 7) (k_ 7) 1 with sc := k_ 1 } (st 1)) (fun t => vAt t 4 31 == 50) = true := by
  decide +kernel

/-- R392: a shift by the width gives 0, and the last bit shifted out as C. -/
theorem test_shl : ran (execShl lane (sum 4 4 (k_ 1) (k_ 31) 1) (st 3)) (fun t => vAt t 4 0 == 0x80000000 && cAt t 0 == 8) = true := by
  decide +kernel

/-- R409: 1 + 1 = 2 in FP32. -/
theorem test_fadd :
    ran (execFadd lane { a2 with sa := v 2, sb := v 2 } (vreg 2 0x3F800000 (st 4))) (fun t => vAt t 4 0 == 0x40000000) = true := by
  decide +kernel

/-- R439: a store waits in its group's queue with its bytes, the least significant first. -/
theorem test_st :
    ran (execSt lane ms (regs 4 [0x04030201] (st 9))) (fun t =>
      (t.g 0).sq == [{ loc := .phys 0x10000004000, bytes := [1, 2, 3, 4] }] && physByte t 0x10000004000 == 0) = true := by
  decide +kernel

/-- R314, R315: TRAP with a handler at 0x9000 enters it, and its frame holds the PC of the next instruction's group start. -/
theorem test_trap :
    ran (execTrap lane { i1 with dst := .zr, sa := z, imm := 5 } ({ trapState false 0x9000 0x8000 with cur := some (0, 255) })) (fun t =>
      (t.g 0).sys && (t.g 0).pc 3 == 0x9000 && !(t.g 0).held.isNone) = true := by
  decide +kernel

/-- R385, R312: a division by zero without a handler stops the launch with cause 2.2. -/
theorem test_idiv_by_zero :
    ran (execIdiv lane { a1 with sb := z } (st 1)) (fun t => (t.l 0).faulted && (t.l 0).cause == 66) = true := by
  decide +kernel

/-- R281: a queue drains its oldest store, and memory holds its bytes. -/
theorem test_drain :
    ran (execStoreQueueDrain 0 (((st 9).setLine (lineOf 0x10000004000) { DirLine.idle with st := 3, owner := 0 }).modGroup 0 fun g => { g with sq := [{ loc := .phys 0x10000004000, bytes := [1, 2] }] })) (fun t =>
      physByte t 0x10000004000 == 1 && physByte t 0x10000004001 == 2 && (t.g 0).sq.isEmpty) = true := by
  decide +kernel

/-! ### Well-formedness: each check refuses a term that breaks it -/

def badReg : List Opnd := [.v 256, .s 160, .spec 32, .t 8, .d 16, .c 4, .imm 32, .imm (-33), .rsvd 0]

theorem test_wf_operands : badReg.all (fun o => !o.wf) = true ∧ (Opnd.zr).wf = true := by
  decide +kernel

theorem test_wf_formats :
    badReg.all (fun o =>
      let x := src false false o
      !(Instr.iadd lane { a2 with dst := o }).wf && !(Instr.iadd lane { a2 with sa := x }).wf && !(Instr.iadd lane { a2 with sb := x }).wf &&
      !(Instr.iadd lane { a2 with sc := x }).wf && !(Instr.iaddi lane { i1 with dst := o }).wf && !(Instr.iaddi lane { i1 with sa := x }).wf &&
      !(Instr.ld lane { m1 with data := o }).wf && !(Instr.ld lane { m1 with base := x }).wf && !(Instr.ld lane { m1 with index := x }).wf &&
      !(Instr.bra lane { b1 with await := [o, .zr, .zr, .zr] }).wf && !(Instr.cpy lane { e1 with desc := o }).wf &&
      !(Instr.cpy lane { e1 with sa := x }).wf && !(Instr.cpy lane { e1 with sb := x }).wf && !(Instr.mma lane { x1 with abase := x }).wf &&
      !(Instr.mma lane { x1 with bbase := x }).wf && !(Instr.mma lane { x1 with shape := x }).wf &&
      !(Instr.colo lane { c1 with await := o :: List.replicate 6 .zr }).wf) = true := by
  decide +kernel

theorem test_wf_lists :
    ((Instr.bra lane { b1 with await := [.zr] }).wf, (Instr.colo lane { c1 with await := [.zr] }).wf, (Instr.bra lane b1).wf,
      (Instr.colo lane c1).wf) = (false, false, true, true) := by
  decide +kernel

/-- The function bit that tells two rows of the opcode table apart. -/
theorem test_wf_rows :
    ([Instr.stashMap lane { e1 with fn := 1 }, .stashUnmap lane e1, .mpairBind lane i0, .mpairRel lane { i0 with imm := 1 },
      .bldfOpen lane { e1 with fn := 1 }, .bldfAdd lane e1].all fun i => !i.wf) = true := by
  decide +kernel

/-- Indices of the host and the device beyond what exists. -/
theorem test_wf_steps :
    ([Instr.doorbell 128 0, .registerWrite 0 9 0, .bootStageVerify 5 [] [], .uncorrectableMemoryError 32 0 0, .uncorrectableMemoryError 4 0 (2 ^ 14),
      .phaseLoss 26 1, .dieLinkModuleOff 9 0 0, .dieLinkModuleOff 0 9 0, .dieLinkModuleOff 0 1 4, .dieOfflineRequest 9 1,
      .dieOfflineRequest 0 6, .pageMigrate 0 256 0 0, .lSlotAnnounce (2 ^ 32) 1, .lSlotAnnounce 0 2001, .clusterSlotOpen 96,
      .issueArbitration 384 0, .issueArbitration 0 4, .operandBeatArrive 0 4, .segmentWakeComplete 0 16, .bucketMove 4096 0,
      .bucketMove 0 96, .l2WayDisable 0 17, .upgrade 9 0, .registerEccError 0 552 0 false, .readShared 9 0 none, .registerEccError 0 0 32 false,
      .tileAssign 0 65536 0, .childRayTrace 0 32].all fun i => !i.wf) = true := by
  decide +kernel

end Sys2Proof.Tests
end

section
/-!
PROOFS. Memory and module reset (R15, R27, R33, R37, R40, R68, R74, R102, R152, R267).
-/

namespace Sys2Proof.Machine

/-! ### Bytes of physical memory -/

/-- Outside the register window a byte reads what memory holds. -/
theorem physByte_of_not_window {s : State} {a : Nat} (h : isWindow a = false) : physByte s a = FMap.get (0 : Byte) s.mem a := by
  simp [physByte, h]

/-- Inside the register window a byte reads a register. -/
theorem physByte_of_window {s : State} {a : Nat} (h : isWindow a = true) : physByte s a = windowByte s (a - 0xFFF0000000000) := by
  rw [physByte, if_pos h]

/-- What every address reads after a run of bytes in memory. -/
theorem physByte_putMems (s : State) (pa : Nat) (bs : List Byte) (a : Nat) (hm : Memory.wf s = true) :
    physByte (putMems s pa bs) a =
      if isWindow a = false ∧ pa ≤ a ∧ a < pa + bs.length then bs.getD (a - pa) 0 else physByte s a := by
  cases ha : isWindow a with
  | true =>
    obtain ⟨m, k, hp⟩ := putMems_eq bs s pa
    rw [if_neg (by simp), physByte_of_window ha, physByte_of_window ha]
    exact windowByte_congr (by rw [hp]) (by rw [hp]) _
  | false =>
    rw [physByte_of_not_window ha, physByte_of_not_window ha, putMems_get bs s pa a hm]
    simp only [true_and]

/-- What every address reads after a write outside the register window. -/
theorem physByte_writePhys (s : State) (pa : Nat) (bs : List Byte) (b c a : Nat) (hm : Memory.wf s = true)
    (hw : isWindow pa = false) :
    physByte (writePhys s pa bs b c) a =
      if isWindow a = false ∧ pa ≤ a ∧ a < pa + bs.length then bs.getD (a - pa) 0 else physByte s a := by
  obtain ⟨bl, d, e⟩ := writePhys_eq s bs b c hw
  have hs : physByte { s with blocks := bl, dir := d } a = physByte s a := physByte_congr (by rfl) (by rfl) (by rfl) a
  rw [e, physByte_putMems { s with blocks := bl, dir := d } pa bs a hm, hs]

/-- Settles O45: a write claims its lines and puts its bytes one by one into the canonical map. -/
theorem memoryHoldsWrites : Obligations.MemoryHoldsWrites := by
  unfold Obligations.MemoryHoldsWrites
  refine ⟨reset_wf, fun s pa bs b c hm hw => ⟨writePhys_wf s pa bs b c hm, fun a => ?_⟩⟩
  exact physByte_writePhys s pa bs b c a hm hw

/-! ### Module reset -/

@[simp] theorem die_reset (d : Nat) : State.reset.die d = DieRec.reset := rfl
@[simp] theorem rail_reset (k : Nat) : State.reset.rail k = Rail.reset := rfl
@[simp] theorem cluster_reset (c : Nat) : State.reset.cluster c = Cluster.reset := rfl
@[simp] theorem core_reset (c : Nat) : State.reset.core c = Core.reset := rfl

/-- The queue registers after a module reset (R68). -/
theorem queueWord_reset (n : Nat) : (List.range 8).map (queueWord State.reset n) = [0, 0x304, 0, 0, 0, 4, 0, 0] := by
  have h : ∀ w, queueWord State.reset n w = queueWord State.reset 0 w := fun _ => rfl
  simp only [funext h]
  decide

/-- The state of a die after a module reset: ONLINE, with nothing counted (R27). -/
theorem dstatWord_reset (d : Nat) : dstatWord (State.reset.die d) = 0 := by
  rw [die_reset]
  decide

/-- The rails after a module reset: twelve phases, the highest cap, no derating (R40). -/
theorem railWord_reset (k : Nat) : railWord State.reset k = 0xC * 2 ^ 24 + 3 * 2 ^ 20 + 12 * phaseShare k := by
  have hp : phsOf Rail.reset = 12 := rfl
  have hc : capOf 12 = 3 := rfl
  rw [railWord, rail_reset, ilimOf, hp, hc, Nat.mul_comm (phaseShare k)]
  simp [Rail.reset, b2n]

/-- Every bucket selects the slice of its number mod 96 after a module reset (R267). -/
theorem sliceOf_reset (b : Nat) : sliceOf State.reset b = b % 96 := rfl

/-- Settles O39: every sparse map is empty after a reset and reads its default. -/
theorem resetValues : Obligations.ResetValues := by
  unfold Obligations.ResetValues
  refine ⟨queueWord_reset, dstatWord_reset, railWord_reset, fun c => ?_, fun c => ?_, sliceOf_reset, rfl, rfl, rfl, rfl, rfl, rfl⟩
  · rw [cluster_reset]
    exact ⟨rfl, rfl, rfl, rfl⟩
  · rw [core_reset]
    rfl

end Sys2Proof.Machine
end

section
/-!
PROOFS. Steps of what works while no fatal error stands: the engines, home agents, sequencers and distributors (R82).
-/

namespace Sys2Proof.Machine

open Sys2Proof.Claims

/-- A step of what stands still after a fatal error. -/
def IsWorking (i : Instr) : Prop := ∀ s, ∃ o, exec i s = working s o

/-- Such a step changes nothing after a fatal error. -/
theorem IsWorking.still {i : Instr} (h : IsWorking i) : Answers i (fun s => s.host.fatal ≠ none) id := fun s hf => by
  obtain ⟨o, ho⟩ := h s
  rw [ho, working_fatal hf]
  rfl

/-- While none stands it answers what its own rule does. -/
theorem works_of_working {i : Instr} {ok : State → Prop} {e : State → State} {o : State → Host.Outcome State Fault Refusal}
    (hx : ∀ s, exec i s = working s (o s)) (h : ∀ s, ok s → o s = .next (e s)) : Works i ok e := fun s ⟨hf, hok⟩ => by
  rw [hx, working_runs hf, h s hok]

/-- Every step of an engine, a home agent, a sequencer or a distributor is one that stands still (R82). -/
theorem standsStill : StandsStill := by
  intro a b c v tag yes l ps near rays i hi
  refine IsWorking.still ?_
  fin_cases hi <;> exact fun _ => ⟨_, rfl⟩

end Sys2Proof.Machine
end

section
/-!
PROOFS. RDMA accesses, memory and register errors, lost phases and link modules (R17, R21, R40 to R42, R50, R64 to R66, R311, R319).
-/

namespace Sys2Proof.Machine

open Sys2Proof.Claims

/-! ### RDMA -/

/-- A request that nothing holds, and behind no other of its connection, is performed. -/
theorem takeRdma_runs {s : State} {r : RdmaIn} (hc : ∀ x ∈ s.host.inbound, x.conn ≠ r.conn)
    (hm : memBusy s = true → ∀ l, r.parts = some l → ∀ p ∈ l, isWindow p.1 = true) : takeRdma s r = performRdma s r := by
  have h1 : s.host.inbound.any (fun x => x.conn == r.conn) = false := by simpa using hc
  unfold takeRdma
  refine if_neg ?_
  simp only [h1, Bool.or_false, Bool.and_eq_true, not_and]
  intro hb
  cases hp : r.parts with
  | none => simp
  | some l => simpa using hm hb l hp

/-- A request behind another of its connection, or one that memory holds, waits. -/
theorem takeRdma_waits {s : State} {r : RdmaIn} (h : (¬ ∀ x ∈ s.host.inbound, x.conn ≠ r.conn) ∨
      (memBusy s = true ∧ ∃ l, r.parts = some l ∧ ∃ p ∈ l, isWindow p.1 = false)) :
    takeRdma s r = { s with host := { s.host with inbound := s.host.inbound ++ [r] } } := by
  unfold takeRdma
  refine if_pos ?_
  obtain h | ⟨hb, l, hl, p, hp, hw⟩ := h
  · simp only [ne_eq, not_forall, not_not] at h
    obtain ⟨x, hx, hr⟩ := h
    have : s.host.inbound.any (fun x => x.conn == r.conn) = true := List.any_eq_true.mpr ⟨x, hx, by simp [hr]⟩
    simp [this]
  · have : (l.any fun p => !isWindow p.1) = true := List.any_eq_true.mpr ⟨p, hp, by simp [hw]⟩
    simp [hb, hl, this]

/-- A request that no access may serve is refused. -/
theorem performRdma_nak {s : State} {r : RdmaIn} (h : r.parts = none) : performRdma s r = sendReply s (.nak r.conn) := by
  simp [performRdma, h]

/-- A WRITE whose parts are powered writes them. -/
theorem performRdma_write {s : State} {r : RdmaIn} {l : List (Nat × Nat)} {bs : List Byte} (h : r.parts = some l)
    (hd : ∀ p ∈ l, isDark s p.1 = false) (hb : r.data = some bs) :
    performRdma s r = sendReply (writeParts s l bs) (.ack r.conn) := by
  have : (l.any fun p => isDark s p.1) = false := by simpa using hd
  simp [performRdma, h, hb, this]

/-- A READ whose parts are powered reads them. -/
theorem performRdma_read {s : State} {r : RdmaIn} {l : List (Nat × Nat)} (h : r.parts = some l)
    (hd : ∀ p ∈ l, isDark s p.1 = false) (hb : r.data = none) :
    performRdma s r = sendReply s (.data r.conn (l.flatMap fun p => physBytes s p.1 p.2)) := by
  have : (l.any fun p => isDark s p.1) = false := by simpa using hd
  simp [performRdma, h, hb, this]

/-- A connection without a request that waits has no READ that waits. -/
theorem readsWaiting_clear {s : State} {conn : Nat} (h : ∀ r ∈ s.host.inbound, r.conn ≠ conn) : readsWaiting s conn = 0 := by
  unfold readsWaiting
  rw [List.length_eq_zero_iff, List.filter_eq_nil_iff]
  intro r hr
  simp [h r hr]

theorem execRdmaWrite_up {s : State} {conn : Nat} {key : BitVec 32} {addr : BitVec 64} {data : List (BitVec 8)}
    (h : portUp s conn = true) : execRdmaWrite conn key addr data s =
      .next (takeRdma s { conn := conn, parts := rdmaTarget s key addr.toNat data.length true, data := some data }) := by
  simp [execRdmaWrite, h]

theorem execRdmaRead_up {s : State} {conn : Nat} {key : BitVec 32} {addr : BitVec 64} {len : Nat}
    (h : portUp s conn = true) (hr : readsWaiting s conn < 16) : execRdmaRead conn key addr len s =
      .next (takeRdma s { conn := conn, parts := rdmaTarget s key addr.toNat len false, data := none }) := by
  have : ¬ 16 ≤ readsWaiting s conn := by omega
  simp [execRdmaRead, h, this]

/-! ### Memory errors -/

theorem errorPlace_unit {unit line : Nat} (h : line < 2 ^ 14) : errorPlace unit line / 2 ^ 14 = unit := by
  unfold errorPlace; omega

theorem errorPlace_block {unit line : Nat} (h : line < 2 ^ 14) : errorPlace unit line / 2 ^ 18 = unit / 16 := by
  unfold errorPlace; omega

theorem errorPlace_line {unit line : Nat} (h : line < 2 ^ 14) : errorPlace unit line % 2 ^ 14 = line := by
  unfold errorPlace; omega

theorem homeDie_hbm {pa : Nat} (h : isHbm pa = true) : homeDie pa = pa / 0x1000000000 := by
  have hlt : pa < 0x8000000000 := by simpa [isHbm] using h
  have : pa / 0x1000000000 < 8 := by omega
  simp only [homeDie, homeAgent, h, if_true, this]

theorem homeDie_lp {pa : Nat} (h : isLp pa = true) : homeDie pa = 8 := by
  have hle : 0x10000000000 ≤ pa ∧ pa < 0x20000000000 := by simpa [isLp] using h
  have : isHbm pa = false := by simp [isHbm]; omega
  simp [homeDie, homeAgent, this]

/-- What an error leaves in a place of memory, and who hears of it. -/
theorem execUncorrectableMemoryError_on {s : State} {detail unit line die : Nat}
    (h : errorDie s detail (errorPlace unit line) = some die) :
    let s2 := sendCheck (poisonPlace s detail (errorPlace unit line)) (352 + detail) die (leBytes 8 (128 * errorPlace unit line))
    execUncorrectableMemoryError detail unit line s =
      .next (if detail == 11 || Config.checkIsFatal (352 + detail) then fatalError s2 (352 + detail) else s2) := by
  simp only [execUncorrectableMemoryError, h]

/-! ### Register errors -/

/-- A register error as the core logs and counts it (R319). -/
def loggedEcc (code lane : Nat) (bad : Bool) (g : Group) (s : State) : State :=
  countErr (s.setCore g.core { s.core g.core with
    ecclog := BitVec.ofNat 64 (code + lane * 2 ^ 10 + b2n bad * 2 ^ 15 + g.slot * 2 ^ 16) }) g.core (b2n bad)

/-- A cell of a group holds an uncorrectable error. -/
def markedEcc (key gid : Nat) (s : State) : State := s.modGroup gid fun g => { g with ecc := NSet.add g.ecc key }

/-- The twin of a thread, in a dispatched group or its home, has the error too. -/
def markedTwin (code gid lane : Nat) (s : State) : State :=
  match twinOf s gid lane with
  | none => s
  | some (h, k) => markedEcc (32 * code + k) h s

section
variable {s : State} {gid code lane : Nat} {g : Group}

theorem markedTwin_none (h : twinOf s gid lane = none) : markedTwin code gid lane s = s := by
  simp only [markedTwin, h]

theorem markedTwin_some {h k : Nat} (ht : twinOf s gid lane = some (h, k)) :
    markedTwin code gid lane s = markedEcc (32 * code + k) h s := by
  simp only [markedTwin, ht]

/-- A correctable error of a register is logged alone. -/
theorem execRegisterEccError_correctable (hg : s.group gid = some g) (hc : code < 416 ∨ (512 ≤ code ∧ code < 548)) (hl : lane < 32) :
    execRegisterEccError gid code lane false s = .next (loggedEcc code lane false g s) := by
  have h1 : ¬ ((!eccCode code || decide (32 ≤ lane)) = true) := by simp [eccCode]; omega
  have h2 : ¬ 548 ≤ code := by omega
  simp only [execRegisterEccError, hg, if_neg h1, if_neg h2]
  rfl

/-- An uncorrectable error of a scalar register has one cell. -/
theorem execRegisterEccError_scalar (hg : s.group gid = some g) (h0 : 256 ≤ code) (h1 : code < 416) (hl : lane < 32) :
    execRegisterEccError gid code lane true s = .next (markedEcc (32 * code) gid (loggedEcc code lane true g s)) := by
  have h2 : ¬ ((!eccCode code || decide (32 ≤ lane)) = true) := by simp [eccCode]; omega
  have h3 : ¬ 548 ≤ code := by omega
  have h4 : (decide (256 ≤ code) && decide (code < 416)) = true := by simp; omega
  have h5 : (decide (256 ≤ code) && decide (code < 512)) = true := by simp; omega
  simp only [execRegisterEccError, hg, if_neg h2, if_neg h3, h4, h5, if_true]
  rfl

/-- An uncorrectable error of a lane's register has the cell of its lane, and its twin's. -/
theorem execRegisterEccError_lane (hg : s.group gid = some g) (hc : code < 256 ∨ (512 ≤ code ∧ code < 548)) (hl : lane < 32) :
    execRegisterEccError gid code lane true s =
      .next (markedTwin code gid lane (markedEcc (32 * code + lane) gid (loggedEcc code lane true g s))) := by
  have h2 : ¬ ((!eccCode code || decide (32 ≤ lane)) = true) := by simp [eccCode]; omega
  have h3 : ¬ 548 ≤ code := by omega
  have h4 : ¬ ((decide (256 ≤ code) && decide (code < 416)) = true) := by simp; omega
  have h5 : ¬ ((decide (256 ≤ code) && decide (code < 512)) = true) := by simp; omega
  simp only [execRegisterEccError, hg, if_neg h2, if_neg h3, if_neg h4, if_neg h5, markedTwin, markedEcc, loggedEcc]
  generalize twinOf _ gid lane = x
  cases x with
  | none => rfl
  | some x => rfl

/-- An error of an accumulator has no register code. -/
theorem execRegisterEccError_acc {acc : Nat} {bad : Bool} (hg : s.group gid = some g) (ha : acc < 4) (hl : lane < 32) :
    execRegisterEccError gid (548 + acc) lane bad s = .next (accEccError s g.core acc bad) := by
  have h1 : ¬ ((!eccCode (548 + acc) || decide (32 ≤ lane)) = true) := by simp [eccCode]; omega
  simp only [execRegisterEccError, hg, if_neg h1, if_pos (Nat.le_add_right 548 acc), Nat.add_sub_cancel_left]

end

/-! ### Lost phases and link modules -/

/-- A rail less some phases. -/
def lostPhases (count : Nat) (r : Rail) : Rail := { drt := true, lost := min 12 (r.lost + count) }

/-- A rail has lost phases, and the host hears of it (R41, R79). -/
def derated (k count : Nat) (s : State) : State :=
  sendModule { s with pkg := { s.pkg with rails := FMap.set Rail.reset s.pkg.rails k (lostPhases count (s.rail k)) } } 3
    (derateBody k (s.rail k) (lostPhases count (s.rail k)))

section
variable {s : State} {k count : Nat}

/-- A rail without phases loses none. -/
theorem execPhaseLoss_none (h : (s.rail k).lost = 12) : execPhaseLoss k count s = .next s := by
  have : (Nat.min 12 ((s.rail k).lost + count) == (s.rail k).lost) = true := by
    rw [h, beq_iff_eq]; exact Nat.min_eq_left (by omega)
  simp only [execPhaseLoss, this, Bool.or_true, if_true]

/-- Another loses phases. -/
theorem losesPhases (hk : k < 26) (hc : 0 < count) (h : (s.rail k).lost < 12) :
    ¬ ((decide (26 ≤ k) || count == 0 || Nat.min 12 ((s.rail k).lost + count) == (s.rail k).lost) = true) := by
  have : Nat.min 12 ((s.rail k).lost + count) ≠ (s.rail k).lost := by
    change min 12 ((s.rail k).lost + count) ≠ _
    omega
  simp only [Bool.or_eq_true, decide_eq_true_eq, beq_iff_eq]
  omega

/-- A rail of a die lowers its clusters, and with too few phases takes the die offline (R41, R42). -/
theorem execPhaseLoss_die {d : Nat} (hk : k < 26) (hc : 0 < count) (h : (s.rail k).lost < 12) (hd : railDie k = some d) :
    let s4 := (List.range 12).foldl (fun st j => forceCap st (12 * d + j))
      (suspendBounds (derated k count s) (launchOnDie (derated k count s) d) 1)
    execPhaseLoss k count s = .next
      (if phsOf (lostPhases count (s.rail k)) < 4 then requestDie s4 { die := d, online := false, reason := 5 } else s4) := by
  simp only [execPhaseLoss, if_neg (losesPhases hk hc h), hd]
  rfl

/-- A rail of the FE die is fatal with too few phases (R42). -/
theorem execPhaseLoss_fe (hk : k < 26) (hc : 0 < count) (h : (s.rail k).lost < 12) (hd : railDie k = none) :
    execPhaseLoss k count s = .next
      (if phsOf (lostPhases count (s.rail k)) < 4 then
        fatalError { derated k count s with free := (derated k count s).free + 1 } (0x160 + (Config.freeWord s.free).toNat % 12)
      else derated k count s) := by
  simp only [execPhaseLoss, if_neg (losesPhases hk hc h), hd]
  rfl

end

/-- A module that goes off within an L slot (R21, R22, R56). -/
theorem execDieLinkModuleOff_on {s : State} {a b m : Nat} (hab : a < b) (hm : m < linkModules a b) (h : moduleOff s a b m = false)
    (hL : ∃ x ∈ s.pkg.slots, x.kind = 3) :
    let s1 := { s with pkg := { s.pkg with
      modsOff := NSet.add s.pkg.modsOff (1000 * a + 100 * b + m)
      modsHalf := NSet.del s.pkg.modsHalf (1000 * a + 100 * b + m), modDue := true } }
    let s2 := suspendBounds (sendCheck s1 0x168 a (leBytes 2 a ++ leBytes 2 b ++ leBytes 2 m)) (fun _ => true) 4
    execDieLinkModuleOff a b m s =
      .next (if b = 8 ∧ feLost s2 a = true then requestDie s2 { die := a, online := false, reason := 4 } else s2) := by
  have hs : (s.pkg.slots.any fun x => x.kind == 3) = true := by
    obtain ⟨x, hx, hk⟩ := hL
    exact List.any_eq_true.mpr ⟨x, hx, by simp [hk]⟩
  have h1 : ¬ ((decide (b ≤ a) || decide (linkModules a b ≤ m) || moduleOff s a b m ||
      !(s.pkg.slots.any fun x => x.kind == 3)) = true) := by
    simp only [hs, h, Bool.or_eq_true, decide_eq_true_eq, Bool.not_true, Bool.false_eq_true, or_false]
    omega
  intro s1 s2
  simp only [execDieLinkModuleOff, if_neg h1, Bool.and_eq_true, beq_iff_eq]
  exact (apply_ite Host.Outcome.next _ _ _).symm

/-- Settles O55: each clause is the rule of its step where the clause's condition decides the step's tests. -/
theorem hostAccessAndErrors : Obligations.HostAccessAndErrors := by
  unfold Obligations.HostAccessAndErrors
  intro clear classed done behind waits rail derated capped ecc mark
  refine ⟨standsStill, ?_, ?_, ?_, ?_, ?_, ?_, ?_, ?_, ?_, ?_, ?_, ?_, ?_, ?_, ?_, ?_, ?_, ?_, ?_, ?_, ?_, ?_, ?_, ?_⟩
  · intro conn key addr data l s ⟨hu, hc, ht, hd, hw⟩
    refine (execRdmaWrite_up hu).trans ?_
    rw [ht, takeRdma_runs hc (by simpa using hw), performRdma_write rfl hd rfl]
  · intro conn key addr data s ⟨hu, hc, ht⟩
    refine (execRdmaWrite_up hu).trans ?_
    rw [ht, takeRdma_runs hc (by simp), performRdma_nak rfl]
  · intro conn key addr len l s ⟨hu, hc, ht, hd, hw⟩
    refine (execRdmaRead_up hu (by rw [readsWaiting_clear hc]; decide)).trans ?_
    rw [ht, takeRdma_runs hc (by simpa using hw), performRdma_read rfl hd rfl]
  · intro conn key addr len s ⟨hu, hc, ht⟩
    refine (execRdmaRead_up hu (by rw [readsWaiting_clear hc]; decide)).trans ?_
    rw [ht, takeRdma_runs hc (by simp), performRdma_nak rfl]
  · intro conn key addr data l s ⟨hu, ht, hb⟩
    refine (execRdmaWrite_up hu).trans ?_
    rw [ht, takeRdma_waits hb]
  · intro conn key addr len l s ⟨hu, hr, ht, hb⟩
    refine (execRdmaRead_up hu hr).trans ?_
    rw [ht, takeRdma_waits hb]
  · intro conn key addr len s hr
    exact if_pos (by simp [hr])
  · intro conn data s hu
    exact if_pos hu
  · intro conn s hu
    exact if_neg (by simp [hu])
  · intro mask s _
    rfl
  · intro s _
    rfl
  · intro stage image sig hst s hb
    have h4 : ¬ 4 < stage := by omega
    show execBootStageVerify stage image sig s = _
    cases hv : Config.signatureValid image sig <;> simp [execBootStageVerify, h4, hb, hv]
  · intro cause s _
    show execFatalError cause s = _
    simp only [execFatalError, within, Bool.and_eq_true, decide_eq_true_eq]
  · intro detail unit line die hd s he
    refine (execUncorrectableMemoryError_on he).trans ?_
    obtain rfl | rfl | rfl | rfl := hd <;> rfl
  · intro unit line die hl s he
    refine (execUncorrectableMemoryError_on he).trans ?_
    simp only [poisonPlace, errorPlace_block hl, errorPlace_unit hl, errorPlace_line hl]
    rfl
  · intro unit line s _
    have hd : errorDie s 11 (errorPlace unit line) = some 8 := rfl
    exact (execUncorrectableMemoryError_on hd).trans (congrArg _ (if_pos rfl))
  · intro s line
    refine ⟨fun h => ?_, fun h => ?_, fun h => ?_⟩
    · simp [errorDie, h, homeDie_hbm h]
    · simp [errorDie, h, homeDie_lp h]
    · simp [errorDie, h]
  · intro k count s h
    exact execPhaseLoss_none h
  · intro k count hk hc
    refine ⟨fun d hd => ⟨fun s ⟨hl, hp⟩ => ?_, fun s ⟨hl, hp⟩ => ?_⟩, fun hd => ⟨fun s ⟨hl, hp⟩ => ?_, fun s ⟨hl, hp⟩ => ?_⟩⟩
    · exact (execPhaseLoss_die hk hc hl hd).trans (congrArg _ (if_neg (Nat.not_lt.mpr hp)))
    · exact (execPhaseLoss_die hk hc hl hd).trans (congrArg _ (if_pos hp))
    · exact (execPhaseLoss_fe hk hc hl hd).trans (congrArg _ (if_neg (Nat.not_lt.mpr hp)))
    · exact (execPhaseLoss_fe hk hc hl hd).trans (congrArg _ (if_pos hp))
  · intro a b m hab hm s ⟨ho, hL⟩
    exact execDieLinkModuleOff_on hab hm ho hL
  · intro gid code lane g hc hl s hg
    exact execRegisterEccError_correctable hg hc hl
  · intro gid code lane g h0 h1 hl s hg
    exact execRegisterEccError_scalar hg h0 h1 hl
  · intro gid code lane g hc hl s1
    refine ⟨fun s ⟨hg, ht⟩ => ?_, fun h k s ⟨hg, ht⟩ => ?_⟩ <;> refine (execRegisterEccError_lane hg hc hl).trans ?_
    · exact congrArg Host.Outcome.next (markedTwin_none ht)
    · exact congrArg Host.Outcome.next (markedTwin_some ht)
  · intro gid acc lane g bad ha hl s hg
    exact execRegisterEccError_acc hg ha hl

end Sys2Proof.Machine
end

section
/-!
PROOFS. Hot-plug of dies, and the pages, buckets, ways and segments that move (R22, R28 to R34, R267 to R276, R401).
-/

namespace Sys2Proof.Machine

open Sys2Proof.Claims

/-- The oldest request begins, or its die returns to where it was, or it goes without effect (R31). -/
theorem execPendingTransitionStart_runs {s : State} {r : DieReq} {rest : List DieReq} (hf : s.host.fatal = none)
    (hr : s.pkg.requests = r :: rest) (hm : anyMoving s = false) :
    let s1 := { s with pkg := { s.pkg with requests := rest } }
    let d := s.die r.die
    let was := if d.st = 8 then d.prev else d.st
    execPendingTransitionStart s = .next (if allowed s1 r was = true then startRequest s1 r
      else if d.st = 8 ∧ ∀ x ∈ rest, x.die ≠ r.die then toState s1 r.die was 0
      else s1) := by
  intro s1 d was
  rw [execPendingTransitionStart, working_runs hf]
  simp only [hr, hm, Bool.false_eq_true, if_false]
  have hw : (if (s.die r.die).st == 8 then (s.die r.die).prev else (s.die r.die).st) = was := by simp [was, d]
  rw [hw]
  split
  · rfl
  · by_cases hd : d.st = 8 ∧ ∀ x ∈ rest, x.die ≠ r.die
    · rw [if_pos hd, if_neg (by simpa using hd)]
    · rw [if_neg hd, if_pos (by by_contra h; exact hd (by simpa using h))]

/-- Settles O56: the condition of each clause decides the tests of its step. -/
theorem diesPagesAndBuckets : Obligations.DiesPagesAndBuckets := by
  unfold Obligations.DiesPagesAndBuckets
  refine ⟨?_, ?_, ?_, ?_, ?_, ?_, ?_, ?_, ?_, ?_, ?_, ?_, ?_, ?_⟩
  · intro die reason h1 h5 s _
    exact if_pos (by simp [within, h1, h5])
  · intro die s _
    rfl
  · intro r rest
    exact fun s ⟨hf, hr, hm⟩ => execPendingTransitionStart_runs hf hr hm
  · intro s r ho hl st
    simp [allowed, ho, hl]
  · intro die hd
    refine works_of_working (fun _ => rfl) fun s ⟨hst, hb⟩ => ?_
    exact if_pos (by simp [hd, hst, hb])
  · intro die ctx va pa pfn
    refine works_of_working (fun _ => rfl) fun s ⟨hst, hm, hf, ha, hfree⟩ => ?_
    simp [hst, hm, hf, ha, hfree]
  · intro die hd
    refine works_of_working (fun _ => rfl) fun s ⟨hst, hfr, ht⟩ => ?_
    have ht' : (s.tlb.any fun e => inStackOf die e.pfn) = false := by simpa using ht
    exact if_pos (by simp [hd, hst, hfr, ht'])
  · intro die hd
    refine works_of_working (fun _ => rfl) fun s ⟨hst, hdue, hs⟩ => ?_
    exact if_pos (by simpa [hd, hst, hdue] using hs)
  · intro die trained
    refine works_of_working (fun _ => rfl) fun s ⟨hw, hL⟩ => ?_
    have hL' : (s.pkg.slots.any fun x => x.kind == 3) = true := by simpa using hL
    simp [hw, hL']
  · intro die hd
    refine works_of_working (fun _ => rfl) fun s ⟨hst, hs⟩ => ?_
    exact if_pos (by simpa [hd, hst, imp_iff_not_or] using hs)
  · intro ctx va
    refine works_of_working (fun _ => rfl) fun s hm => ?_
    simp [hm]
  · intro core seg hc hs
    refine works_of_working (fun _ => rfl) fun s ⟨ha, hf⟩ => ?_
    exact if_neg (by simp; omega)
  · intro bucket slice hb
    refine works_of_working (fun _ => rfl) fun s ⟨hu, hm⟩ => ?_
    simp [hu, hm, hb]
  · intro slice ways hs hw s hm
    exact if_neg (by simp [hm]; omega)

end Sys2Proof.Machine
end

section
/-!
PROOFS. Frames, maintenance slots, and what a cluster does at its own times (R44 to R61, R111 to R120).
-/

namespace Sys2Proof.Machine

open Sys2Proof.Claims

/-! ### The calendar and the slots of a cluster (R45 to R49) -/

/-- An L slot for which there is room stands in the calendar (R46). -/
theorem execLSlotAnnounce_runs {s : State} {frame len : Nat} (hf : frame < 2 ^ 32) (h0 : 0 < len) (hl : len ≤ 2000)
    (h16 : 16 ≤ framesTo s.pkg.frame.toNat frame) (h31 : framesTo s.pkg.frame.toNat frame < 2 ^ 31)
    (hs : secondSlot s frame = none) (hok : (if owedL s then frame == owedFrame s else spacedL s frame) = true) :
    execLSlotAnnounce frame len s = .next { s with pkg := { s.pkg with
      lslots := s.pkg.lslots ++ [(frame, len)], modDue := s.pkg.modDue && !owedL s } } := by
  have hn : ¬ ((decide (2 ^ 32 ≤ frame) || decide (framesTo s.pkg.frame.toNat frame < 16) ||
      decide (2 ^ 31 ≤ framesTo s.pkg.frame.toNat frame) || len == 0 || decide (2000 < len) || (secondSlot s frame).isSome) = true) := by
    simp only [hs, Bool.or_eq_true, decide_eq_true_eq, beq_iff_eq, Option.isSome_none, Bool.false_eq_true, or_false]
    omega
  simp only [execLSlotAnnounce, if_neg hn, hok, if_true]

/-- A slot closes at a cluster when the device holds nothing more for it (R49, R61). -/
theorem closing_of {s : State} {v : SlotView} (hh : hasOpened s v.seq = true)
    (hx : ∀ x ∈ s.pkg.slots, if v.follow = 1 then x.seq = v.seq → x.overran = true else x.seq ≠ v.seq ∧ x.overran = false) :
    closing s v = true := by
  simp only [closing, hh, Bool.true_and, Bool.not_eq_true', List.any_eq_false]
  intro x hm
  have h := hx x hm
  split at h
  · next hf => simpa [hf] using h
  · next hf => simpa [hf] using h

/-! ### The end of a slot at the device (R50, R60, R61, R111) -/

/-- A slot whose work is done ends at its published end. -/
def slotEnded (x : DevSlot) (s : State) : State :=
  { s with pkg := { s.pkg with slots := s.pkg.slots.filter fun y => y.seq != x.seq } }

/-- The class-0 launches that an overrun concerns. -/
def overrunHit (s : State) : List Nat := (launchesOf s).filterMap fun e => if e.2.accepted then some e.1 else none

/-- Those of them whose bound it suspends. -/
def overrunTold (s : State) : List Nat := (overrunHit s).filter fun lid => !(s.l lid).suspended

/-- A slot overruns: every accepted class-0 launch loses its bound. -/
def slotOverran (x : DevSlot) (s : State) : State :=
  let s1 := flagSuspended s (overrunTold s)
  { s1 with pkg := { s1.pkg with
    slots := (s.pkg.slots.filter fun y => y.seq != x.seq) ++
      [{ x with overran := true, hit := overrunHit s, told := overrunTold s }] } }

/-- A slot comes to its published end, with its work done or not. -/
def slotEnds (x : DevSlot) (ok : Bool) (s : State) : State := if ok then slotEnded x s else slotOverran x s

/-- The slot that the calendar has next in this frame opens, if there is one. -/
def openNext (s : State) : State :=
  match s.pkg.toOpen with
  | [] => s
  | (k, len) :: rest =>
    let s1 := { s with pkg := { s.pkg with toOpen := rest } }
    if k == 3 then openL s1 len else openSlot s1 k len

@[simp] theorem flagSuspended_pkg (s : State) (ids : List Nat) : (flagSuspended s ids).pkg = s.pkg :=
  foldl_keeps (·.pkg) (fun st lid => st.setLaunch lid { st.l lid with suspended := true }) (fun _ _ => rfl) ids s

@[simp] theorem slotEnds_toOpen (x : DevSlot) (ok : Bool) (s : State) : (slotEnds x ok s).pkg.toOpen = s.pkg.toOpen := by
  cases ok with
  | true => rfl
  | false => simp [slotEnds, slotOverran]

/-- At its published end a slot ends or overruns, and the next one of the frame opens. -/
theorem execSlotPublishedEnd_due {s : State} {x : DevSlot} (hx : runningSlot s = some x) (hd : publishedEnd x ≤ s.pkg.ns)
    (ok : Bool) : execSlotPublishedEnd ok s = .next (openNext (slotEnds x ok s)) := by
  have hn : ¬ s.pkg.ns < publishedEnd x := by omega
  simp only [execSlotPublishedEnd, hx, if_neg hn]
  cases ok with
  | true => rfl
  | false =>
    simp only [slotEnds, slotOverran, flagSuspended_pkg]
    rfl

theorem openNext_none {s : State} (h : s.pkg.toOpen = []) : openNext s = s := by
  simp only [openNext, h]

theorem openNext_fixed {s : State} {k len : Nat} {rest : List (Nat × Nat)} (h : s.pkg.toOpen = (k, len) :: rest) (hk : k ≠ 3) :
    openNext s = openSlot { s with pkg := { s.pkg with toOpen := rest } } k len := by
  simp only [openNext, h, beq_iff_eq, if_neg hk]

theorem openNext_L {s : State} {len : Nat} {rest : List (Nat × Nat)} (h : s.pkg.toOpen = (3, len) :: rest) :
    openNext s = openL { s with pkg := { s.pkg with toOpen := rest } } len := by
  simp only [openNext, h, beq_self_eq_true, if_true]

/-- Settles O57: at the published end of a slot by `execSlotPublishedEnd_due`; elsewhere the clause's condition decides the step's
tests. -/
theorem framesSlotsAndClusters : Obligations.FramesSlotsAndClusters := by
  unfold Obligations.FramesSlotsAndClusters
  intro cl
  dsimp only
  refine ⟨?_, ?_, ?_, ?_, ?_, ?_, ?_, ?_, ?_, ?_, ?_, ?_, ?_, ?_, ?_, ?_⟩
  · intro s h
    exact if_neg (by omega)
  · intro frame len hf h0 hl s ⟨h16, h31, hs, ho, hsp⟩
    refine (execLSlotAnnounce_runs hf h0 hl h16 h31 hs (by simp [ho, hsp])).trans ?_
    simp [ho]
  · intro len h0 hl frame hf s ⟨h16, h31, hs, ho, hw⟩
    refine (execLSlotAnnounce_runs hf h0 hl h16 h31 hs (by simp [ho, hw])).trans ?_
    simp [ho]
  · intro len frame s ⟨ho, hw⟩
    show execLSlotAnnounce frame len s = _
    have hn : ¬ ((frame == owedFrame s) = true) := by simpa using hw
    simp only [execLSlotAnnounce, ho, if_true, if_neg hn, ite_self, id_eq]
  · refine works_of_working (fun _ => rfl) fun s ⟨ho, hw⟩ => ?_
    exact if_neg (by simp [ho, hw])
  · refine works_of_working (fun _ => rfl) fun s ⟨ho, hw⟩ => ?_
    exact if_neg (by simp [ho, hw])
  · intro x rest ok len
    refine ⟨?_, ?_, ?_⟩
    · intro s ⟨hx, hd, ht⟩
      exact (execSlotPublishedEnd_due hx hd ok).trans (congrArg _ (openNext_none (by simpa using ht)))
    · intro k hk s ⟨hx, hd, ht⟩
      exact (execSlotPublishedEnd_due hx hd ok).trans (congrArg _ (openNext_fixed (by simpa using ht) hk))
    · intro s ⟨hx, hd, ht⟩
      exact (execSlotPublishedEnd_due hx hd ok).trans (congrArg _ (openNext_L (by simpa using ht)))
  · intro ns x s hx
    show execSlotWorkDone ns s = _
    simp only [execSlotWorkDone, hx]
  · refine works_of_working (fun _ => rfl) fun s ⟨ho, hh, hx⟩ => ?_
    exact if_neg (by simp [ho, closing_of hh hx])
  · exact works_of_working (fun _ => rfl) fun s _ => rfl
  · refine works_of_working (fun _ => rfl) fun s ⟨hi, ha⟩ => ?_
    simp only [ha, beq_self_eq_true, if_true]
    exact if_neg (by omega)
  · refine works_of_working (fun _ => rfl) fun s h => ?_
    exact if_pos (by simpa using h)
  · intro r
    refine works_of_working (fun _ => rfl) fun s ⟨hr, hb, hc⟩ => ?_
    simp [hr, hb, hc]
  · intro v
    refine works_of_working (fun _ => rfl) fun s ⟨hv, hb⟩ => ?_
    have hb' : ((blocksIn s cl).any fun b => (s.l b.2.lid).cls == 0) = false := by simpa using hb
    simp [hv, hb']
  · intro e rest
    refine works_of_working (fun _ => rfl) fun s he => ?_
    simp only [he]
  · intro dir b rest
    refine works_of_working (fun _ => rfl) fun s ⟨hh, hb⟩ => ?_
    have hn : ¬ ((memHeld s && edgeLink cl dir) = true) := by
      cases hm : memHeld s with
      | false => simp
      | true => simp [hh hm]
    simp only [if_neg hn, hb]

end Sys2Proof.Machine
end

section
/-!
PROOFS. The life of a block: admission, the choice of a unit, pre-emption and resumption (R94 to R106, R114 to R130, R166, R167).
-/

namespace Sys2Proof

/-- A relation between entries before and after a change entry by entry holds of what each key reads. -/
theorem FMap.get_map_rel {β : Type} {R : Option β → Option β → Prop} (h0 : R none none) {f : Nat × Option β → Nat × Option β}
    (hf : ∀ e, (f e).1 = e.1 ∧ R e.2 (f e).2) (m : FMap (Option β)) (k : Nat) :
    R (FMap.get none m k) (FMap.get none (m.map f) k) := by
  induction m with
  | nil => exact h0
  | cons e m ih =>
    obtain ⟨h1, h2⟩ := hf e
    simp only [List.map, FMap.get, h1]
    split
    · exact h2
    · exact ih

end Sys2Proof

namespace Sys2Proof.Machine

open Sys2Proof.Claims

/-! ### Blocks that keep their life and their seats -/

/-- Every block keeps its life and its seats, whatever else changes. -/
def SeatsKept (s t : State) : Prop := ∀ k, (t.b k).st = (s.b k).st ∧ (t.b k).seats = (s.b k).seats

theorem SeatsKept.rfl {s : State} : SeatsKept s s := fun _ => ⟨Eq.refl _, Eq.refl _⟩

theorem SeatsKept.trans {a b c : State} (h1 : SeatsKept a b) (h2 : SeatsKept b c) : SeatsKept a c := fun k =>
  ⟨(h2 k).1.trans (h1 k).1, (h2 k).2.trans (h1 k).2⟩

/-- A step that leaves the blocks alone. -/
theorem SeatsKept.of_blocks {s t : State} (h : t.blocks = s.blocks) : SeatsKept s t := fun k => by
  simp [State.b, State.block, h]

theorem SeatsKept.foldl {α : Type} {f : State → α → State} (h : ∀ s a, SeatsKept s (f s a)) (l : List α) (s : State) :
    SeatsKept s (l.foldl f s) :=
  foldl_inv (SeatsKept s) f (fun _ a ht => ht.trans (h _ a)) l s .rfl

/-- Stash copies of a line that go INVALID leave the blocks where they are. -/
theorem invalidateStashes_seats (s : State) (pa : Nat) : SeatsKept s (invalidateStashes s pa) := fun k => by
  refine FMap.get_map_rel (R := fun a b => (b.getD Block.blank).st = (a.getD Block.blank).st ∧
    (b.getD Block.blank).seats = (a.getD Block.blank).seats) ⟨rfl, rfl⟩ (fun e => ?_) s.blocks k
  obtain ⟨j, x⟩ := e
  cases x with
  | none => exact ⟨rfl, rfl, rfl⟩
  | some blk =>
    dsimp only
    split
    · exact ⟨rfl, rfl, rfl⟩
    · exact ⟨rfl, rfl, rfl⟩

theorem claimLine_seats (s : State) (pa b c : Nat) : SeatsKept s (claimLine s pa b c) := by
  unfold claimLine
  refine SeatsKept.trans (b := if s.blocks.isEmpty then s else invalidateStashes s pa) ?_ (.of_blocks rfl)
  split
  · exact .rfl
  · exact invalidateStashes_seats s pa

/-! What the register window writes is the host side and the package. -/

theorem tellDone_blocks (s : State) (n : Nat) (notify : Bool) (r : DWord × DWord) : (tellDone s n notify r).blocks = s.blocks := by
  unfold tellDone; dsimp only; split <;> rfl

theorem abortWait_blocks (s : State) (n : Nat) : (abortWait s n).blocks = s.blocks := by
  unfold abortWait
  dsimp only
  split
  · split
    · rw [tellDone_blocks]; rfl
    · rfl
  · rfl

theorem writeDescriptor_blocks (s : State) (n w v : Nat) : (writeDescriptor s n w v).blocks = s.blocks := by
  unfold writeDescriptor
  dsimp only
  split
  · rfl
  · split
    · unfold enableQueue; dsimp only; split <;> rfl
    · rw [abortWait_blocks]; rfl

theorem windowWord_blocks (s : State) (off : Nat) (data : List (Option Byte)) : (windowWord s off data).blocks = s.blocks := by
  unfold windowWord
  dsimp only
  split
  · split <;> split <;> rfl
  · split
    · rfl
    · split
      · exact writeDescriptor_blocks _ _ _ _
      · rfl

theorem writePhys_seats (s : State) (pa : Nat) (bs : List Byte) (b c : Nat) : SeatsKept s (writePhys s pa bs b c) := by
  unfold writePhys
  split
  · exact SeatsKept.foldl (fun s _ => .of_blocks (windowWord_blocks s _ _)) _ s
  · obtain ⟨m, k, e⟩ := putMems_eq bs ((List.range (cdiv (pa % 128 + bs.length) 128)).foldl
      (fun st k => claimLine st (pa + 128 * k) b c) s) pa
    rw [e]
    exact (SeatsKept.foldl (fun s k => claimLine_seats s (pa + 128 * k) b c) _ s).trans (.of_blocks rfl)

/-- What every write of bytes at a physical address keeps, one at a virtual address keeps. -/
theorem vWrite_inv {p : State → Prop} {b c : Nat} (hp : ∀ s pa bs, p s → p (writePhys s pa bs b c)) {s t : State} {ctx : Nat}
    {want : Want} {va : Nat} {bs : List Byte} (hs : p s) (hw : vWrite s ctx want va bs b c = some t) : p t := by
  unfold vWrite at hw
  dsimp only at hw
  split at hw
  · simp at hw
  · simp only [Option.some.injEq] at hw
    subst hw
    generalize List.zipIdx _ = l
    suffices key : ∀ acc : State × List Byte, p acc.1 → p (l.foldl (fun (acc : State × List Byte) q =>
        let n := if q.2 == 0 then 4096 - va % 4096 else 4096
        (writePhys acc.1 (q.1.getD 0) (acc.2.take n) b c, acc.2.drop n)) acc).1 from key (s, bs) hs
    induction l with
    | nil => exact fun _ ha => ha
    | cons q l ih => exact fun acc ha => ih _ (hp _ _ _ ha)

theorem vWrite_seats {s t : State} {ctx : Nat} {want : Want} {va : Nat} {bs : List Byte} {b c : Nat}
    (h : vWrite s ctx want va bs b c = some t) : SeatsKept s t :=
  vWrite_inv (p := SeatsKept s) (fun _ pa bs hs => hs.trans (writePhys_seats _ pa bs b c)) .rfl h

theorem checkDark_blocks (s : State) (ctx : Nat) (want : Want) (va n : Nat) : (checkDark s ctx want va n).blocks = s.blocks := by
  unfold checkDark; split <;> rfl

/-! A launch that retires writes its record, and a fault stops groups. -/

theorem sendEvent_blocks (s : State) (ty conn : Nat) (on : Bool) (body : List Byte) : (sendEvent s ty conn on body).blocks = s.blocks := rfl

theorem queueError_blocks (s : State) (n : Nat) : (queueError s n).blocks = s.blocks := by
  rw [queueError, tellQueueError, sendModule, sendEvent_blocks, setQueue_blocks]

theorem putRecord_seats (s : State) (n : Nat) (r : DWord × DWord) : SeatsKept s (putRecord s n r) := by
  rw [putRecord]
  split
  · exact .of_blocks ((queueError_blocks _ _).trans (checkDark_blocks _ _ _ _ _))
  · next h => exact (vWrite_seats h).trans (.of_blocks (setQueue_blocks _ _ _))

theorem postRecord_seats (s : State) (n : Nat) (r : DWord × DWord) : SeatsKept s (postRecord s n r) := by
  unfold postRecord
  dsimp only
  split
  · exact .rfl
  · split
    · exact .of_blocks rfl
    · exact putRecord_seats _ _ _

theorem complete_seats (s : State) (n : Nat) (tag : Word) (notify : Bool) (status value : Nat) :
    SeatsKept s (complete s n tag notify status value) :=
  (postRecord_seats s n (doneWords n tag status value false)).trans (.of_blocks (tellDone_blocks _ _ _ _))

theorem releaseLaunch_blocks (s : State) (n : Nat) : (releaseLaunch s n).blocks = s.blocks := by
  unfold releaseLaunch
  split
  · split <;> rfl
  · rfl

theorem retireLaunch_seats (s : State) (lid : Nat) : SeatsKept s (retireLaunch s lid) := by
  have h : SeatsKept s (s.setLaunch lid { s.l lid with st := .retired }) := .of_blocks rfl
  unfold retireLaunch
  dsimp only
  split
  · exact h
  · exact (h.trans (complete_seats _ _ _ _ _ _)).trans (.of_blocks (releaseLaunch_blocks _ _))

theorem settleLaunch_seats (s : State) (lid : Nat) : SeatsKept s (settleLaunch s lid) := by
  unfold settleLaunch
  dsimp only
  split
  · exact retireLaunch_seats s lid
  · exact .rfl

theorem stopLaunch_blocks (s : State) (lid : Nat) : (stopLaunch s lid).blocks = s.blocks := by
  unfold stopLaunch; dsimp only; split <;> rfl

theorem markFaulted_blocks (s : State) (lid cause faddr : Nat) : (markFaulted s lid cause faddr).blocks = s.blocks := by
  unfold markFaulted; split <;> rfl

theorem endLaunch_blocks (s : State) (gid cause faddr : Nat) : (endLaunch s gid cause faddr).blocks = s.blocks := by
  unfold endLaunch
  dsimp only
  split
  · unfold endDraw
    split
    · rfl
    · rw [stopLaunch_blocks, stopLaunch_blocks, markFaulted_blocks]; rfl
  · rw [stopLaunch_blocks]
    exact markFaulted_blocks _ _ _ _

theorem retakeFault_seats (s : State) (gid : Nat) : SeatsKept s (retakeFault s gid) := by
  unfold retakeFault
  dsimp only
  split
  · split
    · exact .of_blocks ((endLaunch_blocks _ _ _ _).trans (modGroup_blocks _ _ _))
    · split
      · exact .of_blocks ((endLaunch_blocks _ _ _ _).trans (modGroup_blocks _ _ _))
      · next h =>
        refine (SeatsKept.of_blocks (modGroup_blocks _ _ _)).trans ((vWrite_seats h).trans ?_)
        split
        · exact .rfl
        · exact .of_blocks (modGroup_blocks _ _ _)
  · exact .rfl

theorem recountAll_blocks (s : State) : (recountAll s).blocks = s.blocks :=
  foldl_keeps (·.blocks) (fun st (e : Nat × DieRec) => if within 1 3 e.2.st then recount st e.1 e.2.st else st)
    (fun s e => by split <;> rfl) s.pkg.dies s

theorem settleDraws_blocks (s : State) : (settleDraws s).blocks = s.blocks := by
  unfold settleDraws; split <;> rfl

/-- What follows at once from a step leaves the blocks where they are. -/
theorem settle_seats (s : State) : SeatsKept s (settle s) := by
  let s1 : State := { s with groups := s.groups.map (settleEntry s) }
  let s2 := ((launchesOf s1).map (·.1)).foldl (fun st lid => if launchOver st lid then settleLaunch st lid else st) s1
  have h1 : SeatsKept s s1 := .of_blocks rfl
  have h2 : SeatsKept s1 s2 := SeatsKept.foldl (fun s lid => by
    split
    · exact settleLaunch_seats s lid
    · exact .rfl) _ s1
  have h3 : SeatsKept s2 (recountAll (settleDraws s2)) := .of_blocks ((recountAll_blocks _).trans (settleDraws_blocks _))
  have h4 : SeatsKept (recountAll (settleDraws s2)) (settle s) := .of_blocks (by
    unfold settle
    dsimp only
    split <;> rfl)
  exact (h1.trans h2).trans (h3.trans h4)

/-- A saved block that finds its cores stands placed on them, with its seats (R167). -/
theorem execBlockResume_placed {s : State} {bid : Nat} {cores : List Nat} (hf : s.host.fatal = none)
    (hst : (s.b bid).st = .preempted) (he : (s.l (s.b bid).lid).ending = false) (hp : cores ∈ (s.l (s.b bid).lid).positions)
    (hg : goodPosition s (s.l (s.b bid).lid) cores = true)
    (hc : (s.l (s.b bid).lid).coop = true → couldHold s (s.l (s.b bid).lid) = true) :
    ∃ t, execBlockResume bid cores s = .next t ∧ (t.b bid).st = .placed ∧
      (t.b bid).seats = cores.flatMap fun c => (coreSeats s (s.l (s.b bid).lid) c).map fun x => (x.1, x.2.1) := by
  have hc' : ((s.l (s.b bid).lid).coop && !couldHold s (s.l (s.b bid).lid)) = false := by simpa using hc
  refine ⟨_, (working_runs hf).trans (if_neg (by simp [hst, he, hp, hg, hc'])), ?_⟩
  have key : ∀ (ids : List Nat) (f : Group → Group) (s2 : State), SeatsKept s2 (settle (ids.foldl retakeFault
      (ids.foldl (fun st g => st.modGroup g f) s2))) := fun ids f s2 =>
    ((SeatsKept.foldl (fun s g => .of_blocks (modGroup_blocks s g f)) ids s2).trans
      (SeatsKept.foldl retakeFault_seats ids _)).trans (settle_seats _)
  obtain ⟨h1, h2⟩ := key _ _ _ bid
  refine ⟨h1.trans ?_, h2.trans ?_⟩ <;> simp [State.b]

/-! ### Admission and the other steps -/

/-- What must be read for a launch is not held. -/
theorem reads_free {s : State} {l : Launch} (h : memHeld s = true → l.argn = 0) : (memHeld s && l.argn != 0) = false := by
  cases hm : memHeld s with
  | false => rfl
  | true => simp [h hm]

section
variable {s : State} {bid : Nat}

/-- A tile task is barred by no cluster that takes tasks in this interval. -/
theorem tasksBarred_eq_false {l : Launch} {b : Block}
    (h : l.task = true → ∀ k ∈ b.cores, (s.cluster (clusterOf k.core)).noTask = false) :
    tasksBarred s l (b.cores.map (·.core)) = false := by
  unfold tasksBarred
  cases ht : l.task with
  | false => rfl
  | true => simpa using h ht

/-- A placed block of a launch that goes on, within the budgets, of no barred tile task, may be admitted. -/
def Admits (s : State) (bid : Nat) : Prop :=
  (s.b bid).st = .placed ∧ (s.l (s.b bid).lid).ending = false ∧ powerOk s (chargesDue s (s.b bid)) = true ∧
    ((s.l (s.b bid).lid).task = true → ∀ k ∈ (s.b bid).cores, (s.cluster (clusterOf k.core)).noTask = false)

/-- A resumed block is admitted with the groups that it has. -/
theorem execBlockAdmit_resumed (hf : s.host.fatal = none) (h : Admits s bid) (hg : (s.group (gidOf bid 0)).isSome = true) :
    execBlockAdmit bid s = .next (admitBlock s bid []) := by
  obtain ⟨hst, he, hp, ht⟩ := h
  rw [execBlockAdmit, working_runs hf]
  simp [hst, he, hp, tasksBarred_eq_false ht, hg]

/-- What the admission of a new block comes to: its groups, or the end of its launch where the argument words cannot be read. -/
def firstAdmission (s : State) (bid : Nat) : State :=
  match argWords s (s.l (s.b bid).lid) with
  | none => endUnread s (s.b bid).lid
  | some args => fragmentReady (leaveTable (admitBlock s bid args) (s.b bid).lid (s.b bid).lin) bid

/-- A new block whose argument words nothing holds and, of class 0, whose predecessor tags have come, is admitted. -/
theorem execBlockAdmit_fresh (hf : s.host.fatal = none) (h : Admits s bid) (hg : s.group (gidOf bid 0) = none)
    (hr : memHeld s = true → (s.l (s.b bid).lid).argn = 0)
    (h0 : (s.l (s.b bid).lid).cls = 0 →
      tagsMissing s (s.l (s.b bid).lid) (s.b bid).lin ((s.b bid).cores.map (·.core)) = false) :
    execBlockAdmit bid s = .next (firstAdmission s bid) := by
  obtain ⟨hst, he, hp, ht⟩ := h
  have h0' : ((s.l (s.b bid).lid).cls == 0 &&
      tagsMissing s (s.l (s.b bid).lid) (s.b bid).lin ((s.b bid).cores.map (·.core))) = false := by
    simpa [imp_iff_not_or] using h0
  rw [execBlockAdmit, working_runs hf]
  simp only [hst, he, hp, tasksBarred_eq_false ht, hg, h0', reads_free hr, Option.isSome_none, bne_self_eq_false, Bool.not_true,
    Bool.or_self, Bool.false_eq_true, if_false, firstAdmission]
  cases argWords s (s.l (s.b bid).lid) with
  | none => rfl
  | some args => rfl

end

/-- Settles O58: the condition of each clause decides the tests of its step; a resumed block stands by `execBlockResume_placed`. -/
theorem blocksAndIssue : Obligations.BlocksAndIssue := by
  unfold Obligations.BlocksAndIssue
  dsimp only
  refine ⟨?_, ?_, ?_, ?_, ?_, ?_, ?_, ?_, ?_, ?_, ?_, ?_, ?_, ?_, ?_, ?_, ?_, ?_, ?_, ?_, ?_⟩
  · intro lid places s1 b
    refine works_of_working (fun _ => rfl) fun s ⟨⟨ho, hr⟩, ⟨a, ha, hd⟩, hc⟩ => ?_
    have hc' : (s1.clusters.any fun e => decide (64 < e.2.tasks.length)) = false := by simpa using hc
    simp [ho, reads_free hr, ha, hd, hc']
  · intro lid places s1 b
    refine works_of_working (fun _ => rfl) fun s ⟨⟨ho, hr⟩, hd, hc⟩ => ?_
    have hc' : (s1.clusters.any fun e => decide (64 < e.2.tasks.length)) = true := by simpa using hc
    simp [ho, reads_free hr, hd, hc']
  · intro lid places r
    refine works_of_working (fun _ => rfl) fun s ⟨⟨ho, hr⟩, hd⟩ => ?_
    simp [ho, reads_free hr, hd]
  · intro lid places s1
    refine works_of_working (fun _ => rfl) fun s ⟨hh, hn, ht, hl, hp⟩ => ?_
    simp [hh, hn, Launch.tabled, ht, placedAtOnce, hl, hp]
  · intro lid cl
    refine works_of_working (fun _ => rfl) fun s ⟨hh, hn, ht, hc⟩ => ?_
    simp [hh, hn, Launch.tabled, ht, hc]
  · intro cl n cores t
    refine works_of_working (fun _ => rfl) fun s ⟨ht, hn, hco, hk, hp, hg, hf, hh⟩ => ?_
    have hs : (taskSpots s cl t).contains cores = true := by simpa [taskSpots, hp, hg] using hk
    have hf' : (freePrivate s).isNone = false := Option.isNone_eq_false_iff.mpr (Option.isSome_iff_ne_none.mpr hf)
    simp only [ht, hn, hco, hh, hs, hf', bne_self_eq_false, Bool.not_true, Bool.or_self, Bool.false_eq_true, if_false]
    rfl
  · intro cl n cores t s1
    refine works_of_working (fun _ => rfl) fun s ⟨ht, hn, hco, hh, hs⟩ => ?_
    simp [ht, hn, hco, hh, hs]
  · intro bid
    refine ⟨fun args => ?_, ?_, ?_⟩
    · intro s ⟨hf, ⟨ha, hg, hr, h0⟩, hw⟩
      rw [show exec (.blockAdmit bid) s = _ from execBlockAdmit_fresh hf ha hg hr h0, firstAdmission, hw]
    · intro s ⟨hf, ⟨ha, hg, hr, h0⟩, hw⟩
      rw [show exec (.blockAdmit bid) s = _ from execBlockAdmit_fresh hf ha hg hr h0, firstAdmission, hw]
    · intro s ⟨hf, ha, hg⟩
      exact execBlockAdmit_resumed hf ha hg
  · intro bid
    refine works_of_working (fun _ => rfl) fun s ⟨hst, he⟩ => ?_
    exact if_neg (by simpa [he, imp_iff_not_or] using hst)
  · intro bid b
    refine works_of_working (fun _ => rfl) fun s ⟨hb, hst, hd, hh⟩ => ?_
    simp [hb, hst, hd, hh]
  · intro core quarter
    refine works_of_working (fun _ => rfl) fun s hw => ?_
    simp [hw]
  · intro core quarter gid slices
    refine works_of_working (fun _ => rfl) fun s hw => ?_
    simp [hw]
  · intro gid n x l
    refine works_of_working (fun _ => rfl) fun s ⟨hx, hst, hy, y, hyc, hlt⟩ => ?_
    simp only [hx, hst, hy]
    exact if_pos (List.any_eq_true.mpr ⟨y, hyc, by simpa using hlt⟩)
  · intro gid n p
    refine works_of_working (fun _ => rfl) fun s ⟨hp, hj, hm⟩ => ?_
    have hn : ¬ ((p.far && memHeld s) = true) := by
      cases hh : memHeld s with
      | false => simp
      | true => simp [hm hh]
    simp only [hp, hj, if_neg hn, landWrite]
  · intro gid n
    refine works_of_working (fun _ => rfl) fun s ⟨h0, hle, hst, hsu, ht, hw⟩ => ?_
    have hd : watchDue s (s.g gid) = true := by simp [watchDue, h0, hle]
    simp [hd, hst, hsu, ht, hw, watchTrap]
  · intro bid b
    refine works_of_working (fun _ => rfl) fun s ⟨hb, hst, hw⟩ => ?_
    simp only [hb]
    refine if_pos ?_
    simp only [Bool.and_eq_true, Bool.or_eq_true, beq_iff_eq, List.any_eq_true, List.mem_range, Bool.not_eq_true']
    exact ⟨hst, hw.imp_right And.symm⟩
  · intro bid s hf hst hr ho hm
    refine ⟨_, (working_runs hf).trans (if_neg (by simp [hst, hr, ho, hm])), ?_, ?_, ?_⟩ <;>
      simp [clearTags, State.b, State.setBlock, State.block, FMap.get_set_of_ne]
  · exact fun bid cores s hf hst he hp hg hc => execBlockResume_placed hf hst he hp hg hc
  · intro gid n o
    refine works_of_working (fun _ => rfl) fun s ⟨hf, ho, ha, hw⟩ => ?_
    simp [hf, ho, ha, hw]
  · intro gid e rest
    refine works_of_working (fun _ => rfl) fun s ⟨hs, hl, hm⟩ => ?_
    have hn : ¬ ((memHeld s && locFar s (s.g gid).core true e.loc) = true) := by
      cases hh : memHeld s with
      | false => simp
      | true => simp [hm hh]
    simp only [hs, hl, if_neg hn, drainOne]
  · intro gid e rest line
    refine ⟨works_of_working (fun _ => rfl) fun s ⟨⟨hs, hl⟩, ha⟩ => ?_, works_of_working (fun _ => rfl) fun s ⟨⟨hs, hl⟩, ha⟩ => ?_⟩
    · simp [hs, hl, ha]
    · simp [hs, hl, ha, dieRequest]

end Sys2Proof.Machine
end

section
/-!
PROOFS. The messages of the directory about a line (R18, R50, R56, R263, R307 to R309).
-/

namespace Sys2Proof.Machine

open Sys2Proof.Claims

/-! ### What crosses a die link while a slot is open (R50) -/

theorem linkHeld_iff {s : State} {die line : Nat} : linkHeld s die line = true ↔ memHeld s = true ∧ homeDie (128 * line) ≠ die := by
  simp [linkHeld]

theorem linkHeld_eq_false {s : State} {die line : Nat} (h : ¬ (memHeld s = true ∧ homeDie (128 * line) ≠ die)) :
    linkHeld s die line = false := by
  rwa [← Bool.not_eq_true, linkHeld_iff]

/-! ### Requests (R50, R56, R307) -/

section
variable {s : State} {line : Nat} {r : DirReq}

/-- A request that no slot holds takes its place at the home agent. -/
theorem requestLine_arrives (hd : r.die ≤ 8) (hh : linkHeld s r.die line = false) :
    requestLine s line r = s.setLine line { s.line line with
      queue := enqueue { r with at_ := (s.pkg.frame.toNat, s.pkg.ns) } (s.line line).queue } := by
  have hd' : ¬ 8 < r.die := by omega
  simp [requestLine, linkFull, hh, hd']

/-- A request that a slot holds waits in its die's link queue, where that has room. -/
theorem requestLine_waits (hd : r.die ≤ 8) (hh : linkHeld s r.die line = true) (hn : sentBy s r.die ≤ Config.linkDepth) :
    requestLine s line r = s.setLine line { s.line line with
      sent := (s.line line).sent ++ [{ r with at_ := (s.pkg.frame.toNat, s.pkg.ns) }] } := by
  have hd' : ¬ 8 < r.die := by omega
  have hn' : ¬ Config.linkDepth < sentBy s r.die := by omega
  simp [requestLine, linkFull, hh, hd', hn']

/-- A full link queue takes no request. -/
theorem requestLine_full (hh : linkHeld s r.die line = true) (hn : Config.linkDepth < sentBy s r.die) :
    requestLine s line r = s := by
  simp [requestLine, linkFull, hh, hn]

end

/-- What a step that makes a request of a die answers. -/
theorem request_asks {i : Instr} {die line k : Nat} {near : State → Option Nat}
    (hx : ∀ s, exec i s = working s (.next (requestLine s line (dieRequest k die (near s))))) :
    let r (s : State) : DirReq :=
      { kind := k, die := die, core := none, near := near s, zero := false, at_ := (s.pkg.frame.toNat, s.pkg.ns) }
    let crosses (s : State) : Prop := memHeld s = true ∧ homeDie (128 * line) ≠ die
    Works i (fun s => die ≤ 8 ∧ ¬ crosses s)
      (fun s => s.setLine line { s.line line with queue := enqueue (r s) (s.line line).queue }) ∧
    Works i (fun s => die ≤ 8 ∧ crosses s ∧ sentBy s die ≤ Config.linkDepth)
      (fun s => s.setLine line { s.line line with sent := (s.line line).sent ++ [r s] }) ∧
    Works i (fun s => crosses s ∧ Config.linkDepth < sentBy s die) id := by
  intro r crosses
  refine ⟨works_of_working hx fun s ⟨hd, hc⟩ => ?_, works_of_working hx fun s ⟨hd, hc, hn⟩ => ?_,
    works_of_working hx fun s ⟨hc, hn⟩ => ?_⟩
  · exact congrArg _ (requestLine_arrives (r := dieRequest k die (near s)) hd (linkHeld_eq_false hc))
  · exact congrArg _ (requestLine_waits (r := dieRequest k die (near s)) hd (linkHeld_iff.mpr hc) hn)
  · exact congrArg _ (requestLine_full (r := dieRequest k die (near s)) (linkHeld_iff.mpr hc) hn)

/-- The line of an owner whose write-back stays behind as its ownership passes on (R309). -/
theorem passed_of_owner {l : DirLine} {die : Nat} (hs : l.st = 5) (ho : l.owner = die) :
    (if l.wbPend then l.passed else l) =
      if l.wbPend = false ∨ NSet.has l.wbuf die = false ∨ NSet.has l.wbAck die = true then l
      else if NSet.has l.wbHome die = true then { l with wbHome := NSet.del l.wbHome die, wbAck := NSet.add l.wbAck die }
      else { l with stale := NSet.add l.stale die } := by
  subst ho
  cases hp : l.wbPend with
  | false => simp
  | true => simp [DirLine.passed, hs, hp]

/-- Settles O59: a request by `request_asks`; a message has its effect where no slot holds it. -/
theorem directoryMessages : Obligations.DirectoryMessages := by
  unfold Obligations.DirectoryMessages
  intro die line
  dsimp only
  refine ⟨?_, ?_, ?_, ?_, ?_, ?_, ?_, ?_, ?_, ?_, ?_⟩
  · exact request_asks (near := fun _ => none) fun _ => rfl
  · exact request_asks (near := fun _ => none) fun _ => rfl
  · intro near
    exact request_asks (near := fun s => near.filter fun k => k / 3 == die && sliceOfPa s (128 * line) / 4 != k) fun _ => rfl
  · refine works_of_working (fun _ => rfl) fun s ⟨ha, hs, hc⟩ => ?_
    exact if_neg (by simp [ha, hs, linkHeld_eq_false hc])
  · refine works_of_working (fun _ => rfl) fun s ⟨ha, hs, hc, ho⟩ => ?_
    simp only [ha, hs, linkHeld_eq_false hc, linkHeld_eq_false ho, Bool.not_true, Bool.or_self, Bool.and_false, Bool.false_eq_true,
      if_false, Bool.and_eq_true, beq_iff_eq, List.isEmpty_iff]
    exact (apply_ite Host.Outcome.next _ _ _).symm
  · refine works_of_working (fun _ => rfl) fun s ⟨hs, ho, hn, hc⟩ => ?_
    exact if_neg (by simp [hs, ho, hn, linkHeld_eq_false hc])
  · intro next
    refine works_of_working (fun _ => rfl) fun s ⟨hv, hs, ho, hn, ha, hm⟩ => ?_
    simp only [hv, passed_of_owner hs ho]
    exact if_neg (by simp [hs, ho, hn, ha, hm])
  · refine works_of_working (fun _ => rfl) fun s ⟨hb, ha, hh, hm⟩ => ?_
    simp only [hb, ha, hh, hm, Bool.not_true, Bool.or_self, Bool.false_eq_true, if_false, Bool.and_eq_true, Bool.or_eq_true,
      beq_iff_eq, List.isEmpty_iff]
    simp only [apply_ite (s.setLine line), apply_ite Host.Outcome.next]
  · refine works_of_working (fun _ => rfl) fun s ⟨ha, hc⟩ => ?_
    exact if_neg (by simp [ha, linkHeld_eq_false hc])
  · intro r
    refine works_of_working (fun _ => rfl) fun s ⟨hs, hv, hd, ha, hm⟩ => ?_
    simp only [hv]
    exact if_neg (by simp [hs, hd, ha, hm])
  · refine works_of_working (fun _ => rfl) fun s ⟨hs, ho, hw⟩ => ?_
    exact if_pos (by simpa [ho, hw, or_assoc] using hs)

end Sys2Proof.Machine
end

section
/-!
PROOFS. Taking an exception with a handler: the group in its handler, the frame read back, and the wait (R50, R54, R314, R315).
-/

namespace Sys2Proof.Machine

open Sys2Proof.Claims

/-! ### Little-endian bytes -/

@[simp] theorem leBytes_length (n x : Nat) : (leBytes n x).length = n := by
  induction n generalizing x with
  | zero => rfl
  | succ n ih => simp [leBytes, ih]

theorem leVal_leBytes (n x : Nat) : leVal (leBytes n x) = x % 256 ^ n := by
  induction n generalizing x with
  | zero => simp [leBytes, leVal, Nat.mod_one]
  | succ n ih =>
    rw [leBytes, leVal, ih, pow_succ', Nat.mod_mul]
    simp

theorem leVal_append (a b : List Byte) : leVal (a ++ b) = leVal a + 256 ^ a.length * leVal b := by
  induction a with
  | nil => simp [leVal]
  | cons x a ih => simp only [List.cons_append, leVal, ih, List.length_cons, pow_succ']; ring

theorem take_drop_field {a b c : List Byte} {k n : Nat} (ha : a.length = k) (hb : b.length = n) :
    ((a ++ (b ++ c)).drop k).take n = b := by
  subst ha hb
  simp

theorem length_flatMap_of_const {α β : Type} {f : α → List β} {k : Nat} (l : List α) (h : ∀ a, (f a).length = k) :
    (l.flatMap f).length = l.length * k := by
  rw [List.length_flatMap, List.map_congr_left fun a _ => h a, List.map_const', List.sum_replicate, smul_eq_mul]

theorem b2n_le (b : Bool) : b2n b ≤ 1 := by cases b <;> simp [b2n]

/-! ### The frame (R314) -/

/-- The word of a frame that a handler only reads: the cause, S, the index, the scope, WIDE, RESUME and the mode (R314). -/
def frameFlags (g : Group) (n : Narrow) (h : Hdr) (wide : Bool) (t : Trap) : Nat :=
  let scope := match h.scope with
    | .lane => 0
    | .group => 1
    | .set => 2
    | .block => 3
  t.cause + b2n t.src * 2 ^ 9 + n.idx * 2 ^ 10 + scope * 2 ^ 15 + b2n wide * 2 ^ 17 + b2n (resumable t.cause) * 2 ^ 18 +
    b2n g.sys * 2 ^ 20

/-- Each field of the read-only word stands at its own bits. -/
theorem frameFlags_fields (g : Group) (n : Narrow) (h : Hdr) (wide : Bool) (t : Trap) (hi : n.idx < 32)
    (hc : t.cause < 2 ^ 9) :
    let x := frameFlags g n h wide t
    x < 256 ^ 8 ∧ x % 2 ^ 9 = t.cause ∧ x / 2 ^ 10 % 2 ^ 5 = n.idx ∧
      x / 2 ^ 18 % 2 = b2n (resumable t.cause) ∧ x / 2 ^ 19 % 2 = 0 := by
  have hsrc := b2n_le t.src
  have hwide := b2n_le wide
  have hresume := b2n_le (resumable t.cause)
  have hsys := b2n_le g.sys
  unfold frameFlags
  cases h.scope <;> dsimp only <;> refine ⟨?_, ?_, ?_, ?_, ?_⟩ <;> omega

/-- A frame is its PC, fault address, read-only word, a mask of lanes, the lanes performed, and the rest. -/
theorem frameBytes_fields (g : Group) (n : Narrow) (u : Ux) (h : Hdr) (wide : Bool) (t : Trap) :
    ∃ lanes rest, rest.length = 1120 ∧
      frameBytes g n u h wide t = leBytes 8 u.pc ++ (leBytes 8 t.faddr ++ (leBytes 8 (frameFlags g n h wide t) ++
        ((leBytes 4 lanes ++ leBytes 4 t.done) ++ rest))) := by
  refine ⟨_, _, ?_, by simp only [frameBytes, List.append_assoc]; rfl⟩
  simp only [List.length_append, leBytes_length, length_flatMap_of_const _ fun _ => leBytes_length _ _, List.length_range]

/-- What a frame leaves for its handler reads back. -/
theorem frameReadsBack : FrameReadsBack := by
  intro g n u h wide t hp hl hi hc hd bs w2
  obtain ⟨lanes, rest, hrest, hbs⟩ := frameBytes_fields g n u h wide t
  obtain ⟨hx, hcause, hidx, hresume, hskip⟩ := frameFlags_fields g n h wide t hi hc
  replace hbs : bs = _ := hbs
  have h0 : leVal ((bs.drop (8 * 0)).take 8) = u.pc := by
    rw [hbs, Nat.mul_zero, List.drop_zero, List.take_left' (by simp), leVal_leBytes, Nat.mod_eq_of_lt (by omega)]
  have h2 : leVal ((bs.drop (8 * 2)).take 8) = frameFlags g n h wide t := by
    rw [hbs, ← List.append_assoc, take_drop_field (by simp) (by simp), leVal_leBytes, Nat.mod_eq_of_lt hx]
  have h3 : leVal ((bs.drop (8 * 3)).take 8) = lanes % 256 ^ 4 + 256 ^ 4 * t.done := by
    rw [hbs, ← List.append_assoc, ← List.append_assoc, take_drop_field (by simp) (by simp), leVal_append, leVal_leBytes,
      leVal_leBytes, leBytes_length, Nat.mod_eq_of_lt (show t.done < 256 ^ 4 by omega)]
  refine ⟨by rw [hbs]; simp [hrest], ?_, ?_, ?_, ?_, ?_, ?_⟩
  · exact (congrArg (bits · 8 0) h2).trans (by simpa [bits] using hcause)
  · exact (congrArg (bits · 14 10) h2).trans (by simpa [bits] using hidx)
  · refine (congrArg (Nat.testBit · 18) h2).trans ?_
    rw [Nat.testBit_eq_decide_div_mod_eq, hresume]
    show decide (b2n (resumable t.cause) = 1) = resumable t.cause
    cases resumable t.cause <;> rfl
  · show leVal ((bs.drop (8 * 0)).take 8) % 2 ^ 57 / 64 * 64 + leVal ((bs.drop (8 * 0)).take 8) % 8 = u.pc
    rw [h0]
    omega
  · show tb (leVal ((bs.drop (8 * 2)).take 8)) 19 = false
    rw [h2, tb, hskip]
    rfl
  · show bits (leVal ((bs.drop (8 * 3)).take 8)) 63 32 = t.done
    rw [h3, bits]
    omega

/-! ### Entering the handler (R315) -/

/-- A suspended group is one of the unit's others. -/
theorem ne_of_mem_suspendedBy {s : State} {gid m : Nat} {once : Bool} {sc : Scope} (h : m ∈ suspendedBy s gid once sc) : m ≠ gid := by
  simpa using (List.mem_filter.mp h).2

/-- The groups that a fault suspends, each waiting for the group of the fault. -/
def suspendAll (s : State) (gid : Nat) (l : List Nat) : State :=
  l.foldl (fun st m => st.modGroup m fun g => { g with susp := g.susp ++ [gid] }) s

/-- A suspension adds to who a group waits for, and changes nothing else of it. -/
theorem group_suspendAll (s : State) (gid : Nat) (l : List Nat) (k : Nat) :
    (suspendAll s gid l).group k = (s.group k).map fun g => { g with susp := g.susp ++ List.replicate (l.count k) gid } := by
  induction l generalizing s with
  | nil => simp [suspendAll]
  | cons m l ih =>
    refine (ih _).trans ?_
    rw [group_modGroup]
    by_cases hk : k = m
    · subst hk
      cases s.group k <;> simp [List.replicate_succ]
    · simp [hk, Ne.symm hk]

@[simp] theorem suspendAll_mem (s : State) (gid : Nat) (l : List Nat) : (suspendAll s gid l).mem = s.mem := by
  induction l generalizing s with
  | nil => rfl
  | cons m l ih => exact (ih _).trans (modGroup_mem _ _ _)

/-- A count of quires changes the narrow groups and the count alone. -/
theorem quireBegun_eq (l : Launch) (slices cause : Nat) (g : Group) :
    ∃ ns q, quireBegun l slices cause g = { g with narrows := ns, quires := q } := by
  unfold quireBegun
  dsimp only
  split
  · exact ⟨_, _, rfl⟩
  · exact ⟨_, _, rfl⟩

/-- A value that is not the default, put at some keys of a list, is what each of them reads. -/
theorem get_foldl_set {α : Type} [DecidableEq α] {d b : α} (hb : b ≠ d) (p : Nat → Bool) (l : List Nat) (m : FMap α) (k : Nat) :
    FMap.get d (l.foldl (fun m j => if p j then FMap.set d m j b else m) m) k =
      if k ∈ l ∧ p k = true then b else FMap.get d m k := by
  induction l generalizing m with
  | nil => simp
  | cons j l ih =>
    rw [List.foldl_cons, ih]
    by_cases hl : k ∈ l ∧ p k = true
    · simp [hl]
    · rw [if_neg hl]
      by_cases hk : k = j
      · subst hk
        cases hp : p k <;> simp [FMap.get_set_of_ne, hb]
      · have hj : FMap.get d (if p j then FMap.set d m j b else m) k = FMap.get d m k := by
          split
          · exact FMap.get_set_ne d m b hk
          · rfl
        simp [hj, hk, hl]

/-- An exception that its handler takes: no slot or transaction holds it, it is no machine check, and the frame is written (R315). -/
theorem takeTrap_enters {s s2 : State} {u : Ux} {h : Hdr} {once : Bool} {t : Trap} (hh : trapHeld s u.gid = false)
    (hc : t.cause / 32 ≠ 11) (hs : ((drainAll s u.gid).g u.gid).sys = false)
    (ht : ((drainAll s u.gid).core ((drainAll s u.gid).g u.gid).core).tvec ≠ 0)
    (hw : let s0 := drainAll s u.gid
      let g := s0.g u.gid
      vWrite s0 (s0.launchOf g.bid).ctx sysWrite (frameVa s0 g) (frameBytes g (g.nar u.slices) u h once t) g.bid g.bcore = some s2) :
    takeTrap s u h once t =
      enterHandler s2 u h once t ((drainAll s u.gid).core ((drainAll s u.gid).g u.gid).core).tvec.toNat := by
  dsimp only at hw
  simp only [takeTrap, hh, hs, beq_iff_eq, hc, ht, hw, Bool.false_eq_true, if_false]

/-- A group in its handler: its PCs and narrow groups are held aside, and one narrow group of all its threads runs from TVEC. -/
def Group.inHandler (g : Group) (u : Ux) (h : Hdr) (once : Bool) (t : Trap) (members : List Nat) (tvec : Nat) : Group :=
  { g with
    held := some { pcs := g.pcs, narrows := g.narrows, members := members, trap := t, wide := once,
                   scope := h.scope, slices := u.slices, rv := g.rv }
    rv := none
    narrows := [Narrow.fresh 255]
    pcs := (List.range 32).foldl (fun m k => if g.alive.getLsbD k then FMap.set 0 m k tvec else m) g.pcs
    t := []
    sys := true
    stepDue := false
    handling := false
    replay := none }

/-- What a group's own entry into its handler makes of it (R315). -/
theorem enterHandler_g {s : State} {u : Ux} {h : Hdr} {once : Bool} {t : Trap} {tvec : Nat} (hs : (s.group u.gid).isSome = true) :
    let l := suspendedBy s u.gid once h.scope
    (enterHandler s u h once t tvec).g u.gid =
      (quireBegun (s.launchOf (s.g u.gid).bid) u.slices t.cause (s.g u.gid)).inHandler u h once t l tvec := by
  intro l
  have hself : u.gid ∉ l := fun hm => ne_of_mem_suspendedBy hm rfl
  have hgroup : (suspendAll s u.gid l).group u.gid = s.group u.gid := by
    simp [group_suspendAll, List.count_eq_zero_of_not_mem hself]
  have hg : (suspendAll s u.gid l).g u.gid = s.g u.gid := congrArg (·.getD Group.blank) hgroup
  refine (g_modGroup_self (suspendAll s u.gid l) _ (by rwa [hgroup])).trans ?_
  rw [hg]
  rfl

/-- A group that a fault suspends stands as before, and waits for the group of the fault (R179). -/
theorem enterHandler_suspended {s : State} {u : Ux} {h : Hdr} {once : Bool} {t : Trap} {tvec m : Nat}
    (hm : m ∈ suspendedBy s u.gid once h.scope) :
    (enterHandler s u h once t tvec).group m = (s.group m).map fun g =>
      { g with susp := g.susp ++ List.replicate ((suspendedBy s u.gid once h.scope).count m) u.gid } := by
  refine Eq.trans ?_ (group_suspendAll s u.gid (suspendedBy s u.gid once h.scope) m)
  exact (group_modGroup _ _ _ _).trans (if_neg (ne_of_mem_suspendedBy hm))

/-- An exception that its handler takes leaves the group in it, its own registers kept, and the suspended groups waiting (R315). -/
theorem handlerEntry : HandlerEntry := by
  intro s s2 u h once t s0 g g2 tvec hh hc hs ht hsome hw t1 g1 begun
  have ht1 : t1 = enterHandler s2 u h once t tvec.toNat := takeTrap_enters hh hc hs ht hw
  have hg1 : g1 = begun.inHandler u h once t (suspendedBy s2 u.gid once h.scope) tvec.toNat := by
    simp only [g1, ht1]
    exact enterHandler_g hsome
  obtain ⟨ns, q, hq⟩ : ∃ ns q, begun = { g2 with narrows := ns, quires := q } := quireBegun_eq _ _ _ _
  have htv : tvec.toNat ≠ 0 := fun h0 => ht (BitVec.eq_of_toNat_eq h0)
  rw [hg1, hq]
  refine ⟨rfl, rfl, rfl, fun k hk ha => ?_, ⟨_, rfl, rfl, rfl, rfl, rfl, rfl⟩, rfl, rfl, rfl, rfl, rfl, rfl, rfl, rfl, ?_, ?_, ?_⟩
  · exact (get_foldl_set htv _ _ _ k).trans (if_pos ⟨List.mem_range.mpr hk, ha⟩)
  · rw [ht1]
    exact (modGroup_mem _ _ _).trans (suspendAll_mem _ _ _)
  · rw [ht1]
    rfl
  · intro m hm
    have hgm := enterHandler_suspended (t := t) (tvec := tvec.toNat) hm
    rw [← ht1] at hgm
    refine ⟨by rw [hgm, Option.isSome_map], fun hx => ?_⟩
    obtain ⟨x, hx⟩ := Option.isSome_iff_exists.mp hx
    have hn := List.count_pos_iff.mpr hm
    simp only [State.g, hgm, hx, Option.map_some, Option.getD_some, List.mem_append, List.mem_replicate]
    exact .inr ⟨by omega, trivial⟩

/-! ### The wait (R50, R54) -/

@[simp] theorem park_group (s : State) (u : Ux) (w : Wait) (k : Nat) :
    (park s u w).group k = (s.modGroup u.gid fun g => g.modNar u.slices fun n => { n with st := .parked, why := w }).group k := rfl

/-- While something of an exception is held its unit waits (R50, R54). -/
theorem takeTrap_held {s : State} {u : Ux} {h : Hdr} {once : Bool} {t : Trap} (hh : trapHeld s u.gid = true) :
    takeTrap s u h once t = deferTrap s u t := by
  simp only [takeTrap, hh, if_true]

/-- An exception that is held changes the unit's narrow group and its replay alone (R50, R54, R317). -/
theorem handlerWaits : HandlerWaits := by
  intro s u h once t hh t1
  have ht : t1 = deferTrap s u t := takeTrap_held hh
  cases hd : t.done == 0 with
  | true =>
    have hp : t1 = park s u .slot := by simp [ht, deferTrap, hd]
    refine ⟨by rw [hp]; rfl, by rw [hp]; simp [park], by rw [hp]; simp [park], fun _ => hp, fun hn => ?_⟩
    exact absurd (by simpa using hd) hn
  | false =>
    have hp : t1 = (park s u .slot).modGroup u.gid fun g => { g with replay := some { slices := u.slices, done := t.done } } := by
      simp [ht, deferTrap, hd]
    refine ⟨by rw [hp, modGroup_cur]; rfl, by rw [hp]; simp [park], by rw [hp]; simp [park], fun h0 => ?_, fun _ hs => ?_⟩
    · simp [h0] at hd
    · rw [hp, g_modGroup_self _ _ (by simpa [group_modGroup] using hs)]

/-- Settles O46: the group in its handler by `enterHandler_g`, its frame by `frameReadsBack`, its wait by `takeTrap_held`. -/
theorem trapEntry : Obligations.TrapEntry := ⟨handlerEntry, frameReadsBack, handlerWaits⟩

end Sys2Proof.Machine
end

section
/-!
PROOFS. The commands of the slots, events and signals (R57 to R59, R118, R452 to R455).
-/

namespace Sys2Proof.Machine

open Sys2Proof.Claims

/-! ### What a body's answer makes of the instruction -/

section
variable {i : Instr} {h : Hdr} {sh : State → Shape} {ok : State → Ux → Prop} {body : Ux → State → Res}

/-- An instruction whose body answers an effect under a condition completes with it. -/
theorem commits_of_body {e : State → Ux → Eff} (hx : ∀ s, exec i s = issue h (sh s) s body)
    (hb : ∀ s u, ok s u → body u s = .ok (e s u)) : Commits i h sh ok e := fun s s1 u hr ho hf =>
  (hx s).trans (issue_done hr (hb s1 u ho) hf)

/-- One whose body answers a trap under a condition takes it. -/
theorem traps_of_body {t : State → Ux → Trap} (hx : ∀ s, exec i s = issue h (sh s) s body)
    (hb : ∀ s u, ok s u → body u s = .error (.trap (t s u))) : Traps i h sh ok t := fun s s1 u hr ho =>
  (hx s).trans (issue_stop hr (hb s1 u ho))

/-- One whose body answers a wait under a condition parks. -/
theorem parks_of_body {w : State → Ux → Wait} (hx : ∀ s, exec i s = issue h (sh s) s body)
    (hb : ∀ s u, ok s u → body u s = .error (.wait (w s u))) : Parks i h sh ok w := fun s s1 u hr ho =>
  (hx s).trans (issue_stop hr (hb s1 u ho))

end

/-- What orders the unit's older accesses goes on after them where none is held. -/
theorem ordered_free {s : State} {u : Ux} {k : State → Res} (h : unitHeld s u = false) : ordered s u k = k (drainUnit s u) := by
  simp [ordered, h]

/-- Settles O26: each body answers what its clause names, by the tests that the clause's condition decides. -/
theorem slotsEventsSignals : Obligations.SlotsEventsSignals := by
  unfold Obligations.SlotsEventsSignals
  intro h a f
  dsimp only
  refine ⟨?_, ?_, ?_, ?_, ?_, ?_, ?_, fun x p => ?_⟩
  · exact commits_of_body (fun _ => rfl) fun s u _ => rfl
  · refine commits_of_body (fun _ => rfl) fun s u ⟨ha, ho, hw⟩ => ?_
    simp [ha, ho, hw]
  · refine traps_of_body (fun _ => rfl) fun s u ⟨ha, ho⟩ => ?_
    simp [ha, ho]
  · refine traps_of_body (fun _ => rfl) fun s u ⟨ha, ho, hw⟩ => ?_
    simp [ha, ho, hw]
  · refine commits_of_body (fun _ => rfl) fun s u ha => ?_
    simp [ha]
  · refine commits_of_body (fun _ => rfl) fun s u ⟨hh, ha, hr⟩ => ?_
    simp [ha, hr, ordered_free hh]
  · refine parks_of_body (fun _ => rfl) fun s u ⟨ha, hr⟩ => ?_
    simp [ha, hr]
  · refine commits_of_body (fun _ => rfl) fun s u ⟨hh, hw, ha, hx, hadd, hb⟩ => ?_
    obtain ⟨rest, hu⟩ : ∃ rest, u.active = p :: rest := List.head?_eq_some_iff.mp ha
    simp only [hu, hx, ordered_free hh, hw, hb, Bool.false_eq_true, if_false, storeNow, beq_iff_eq]
    cases hm : f.imm.getLsbD 0 with
    | false => simp
    | true => simp [(hadd hm).1, (hadd hm).2]

end Sys2Proof.Machine
end

section
/-!
PROOFS. The network instructions, the plane conversion and the pairing of cores (R313, R471, R474, R481 to R483).
-/

namespace Sys2Proof.Machine

open Sys2Proof.Claims

/-! ### Checks, budget and start of an array operation -/

theorem firstSome_eq_none {α : Type} {l : List (Option α)} : firstSome l = none ↔ ∀ x ∈ l, x = none := by
  induction l with
  | nil => simp [firstSome]
  | cons x l ih => cases x <;> simp [firstSome, ih]

/-- What the checks of an instruction leave where each of them passes. -/
theorem checked_passes {l : List (Option Nat)} {k : Res} (h : passes l) : checked l k = k := by
  simp [checked, firstSome_eq_none.mpr h]

theorem need_eq_none {c : Nat} {b : Bool} : need c b = none ↔ b = true := by cases b <;> simp [need]

@[simp] theorem passes_nil : passes [] := fun _ hx => absurd hx List.not_mem_nil

@[simp] theorem passes_cons {x : Option Nat} {l : List (Option Nat)} : passes (x :: l) ↔ x = none ∧ passes l := List.forall_mem_cons

@[simp] theorem passes_append {l r : List (Option Nat)} : passes (l ++ r) ↔ passes l ∧ passes r := List.forall_mem_append

theorem budgeted_over {s : State} {bid n : Nat} {k : Res} (h : overBudget s bid n = true) :
    budgeted s bid (some n) k = .error (.trap { cause := 289 }) := by
  simp [budgeted, h, trapOf]

theorem budgeted_affords {s : State} {bid : Nat} {charge : Option Nat} {k : Res}
    (h : ∀ n, charge = some n → overBudget s bid n = false) : budgeted s bid charge k = k := by
  cases charge with
  | none => rfl
  | some n => simp [budgeted, h n rfl]

/-- An array operation starts where its budget, its class and the unit's older accesses let it (R54, R108, R294). -/
theorem startX_opens {s : State} {u : Ux} {job : Job} {cores : List Nat} {charge : Nat} {bar evq : Option Nat}
    (h : arrayOpens charge s u) : startX u s job cores charge bar evq = .ok (arrayOpened s u job cores charge bar evq) := by
  obtain ⟨-, hc, hh⟩ := h
  simp [startX, ordered_free hh, Nat.not_le.mpr hc, arrayOpened]

/-! ### Shape records (R481) -/

theorem netRead_held {s : State} {u : Ux} {ea : Nat} (h : netHeld s u ea = true) : netRead s u ea = none := by
  simp [netRead, h]

theorem netRead_ok {s : State} {u : Ux} {ea : Nat} {bs : List Byte} (hh : netHeld s u ea = false) (hr : readNetRec s u ea = .ok bs)
    (hk : (netRec bs).ok = true) : netRead s u ea = some (netRec bs) := by
  simp [netRead, hh, hr, hk]

theorem netKnown_held {s : State} {u : Ux} {ea : Nat} {slA slB : Slot} (h : netHeld s u ea = true) :
    netKnown s u ea slA slB = none := by
  simp [netKnown, netRead_held h]

/-- The record that the slots give a charge with is the one at its address. -/
theorem netKnown_eq_some {s : State} {u : Ux} {ea : Nat} {slA slB : Slot} {r : NetRec} {bs : List Byte}
    (h : netKnown s u ea slA slB = some r) (hr : readNetRec s u ea = .ok bs) : r = netRec bs := by
  unfold netKnown netRead at h
  split at h
  · cases h
  · split at h
    · cases h
    · rw [hr] at h
      dsimp only at h
      split at h
      · exact (Option.some.inj h).symm
      · cases h

/-- The charge of a network that is known is that of the record at its address. -/
theorem netKnown_affords {s : State} {u : Ux} {bid ea : Nat} {slA slB : Slot} {bs : List Byte} {charge : NetRec → Nat}
    (hr : readNetRec s u ea = .ok bs) (ho : overBudget s bid (charge (netRec bs)) = false) :
    ∀ n, (netKnown s u ea slA slB).map charge = some n → overBudget s bid n = false := by
  intro n hn
  obtain ⟨r, hk, rfl⟩ := Option.map_eq_some_iff.mp hn
  rwa [netKnown_eq_some hk hr]

theorem netBad_ok {r : NetRec} {slA slB : Slot} (h : netBad r slA slB = none) : r.ok = true := by
  obtain ⟨⟨hr, -⟩, -⟩ : (r.ok = true ∧ _) ∧ _ := by simpa only [Bool.and_eq_true] using need_eq_none.mp h
  exact hr

/-! ### Plane conversion (R483) -/

/-- The panels of a plane conversion fit its weight region from their place on. -/
def plcvFits (s : State) (u : Ux) (f : FmtE) : Bool :=
  let j := jobOf s u 0xDA 3 f
  decide (1 ≤ j.w 2) &&
    decide (j.w 2 ≤ panelSpace (s.launchOf (s.g u.gid).bid) (j.w 1) (512 * (slotAt s u.gid (j.imm % 8)).panelRows))

/-- What PLCV answers for `n` panels, which fit or not: the body of `execPlcv` with its test of the count and the count apart. -/
def plcvAnswer (s : State) (u : Ux) (f : FmtE) (fits : Bool) (n : Nat) : Res :=
  let g := s.g u.gid
  let l := s.launchOf g.bid
  let j := jobOf s u 0xDA 3 f
  let sl := slotAt s u.gid (j.imm % 8)
  let elems := [(j.w 0, 16384 * n)]
  budgeted s g.bid (if fits && (slotFault sl sl.elem).isNone then some (16384 * n) else none) <|
    checked [slotFault sl sl.elem, need (c7 6) (panelsOk l (j.imm % 8) (j.w 1) n sl), elemClear l elems, elemInside l elems,
      need (engCause 2 6) (fits && sl.smode != 2), stashClear s g.bid g.bcore ((j.w 1, n * (512 * sl.panelRows)) :: elems)] <|
      startX u s j [g.core] (16384 * n) (if f.ben then some f.bar.toNat else none)
        (if f.evq then some (bits f.imm.toNat 15 0) else none)

theorem execPlcv_eq (h : Hdr) (f : FmtE) (s : State) : exec (.plcv h f) s = issue h (shapePlcv f) s fun u s =>
    if u.active.isEmpty then .ok { st := s }
    else plcvAnswer s u f (plcvFits s u f) (if plcvFits s u f then (jobOf s u 0xDA 3 f).w 2 else 1) := rfl

section
variable {s : State} {u : Ux} {f : FmtE} {n : Nat}

/-- The slot of a plane conversion. -/
abbrev plcvSlot (s : State) (u : Ux) (f : FmtE) : Slot := slotAt s u.gid ((jobOf s u 0xDA 3 f).imm % 8)

/-- Panels that fit, of a slot in order, have a known charge, which comes first (R108, R313). -/
theorem plcvAnswer_over (hs : slotFault (plcvSlot s u f) (plcvSlot s u f).elem = none)
    (ho : overBudget s (s.g u.gid).bid (16384 * n) = true) : plcvAnswer s u f true n = .error (.trap { cause := 289 }) := by
  unfold plcvAnswer
  dsimp only
  rw [hs]
  exact budgeted_over ho

/-- Panels that fit a region are those that its space holds. -/
theorem plcvFits_of_region {r : Region}
    (hf : let j := jobOf s u 0xDA 3 f
      (s.launchOf (s.g u.gid).bid).regs.find? (fun r => r.kind == 2 && 512 * r.base ≤ j.w 1 && j.w 1 < 512 * (r.base + r.rows)) = some r)
    (h1 : 1 ≤ (jobOf s u 0xDA 3 f).w 2)
    (h2 : (jobOf s u 0xDA 3 f).w 2 ≤ (512 * (r.base + r.rows) - (jobOf s u 0xDA 3 f).w 1) / (512 * (plcvSlot s u f).panelRows)) :
    plcvFits s u f = true := by
  refine Bool.and_eq_true_iff.mpr ⟨decide_eq_true h1, decide_eq_true ?_⟩
  rw [panelSpace, hf]
  exact h2

end

/-- Settles O30: each body answers what its clause names, once the clause's condition decides its budget and its checks. -/
theorem networksPlanesAndPairs : Obligations.NetworksPlanesAndPairs := by
  unfold Obligations.NetworksPlanesAndPairs
  intro h f e m
  dsimp only
  refine ⟨?_, ?_, ?_, ?_, ?_, ?_, ?_, ?_, ?_, ?_, ?_, ?_, ?_⟩
  · intro n
    refine traps_of_body (fun _ => rfl) fun s u ⟨ha, hc, ho⟩ => ?_
    simp only [List.isEmpty_iff, ha, if_false, hc, budgeted_over ho]
  · intro n
    refine traps_of_body (fun _ => rfl) fun s u ⟨ha, hc, ho⟩ => ?_
    simp only [List.isEmpty_iff, ha, if_false, netrCharge, hc, budgeted_over ho]
  · intro n
    refine traps_of_body (execPlcv_eq h e) fun s u ⟨ha, hc, ho⟩ => ?_
    obtain ⟨hknown, hn⟩ := Option.ite_none_right_eq_some.mp hc
    obtain ⟨hfit, hs⟩ : plcvFits s u e = true ∧ _ := Bool.and_eq_true_iff.mp hknown
    rw [← Option.some.inj hn] at ho
    simp only [List.isEmpty_iff, ha, hfit, if_false, if_true]
    exact plcvAnswer_over (Option.isNone_iff_eq_none.mp hs) ho
  · intro bs c o
    refine traps_of_body (fun _ => rfl) fun s u ⟨ha, hc, hh, hr, hk, hw⟩ => ?_
    simp only [List.isEmpty_iff, ha, if_false]
    refine (budgeted_affords hc).trans ?_
    simp only [netRead_ok hh hr hk, Option.bind_some, netrWin, hw]
  · refine parks_of_body (fun _ => rfl) fun s u ⟨ha, hs, ht, hp, hh⟩ => ?_
    simp only [List.isEmpty_iff, ha, if_false, netKnown_held hh, Option.map_none, budgeted]
    rw [checked_passes (by simp [hs, need_eq_none, ht, hp]), if_pos hh]
  · refine parks_of_body (fun _ => rfl) fun s u ⟨ha, hs, hh⟩ => ?_
    simp only [List.isEmpty_iff, ha, if_false, netKnown_held hh, netRead_held hh, Option.map_none, Option.bind_none,
      checked_passes hs, hh, budgeted, if_true]
  · intro bs
    refine commits_of_body (fun _ => rfl) fun s u ⟨⟨ha, hs, hh, hr, hb, ho⟩, ht, hp, hst⟩ => ?_
    simp only [List.isEmpty_iff, ha, if_false, hh, hr, Bool.false_eq_true]
    rw [budgeted_affords (netKnown_affords hr ho.1), checked_passes (by simp [hs, need_eq_none, ht, hp]),
      checked_passes (by simp [hb, hst]), startX_opens ho]
    rfl
  · intro bs
    refine commits_of_body (fun _ => rfl) fun s u ⟨⟨ha, hs, hh, hr, hb, ho⟩, hw, hc⟩ => ?_
    simp only [List.isEmpty_iff, ha, if_false, hh, hr, Bool.false_eq_true]
    rw [budgeted_affords (netKnown_affords hr ho.1)]
    simp only [netRead_ok hh hr (netBad_ok hb), Option.bind_some, netrWin, hw, hc, checked_passes hs, netrCharge, startX_opens ho]
    rw [checked_passes (by simp [hb])]
    rfl
  · intro r
    refine commits_of_body (execPlcv_eq h e) fun s u ⟨ha, hsl, hf, h1, h2, hm, hp, hec, hei, hst, ho⟩ => ?_
    simp only [List.isEmpty_iff, ha, plcvFits_of_region hf h1 h2, if_false, if_true]
    rw [plcvAnswer, budgeted_affords, checked_passes, startX_opens ho]
    · rfl
    · simp only [passes_cons, passes_nil, and_true, need_eq_none]
      exact ⟨hsl, hp, hec, hei, by simpa [jobOf] using hm, hst⟩
    · intro n hn
      rw [← Option.some.inj (Option.ite_none_right_eq_some.mp hn).2]
      exact ho.1
  · refine commits_of_body (fun _ => rfl) fun s u ⟨ha, he, ⟨c, hc, hcc⟩, hb⟩ => ?_
    simp only [List.isEmpty_iff, ha, if_false]
    rw [checked_passes (by simpa [need_eq_none, he, hb] using ⟨c, hc, hcc⟩)]
  · refine commits_of_body (fun _ => rfl) fun s u ⟨ha, he, hb, hp⟩ => ?_
    simp only [List.isEmpty_iff, ha, if_false]
    rw [checked_passes (by simp [need_eq_none, he])]
    simp [hb, hp]
  · refine parks_of_body (fun _ => rfl) fun s u ⟨ha, he, hb, hp⟩ => ?_
    simp only [List.isEmpty_iff, ha, if_false]
    rw [checked_passes (by simp [need_eq_none, he])]
    simp [hb, hp]
  · refine traps_of_body (fun _ => rfl) fun s u ⟨ha, he⟩ => ?_
    simp [ha, he, checked, need, firstSome, trapOf, c7]

end Sys2Proof.Machine
end

section
/-!
PROOFS. The checks of an encoded instruction in their order (R50, R108, R176 to R180, R313, R356).
-/

namespace Sys2Proof.Machine

open Sys2Proof.Claims

/-! ### Admission (R313, R356) -/

section
variable {g : Group} {h : Hdr} {sh : Shape}

/-- No member of a set is missing: the instruction is not of set scope, or its group is in a set (R356). -/
theorem setNamed_false (h2 : h.scope = .set → g.set ≠ none) : (h.scope == .set && g.set.isNone) = false := by
  rw [Bool.and_eq_false_imp]
  exact fun hs => by simpa [Option.isNone_eq_false_iff, Option.isSome_iff_ne_none] using h2 (beq_iff_eq.mp hs)

/-- The mode is that which the instruction asks for (R313). -/
theorem modeOk_iff : ((sh.sys = true → g.sys = true) ∧ (sh.barred = true → g.sys = false)) ↔
    ((sh.sys && !g.sys) || (sh.barred && g.sys)) = false := by
  cases sh.sys <;> cases sh.barred <;> cases g.sys <;> decide

theorem admitCause_scope (h1 : h.scope ∉ sh.scopes) : admitCause g h sh = some { cause := 4 } := by
  simp [admitCause, h1]

theorem admitCause_set (h1 : h.scope ∈ sh.scopes) (h2 : ¬ (h.scope = .set → g.set ≠ none)) :
    admitCause g h sh = some { cause := 5 } := by
  obtain ⟨hs, hg⟩ := Classical.not_imp.mp h2
  rw [hs] at h1
  simp [admitCause, h1, hs, not_ne_iff.mp hg]

section
variable (h1 : h.scope ∈ sh.scopes) (h2 : h.scope = .set → g.set ≠ none)
include h1 h2

theorem admitCause_role (h3 : g.role ∉ sh.roles) : admitCause g h sh = some { cause := 3 } := by
  simp only [admitCause, List.contains_eq_mem, h1, setNamed_false h2, h3, decide_true, decide_false, Bool.not_true,
    Bool.not_false, Bool.false_eq_true, if_false, if_true]

theorem admitCause_field (h3 : g.role ∈ sh.roles) {c : Nat} (h4 : sh.fieldCause = some c) :
    admitCause g h sh = some { cause := c } := by
  simp only [admitCause, List.contains_eq_mem, h1, setNamed_false h2, h3, h4, decide_true, Bool.not_true, Bool.false_eq_true,
    if_false]

/-- With every field in order the mode decides (R313). -/
theorem admitCause_by_mode (h3 : g.role ∈ sh.roles) (h4 : sh.fieldCause = none) :
    admitCause g h sh = if (sh.sys && !g.sys) || (sh.barred && g.sys) then some { cause := 0x140 } else none := by
  simp only [admitCause, List.contains_eq_mem, h1, setNamed_false h2, h3, h4, decide_true, Bool.not_true, Bool.false_eq_true,
    if_false]

theorem admitCause_mode (h3 : g.role ∈ sh.roles) (h4 : sh.fieldCause = none)
    (h5 : ¬ ((sh.sys = true → g.sys = true) ∧ (sh.barred = true → g.sys = false))) : admitCause g h sh = some { cause := 0x140 } :=
  (admitCause_by_mode h1 h2 h3 h4).trans (if_pos (by rwa [← Bool.not_eq_false, ← modeOk_iff]))

theorem admitCause_none (h3 : g.role ∈ sh.roles) (h4 : sh.fieldCause = none)
    (h5 : (sh.sys = true → g.sys = true) ∧ (sh.barred = true → g.sys = false)) : admitCause g h sh = none :=
  (admitCause_by_mode h1 h2 h3 h4).trans (if_neg (by rwa [Bool.not_eq_true, ← modeOk_iff]))

end
end

/-- The quire after QMAX, at its first instruction, takes 9.0 (R108, R311). -/
theorem budgetTrap_due {l : Launch} {g : Group} {n : Narrow} (hc : l.cls = 0) (hi : n.idx = 0) (hb : n.begun = false)
    (hq : g.quires = l.qmax) : budgetTrap l g n = some { cause := 0x120, info := g.quires + 1 } := by
  simp [budgetTrap, quiresNow, hc, hi, hb, hq]

/-! ### Issue and arrival (R176 to R180) -/

section
variable {s : State} {h : Hdr} {sh : Shape} {body : Ux → State → Res} {gid slices : Nat} (hc : s.cur = some (gid, slices))
include hc

/-- An instruction that is not admitted takes the trap of its check. -/
theorem issue_not_admitted {t : Trap} (ha : admitCause (s.g gid) h sh = some t) :
    issue h sh s body = .next (takeTrap s (soloUnit s h gid slices) h false t) := by
  simp only [issue, hc, issueFrom, ha]

section
variable (ha : admitCause (s.g gid) h sh = none)
include ha

theorem issue_over_budget {t : Trap} (hb : budgetTrap (s.launchOf (s.g gid).bid) (s.g gid) ((s.g gid).nar slices) = some t) :
    issue h sh s body = .next (takeTrap s (soloUnit s h gid slices) h false t) := by
  simp only [issue, hc, issueFrom, ha, hb]

/-- An admitted instruction of a wider scope arrives at its rendezvous. -/
theorem issue_arrives (hb : budgetTrap (s.launchOf (s.g gid).bid) (s.g gid) ((s.g gid).nar slices) = none) (hl : h.scope ≠ .lane) :
    issue h sh s body = .next (arrive s (soloUnit s h gid slices) h sh body) := by
  simp only [issue, hc, issueFrom, ha, hb, beq_iff_eq, hl, if_false]

end
end

section
variable {s : State} {u : Ux} {h : Hdr} {sh : Shape} {body : Ux → State → Res}

/-- An open rendezvous of the unit that stands elsewhere traps it, the first of them in order (R178). -/
theorem arrive_elsewhere {a b : List Rendezvous} {r : Rendezvous} (ho : openRvs s u.gid h.scope = a ++ r :: b)
    (ha : ∀ x ∈ a, ¬ x.pc ≠ u.pc) (hr : r.pc ≠ u.pc) :
    arrive s u h sh body = takeTrap s u h false
      { cause := 160 + (if h.scope = .set then 1 else if h.scope = .block then 2 else 0), info := r.pc } := by
  have hm : mismatch s u h = some r := by
    refine List.find?_eq_some_iff_append.mpr ⟨by simpa using hr, a, b, ho, fun x hx => by simpa using ha x hx⟩
  simp only [arrive, hm]
  cases h.scope <;> rfl

theorem mismatch_none (ho : ∀ x ∈ openRvs s u.gid h.scope, ¬ x.pc ≠ u.pc) : mismatch s u h = none :=
  List.find?_eq_none.mpr fun x hx => by simpa using ho x hx

/-- Every member of the unit has arrived with this narrow group's arrival (R176). -/
abbrev lastArrival (s : State) (u : Ux) (h : Hdr) (sh : Shape) : Bool :=
  allArrived s (s.g u.gid).bid u.pc (wideMembers s u.gid h.scope sh.perCore) (arrivals s u h sh)

theorem wideUnit_none (hl : lastArrival s u h sh = false) : wideUnit s u h sh = none := by
  unfold wideUnit
  exact if_neg (by simpa using hl)

theorem wideUnit_isSome (hl : lastArrival s u h sh = true) : (wideUnit s u h sh).isSome = true := by
  unfold wideUnit
  exact (congrArg Option.isSome (if_pos hl)).trans rfl

section
variable (hm : mismatch s u h = none)
include hm

/-- An arrival across a die edge waits for the end of a slot (R180). -/
theorem arrive_across (he : edgeHeld s u.gid h sh = true) (hx : acrossEdge s u.gid = true) :
    arrive s u h sh body = park s u .slot := by
  simp only [arrive, hm, he, hx, Bool.and_self, if_true]

/-- A member that arrives before the last one waits (R176). -/
theorem arrive_early (he : ¬ (edgeHeld s u.gid h sh = true ∧ acrossEdge s u.gid = true)) (hl : lastArrival s u h sh = false) :
    arrive s u h sh body = arriveParked s u h sh .rendezvous := by
  simp only [arrive, hm, Bool.and_eq_true, he, if_false, wideUnit_none hl]

/-- A once-execution on both sides of a die edge waits for the end of a slot (R180). -/
theorem arrive_held (he : edgeHeld s u.gid h sh = true) (hx : acrossEdge s u.gid = false) (hl : lastArrival s u h sh = true) :
    arrive s u h sh body = arriveParked s u h sh .slot := by
  obtain ⟨x, hw⟩ := Option.isSome_iff_exists.mp (wideUnit_isSome hl)
  simp only [arrive, hm, he, hx, Bool.and_false, Bool.false_eq_true, if_false, hw, if_true]

end
end

/-! ### The budget before the registers (R313) -/

section
variable {s : State} {u : Ux} {h : Hdr} {sh : Shape} {body : Ux → State → Res}

/-- The stop of the register checks stands, but where the body answers the trap of the async budget. -/
theorem firstStop_stands {r : Res} {st : Stop} (hg : regStop s u sh = some st) (hb : isBudget r = false ∨ ∀ t, st ≠ .trap t) :
    firstStop s u sh r = some st := by
  rcases hb with hb | hb
  · exact firstStop_some hg hb
  · unfold firstStop
    rw [hg]
    cases st with
    | trap t => exact absurd rfl (hb t)
    | partly t s' => rfl
    | wait w => rfl

/-- The trap of the async budget comes before a register's own, where the registers of the charge are full. -/
theorem runUnit_budget {t : Trap} (hb : body u s = .error (.trap t)) (ht : t.cause = 0x121)
    (hf : (sh.srcs.flatMap fun x => emptyCells s x u.active) = []) (hw : ∀ w, regStop s u sh ≠ some (.wait w))
    (hp : ∀ x s2, regStop s u sh ≠ some (.partly x s2)) : runUnit s u h sh body = takeTrap s u h (h.scope != .lane) t := by
  have hbf : budgetFirst s u sh (.error (.trap t)) = true := by simp [budgetFirst, isBudget, ht, hf]
  unfold runUnit
  cases hg : regStop s u sh with
  | none => simp only [firstStop_none hg, hb, stopUnit]
  | some st =>
    cases st with
    | trap c => simp only [firstStop, hg, hb, hbf, if_true, stopUnit]
    | partly x s2 => exact absurd hg (hp x s2)
    | wait w => exact absurd hg (hw w)

end

/-- Settles O48: the admission by the lemmas of `admitCause`, the rendezvous by those of `arrive`, and the unit that executes by
`firstStop_stands` and `runUnit_budget`. -/
theorem checksInOrder : Obligations.ChecksInOrder := by
  unfold Obligations.ChecksInOrder
  intro h sh s body gid slices g u trap scopeOk setOk roleOk modeOk admitted elsewhere here hc
  refine ⟨fun h1 => ?_, fun h1 h2 => ?_, fun h1 h2 h3 => ?_, fun h1 h2 h3 c h4 => ?_, fun h1 h2 h3 h4 h5 => ?_, ?_, ?_,
    fun s1 u1 hx => ⟨fun st hg hb => ?_, fun t hb ht hf hw hp => ?_⟩⟩
  · exact issue_not_admitted hc (admitCause_scope h1)
  · exact issue_not_admitted hc (admitCause_set h1 h2)
  · exact issue_not_admitted hc (admitCause_role h1 h2 h3)
  · exact issue_not_admitted hc (admitCause_field h1 h2 h3 h4)
  · exact issue_not_admitted hc (admitCause_mode h1 h2 h3 h4 h5)
  · intro ⟨h1, h2, h3, h4, h5⟩ hcls hi hb hq
    exact issue_over_budget hc (admitCause_none h1 h2 h3 h4 h5) (budgetTrap_due hcls hi hb hq)
  · intro ⟨h1, h2, h3, h4, h5⟩ hb hl
    have hi := issue_arrives (body := body) hc (admitCause_none h1 h2 h3 h4 h5) hb hl
    refine ⟨fun a r b ho ha hr => hi.trans (congrArg _ (arrive_elsewhere ho ha hr)), fun ho => ?_⟩
    have hm : mismatch s u h = none := mismatch_none ho
    exact ⟨fun he hx => hi.trans (congrArg _ (arrive_across hm he hx)), fun he hn => hi.trans (congrArg _ (arrive_early hm he hn)),
      fun he hx hn => hi.trans (congrArg _ (arrive_held hm he hx hn))⟩
  · rw [issue_runs hx, runUnit, firstStop_stands hg hb]
  · exact (issue_runs hx).trans (congrArg _ (runUnit_budget hb ht hf hw hp))

end Sys2Proof.Machine
end

section
/-!
PROOFS. The steps of the draw engine on the tiles of a draw, and of the ray engine on the rays of a thread (R133 to R160, R494, R502).
-/

namespace Sys2Proof.Machine

open Sys2Proof.Claims

/-! ### Hit dispatch (R157, R496) -/

/-- A list of one value, repeats taken out, is that value. -/
theorem eraseDups_eq_singleton {α : Type} [BEq α] [LawfulBEq α] {l : List α} {a : α} (hne : l ≠ []) (h : ∀ x ∈ l, x = a) :
    l.eraseDups = [a] := by
  cases l with
  | nil => exact absurd rfl hne
  | cons b l =>
    rw [h b List.mem_cons_self, List.eraseDups_cons]
    have hl : (l.filter fun x => !x == a) = [] := List.filter_eq_nil_iff.mpr fun x hx => by simp [h x (List.mem_cons_of_mem b hx)]
    rw [hl, List.eraseDups_nil]

/-- A thread that calls a primitive's hit program: home group, lane and primitive, with its ray and the candidate. -/
abbrev HitCall := Nat × Nat × Nat × Ray × RayHit

/-- The threads of a dispatch may call hit programs at one PC, and their homes are groups of one block on one core (R157, R507). -/
def Dispatches (s : State) (bid core pc : Nat) (calls : List HitCall) : Prop :=
  ∀ x ∈ calls, callable s x.1 x.2.1 x.2.2.1 = some x.2.2.2 ∧ hitTarget x.2.2.2.1 x.2.2.2.2 = pc ∧
    (s.group x.1).isSome = true ∧ (s.g x.1).bid = bid ∧ (s.g x.1).core = core ∧ canLend s x.1 = true

/-- A call as HIT_DISPATCH names it: the number of its thread, and the primitive. -/
def HitCall.named (x : HitCall) : Nat × Nat := (32 * x.1 + x.2.1, x.2.2.1)

section
variable {s : State} {bid core pc : Nat} {calls : List HitCall} (hlane : ∀ x ∈ calls, x.2.1 < 32)
include hlane

/-- The number of a thread holds its home group and its lane. -/
theorem named_homes : (calls.map HitCall.named).map (fun x => x.1 / 32) = calls.map (·.1) := by
  rw [List.map_map]
  refine List.map_congr_left fun x hx => ?_
  have := hlane x hx
  simp only [Function.comp, HitCall.named]
  omega

theorem named_lanes : (calls.map HitCall.named).map (fun x => (x.1 / 32, x.1 % 32)) = calls.map fun x => (x.1, x.2.1) := by
  rw [List.map_map]
  refine List.map_congr_left fun x hx => ?_
  have := hlane x hx
  simp only [Function.comp, HitCall.named, Prod.mk.injEq]
  omega

/-- The ray and the candidate of each call are found. -/
theorem named_found (hok : Dispatches s bid core pc calls) :
    (calls.map HitCall.named).map (fun x => (callable s (x.1 / 32) (x.1 % 32) x.2).map fun r => (x.1 / 32, r)) =
      calls.map fun x => some (x.1, x.2.2.2) := by
  rw [List.map_map]
  refine List.map_congr_left fun x hx => ?_
  have h1 : (32 * x.1 + x.2.1) / 32 = x.1 := by have := hlane x hx; omega
  have h2 : (32 * x.1 + x.2.1) % 32 = x.2.1 := by have := hlane x hx; omega
  simp only [Function.comp, HitCall.named, h1, h2, (hok x hx).1, Option.map_some]

/-- Calls of one target, in rising order of their threads, are dispatched (R157, R507). -/
theorem execHitDispatch_calls (hf : s.host.fatal = none) (hne : calls ≠ []) (hlen : calls.length ≤ 32)
    (hrise : rising (calls.map fun x => 32 * x.1 + x.2.1) = true) (hok : Dispatches s bid core pc calls) :
    let s1 := calls.foldl (fun st x => modRay st x.1 x.2.2.2.1 fun y =>
      { y with cand := some x.2.2.2.2, seen := y.seen ++ [x.2.2.2.2.prim] }) s
    execHitDispatch bid core (calls.map HitCall.named) s = .next
      { s1.setGroup (gidOf s.nextBlock 0) (hitGroup s (calls.map fun x => (x.1, x.2.1)) pc) with nextBlock := s.nextBlock + 1 } := by
  have hcalls : (calls.map fun x : HitCall => some (x.1, x.2.2.2)).filterMap id = calls.map fun x => (x.1, x.2.2.2) := by
    rw [List.filterMap_map]
    exact congrFun List.filterMap_eq_map' calls
  have htargets : ((calls.map fun x : HitCall => (x.1, x.2.2.2)).map fun x => hitTarget x.2.1 x.2.2).eraseDups = [pc] := by
    refine eraseDups_eq_singleton (by simpa using hne) fun y hy => ?_
    rw [List.map_map] at hy
    obtain ⟨x, hx, rfl⟩ := List.mem_map.mp hy
    exact (hok x hx).2.1
  have hhomes : (calls.map (·.1)).eraseDups.all (fun g => (s.group g).isSome && (s.g g).bid == bid && (s.g g).core == core &&
      canLend s g) = true := by
    refine List.all_eq_true.mpr fun y hy => ?_
    obtain ⟨x, hx, rfl⟩ := List.mem_map.mp (List.mem_eraseDups.mp hy)
    obtain ⟨-, -, hs, hb, hc, hl⟩ := hok x hx
    simp [hs, hb, hc, hl]
  have hrays : rising ((calls.map HitCall.named).map (·.1)) = true := by rwa [List.map_map]
  have hfound : (calls.map fun x : HitCall => some (x.1, x.2.2.2)).all Option.isSome = true := by simp
  unfold execHitDispatch
  rw [working_runs hf, named_homes hlane, named_lanes hlane, named_found hlane hok]
  simp only [hcalls, htargets, hhomes, hrays, hfound, List.length_map, hlen, List.isEmpty_map, List.isEmpty_eq_false_iff.mpr hne,
    decide_true, Bool.not_false, Bool.and_self, List.foldl_map]

end

/-- Settles O60: the condition of each clause decides the tests of its step; hit dispatch by `execHitDispatch_calls`. -/
theorem drawAndRaySteps : Obligations.DrawAndRaySteps := by
  unfold Obligations.DrawAndRaySteps
  intro k d
  dsimp only
  refine ⟨?_, ?_, ?_, ?_, ?_, ?_, ?_, ?_, ?_, ?_, ?_, ?_⟩
  · refine works_of_working (fun _ => rfl) fun s ⟨⟨hd, he⟩, hr⟩ => ?_
    simp only [hd]
    exact if_neg (by simp [he, hr])
  · intro p rest hq hf
    refine ⟨fun ht => ?_, fun ht hn => ?_, fun ht hn hu => ?_, fun ht hu => ?_⟩
    · refine works_of_working (fun _ => rfl) fun s ⟨hd, he⟩ => ?_
      simp [hd, hq, hf, he, ht]
    · refine works_of_working (fun _ => rfl) fun s ⟨hd, he⟩ => ?_
      simp [hd, hq, hf, he, ht, hn]
    · refine works_of_working (fun _ => rfl) fun s ⟨hd, he⟩ => ?_
      simp [hd, hq, hf, he, ht, hu, Nat.not_lt.mpr hn]
    · refine works_of_working (fun _ => rfl) fun s ⟨⟨hd, he⟩, hm⟩ => ?_
      simp only [hd, hq, hf, he]
      rw [if_neg (by simp), if_neg (by simpa using ht), if_neg (by omega), if_neg (by omega), if_neg (by simp [hm])]
      rfl
  · intro hf hu
    refine works_of_working (fun _ => rfl) fun s ⟨hd, he⟩ => ?_
    simp [hd, hf, he, hu]
  · intro d1 hf hu ht
    refine works_of_working (fun _ => rfl) fun s ⟨⟨hd, he⟩, hm, hl, h1⟩ => ?_
    simp only [hd]
    rw [if_neg (by simp [he, hf]), if_neg (by simpa using hu), if_neg]
    · simp only [h1]
    · simp only [hm, Bool.false_or, Bool.not_eq_true, Bool.not_eq_false', List.all_eq_true]
      intro i hi
      simp [ht i hi, hl i hi]
  · intro tile core s1 ht hc hst
    refine works_of_working (fun _ => rfl) fun s ⟨⟨hd, he⟩, hm, hon, hh⟩ => ?_
    simp only [hd]
    rw [if_neg]
    · simp only [hh]
    · rcases hst with hst | hst <;> simp [he, hon, hm, hst, Nat.not_le.mpr ht, Nat.not_le.mpr hc]
  · intro tile core ht hst ho hw
    refine works_of_working (fun _ => rfl) fun s ⟨⟨hd, he⟩, hm, hl, hs, hb⟩ => ?_
    simp only [hd]
    refine if_neg ?_
    rcases hb with hb | hb <;> simp [he, hm, hst, ho, hw, hl, hs, hb, Nat.not_le.mpr ht]
  · intro tile gid g q b ht hst ho hn
    refine works_of_working (fun _ => rfl) fun s ⟨⟨hd, he⟩, hg, hr, hw⟩ => ?_
    simp only [hd, hg]
    rw [if_neg]
    · simp only [hn]
    · simpa [he, hst, ho, hr, Nat.not_le.mpr ht] using hw
  · intro hb hf hq
    refine works_of_working (fun _ => rfl) fun s ⟨⟨hd, he⟩, hn, hm⟩ => ?_
    simp only [hd]
    exact if_neg (by simp [he, hb, hf, hq, hn, hm])
  · intro tile ht
    refine works_of_working (fun _ => rfl) fun s ⟨hd, hm, hl⟩ => ?_
    simp only [hd]
    rw [if_neg (by simp [hm, ht, hl])]
    exact (apply_ite Host.Outcome.next _ _ _).symm
  · intro gid lane r c rest hs
    refine works_of_working (fun _ => rfl) fun s hr => ?_
    simp only [hr, hs]
  · intro gid lane r
    refine works_of_working (fun _ => rfl) fun s ⟨hr, hh⟩ => ?_
    simp only [hr]
    exact if_neg (by simpa using hh)
  · intro bid core pc calls hne hlen hrise hlane s ⟨hf, hok⟩
    exact execHitDispatch_calls hlane hf hne hlen hrise hok

end Sys2Proof.Machine
end

section
/-!
PROOFS. The invariant that every step leaves: after a fatal error no unit holds the issue slot, and a wave whose group holds no
thread has ended (R82, R148).
-/

namespace Sys2Proof.Machine

open Sys2Proof.Claims

/-- Waves whose groups hold no thread end in every draw (R148). -/
theorem draw_settleDraws (s : State) (k : Nat) : (settleDraws s).draw k = (s.draw k).map (settleDraw s) := by
  unfold settleDraws
  split
  · next h => simp [State.draw, List.isEmpty_iff.mp h]
  · exact FMap.get_map (fun _ d => d.map (settleDraw s)) (fun _ => rfl) s.draws k

theorem settleDraws_groups (s : State) : (settleDraws s).groups = s.groups := by
  unfold settleDraws; split <;> rfl

theorem recountAll_draws (s : State) : (recountAll s).draws = s.draws :=
  foldl_keeps (·.draws) (fun st (e : Nat × DieRec) => if within 1 3 e.2.st then recount st e.1 e.2.st else st)
    (fun s e => by split <;> rfl) s.pkg.dies s

theorem recountAll_groups (s : State) : (recountAll s).groups = s.groups :=
  foldl_keeps (·.groups) (fun st (e : Nat × DieRec) => if within 1 3 e.2.st then recount st e.1 e.2.st else st)
    (fun s e => by split <;> rfl) s.pkg.dies s

/-- A wave of a settled draw has ended where its group holds no thread. -/
theorem ended_of_mem_settleDraw {s : State} {d : Draw} {w : Wave} (hw : w ∈ (settleDraw s d).waves)
    (h0 : (s.g w.gid).alive = 0) : w.ended = true := by
  obtain ⟨x, -, rfl⟩ := List.mem_map.mp hw
  by_cases hx : ((s.g x.gid).alive == 0) = true
  · rw [if_pos hx]
  · rw [if_neg hx] at h0
    exact absurd (beq_iff_eq.mpr h0) hx

/-- Every wave has ended whose group holds no thread, in every draw (R148). -/
def WavesEnded (s : State) : Prop :=
  ∀ k d, s.draw k = some d → ∀ w ∈ d.waves, (s.g w.gid).alive = 0 → w.ended = true

/-- It speaks of the draws and the groups alone. -/
theorem WavesEnded.congr {s t : State} (h : WavesEnded s) (hd : t.draws = s.draws) (hg : t.groups = s.groups) : WavesEnded t := by
  intro k d hk w hw h0
  rw [State.draw, hd] at hk
  rw [g_congr hg] at h0
  exact h k d hk w hw h0

theorem settleDraws_wavesEnded (s : State) : WavesEnded (settleDraws s) := by
  intro k d hk w hw h0
  rw [draw_settleDraws] at hk
  obtain ⟨x, -, rfl⟩ := Option.map_eq_some_iff.mp hk
  rw [g_congr (settleDraws_groups s)] at h0
  exact ended_of_mem_settleDraw hw h0

/-- Whatever state a step comes to, what follows from it at once leaves the invariant. -/
theorem settle_settled (s : State) : Settled (settle s) := by
  have hw (x : State) : WavesEnded (recountAll (settleDraws x)) :=
    (settleDraws_wavesEnded x).congr (recountAll_draws _) (recountAll_groups _)
  unfold settle
  dsimp only
  split
  · exact ⟨fun _ => rfl, (hw _).congr rfl rfl⟩
  · next hf => exact ⟨fun h => absurd h hf, hw _⟩

/-- So does the outcome of a step with what follows from it. -/
theorem settled_next {o : Host.Outcome State Fault Refusal} {t : State} (h : settled o = .next t) : Settled t := by
  cases o with
  | next x =>
    obtain rfl := Host.Outcome.next.inj h
    exact settle_settled x
  | fault f => cases h
  | refused r => cases h

/-- What is still to come does not touch the invariant. -/
theorem settled_inbox {s : State} (h : Settled s) (l : List Input) : Settled { s with inbox := l } := h

/-- Settles O43: every step ends in `settle` but the one that passes over an encoded instruction, which only takes its input. -/
theorem stepKeepsSettled : Obligations.StepKeepsSettled := by
  unfold Obligations.StepKeepsSettled
  intro s t hs ht
  unfold step at ht
  split at ht
  · exact settled_next ht
  · exact settled_next ht
  · split at ht
    · obtain rfl := Host.Outcome.next.inj ht
      exact settled_inbox hs _
    · exact settled_next ht
  · obtain rfl := Host.Outcome.next.inj ht
    exact settle_settled _

/-- Settles O44: after a reset no fatal error stands and no draw is at work. -/
theorem resetSettled : Obligations.ResetSettled := by
  unfold Obligations.ResetSettled
  exact ⟨fun _ => rfl, fun k d h => by simp [State.draw, State.reset] at h⟩

end Sys2Proof.Machine
end

section
/-!
PROOFS. Doorbells, queue enables and the commands of a queue (R68 to R87).
-/

namespace Sys2Proof.Machine

open Sys2Proof.Claims

/-! ### How a command starts (R73, R75, R77, R82) -/

section
variable {n : Nat} {w : List DWord} {s : State} {act : List DWord → State → State}

/-- Only RESYNC, DUMP and ATTEST wait for nothing. -/
theorem entFree_of_other (h : entKind w < 6 ∨ 8 < entKind w) : entFree w = false := by
  simp only [entFree, Bool.or_eq_false_iff, beq_eq_false_iff_ne]
  omega

theorem entFree_of_served (h : 6 ≤ entKind w ∧ entKind w ≤ 8) : entFree w = true := by
  simp only [entFree, Bool.or_eq_true, beq_iff_eq]
  omega

/-- After a fatal error a command ends DEAD. -/
theorem startCommand_dead {f : State → State} (hf : s.host.fatal ≠ none) (he : entFree w = false) :
    startCommand s n w f = finish n w 9 0 s := by
  rw [startCommand, if_pos (by simp [Option.isSome_iff_ne_none.mpr hf, he])]
  rfl

/-- A command of a known kind with a bad field ends BADFIELD. -/
theorem startCommand_bad {f : State → State} (hf : s.host.fatal = none ∨ entFree w = true) (h1 : 1 ≤ entKind w)
    (h8 : entKind w ≤ 8) (hb : badPayload w = true) : startCommand s n w f = finish n w 3 0 s := by
  rw [startCommand, if_neg (by rcases hf with h | h <;> simp [h]), if_pos (by simp [h8, hb]; omega)]
  rfl

/-- Another has its effect. -/
theorem startCommand_acts {f : State → State} (hf : s.host.fatal = none ∨ entFree w = true)
    (hb : badPayload w = false ∨ entKind w = 0 ∨ 8 < entKind w) : startCommand s n w f = f s := by
  rw [startCommand, if_neg (by rcases hf with h | h <;> simp [h]), if_neg]
  rcases hb with h | h | h
  · simp [h]
  · simp [h]
  · simp [Nat.not_le.mpr h]

theorem beginCommand_dead {g : State → List DWord → Bool} (hf : s.host.fatal ≠ none) (he : entFree w = false) :
    beginCommand s n w g act = finish n w 9 0 s := by
  have hs : s.host.fatal.isSome = true := Option.isSome_iff_ne_none.mpr hf
  rw [beginCommand, if_neg (by simp [hf]), if_pos hs, startCommand_dead hf he]

theorem beginCommand_bad {g : State → List DWord → Bool} (hf : s.host.fatal = none) (h1 : 1 ≤ entKind w) (h8 : entKind w ≤ 8)
    (hb : badPayload w = true) : beginCommand s n w g act = finish n w 3 0 (release s n) := by
  rw [beginCommand, if_neg (by simp [hb]), if_neg (by simp [hf])]
  exact startCommand_bad (.inl hf) h1 h8 hb

/-- A command with every field in order acts in the state in which it has begun. -/
theorem beginCommand_acts {g : List DWord → Bool} (hf : s.host.fatal = none) (hb : badPayload w = false) :
    beginCommand s n w (fun _ => g) act = act w (begun n w (g w) s) := by
  have e : (if s.host.fatal.isNone && entHolds w && !badPayload w && g w then
        s.setQueue n { s.queue n with waiting := some (true, w) }
      else if s.host.fatal.isSome then s else release s n) = begun n w (g w) s := by
    simp only [hf, hb, begun, release]
    cases entHolds w <;> cases g w <;> rfl
  rw [beginCommand, e]
  exact startCommand_acts (.inl hf) (.inl hb)

/-- One of an unknown kind acts whatever its fields are, and holds nothing. -/
theorem beginCommand_unknown (hf : s.host.fatal = none) (hk : entKind w = 0 ∨ 8 < entKind w) :
    beginCommand s n w (fun _ _ => false) act = act w (release s n) := by
  rw [beginCommand, if_neg (by simp), if_neg (by simp [hf])]
  exact startCommand_acts (.inl hf) (.inr hk)

end

/-! ### The step of a command -/

/-- The step of a queue's commands that an entry may name, with whether the effect goes on and the effect. -/
def IsCommand (n : Nat) (i : Instr) (names goesOn : List DWord → Bool) (act : List DWord → State → State) : Prop :=
  ∀ s, exec i s = runCommand s n names (fun _ => goesOn) act

section
variable {n : Nat} {w : List DWord} {i : Instr} {names goesOn : List DWord → Bool} {act : List DWord → State → State} {s : State}

/-- A command that nothing holds back begins as it is read. -/
theorem IsCommand.begins (h : IsCommand n i names goesOn act) (hn : names w = true) (he : entFree w = false) (hr : readsAny n w s)
    (hw : s.host.fatal ≠ none ∨ (entWaits w = true → outstanding s n = false)) :
    exec i s = .next (beginCommand (readOff n s) n w (fun _ => goesOn) act) := by
  obtain ⟨h128, hq, hp⟩ := hr
  have h0 : (s.host.fatal.isNone && entWaits w && outstanding s n) = false := by
    rcases hw with hf | ho
    · simp [hf]
    · cases hx : entWaits w <;> simp [hx] at ho ⊢
      simp [ho]
  rw [h, runCommand_read h128 hq hp hn, h0, he]
  rfl

/-- One that waits for the commands before it holds its queue (R75). -/
theorem IsCommand.waits (h : IsCommand n i names goesOn act) (hn : names w = true) (hr : readsAny n w s)
    (hf : s.host.fatal = none) (hw : entWaits w = true) (ho : outstanding s n = true) :
    exec i s = .next ((readOff n s).setQueue n { (readOff n s).queue n with waiting := some (false, w) }) := by
  obtain ⟨h128, hq, hp⟩ := hr
  rw [h, runCommand_read h128 hq hp hn, if_pos (by simp [hf, hw, ho])]
  rfl

/-- It begins at its turn. -/
theorem IsCommand.beginsAtTurn (h : IsCommand n i names goesOn act) (hn : names w = true) (ht : turn n w s) :
    exec i s = .next (beginCommand s n w (fun _ => goesOn) act) := by
  obtain ⟨hf, hq, ho, hh⟩ := ht
  rw [h, runCommand_turn hf hq ho hh hn]

/-- One that waits for nothing starts as it is read, in a HALTED queue too (R82). -/
theorem IsCommand.starts (h : IsCommand n i names goesOn act) (hn : names w = true) (he : entFree w = true)
    (hr : readsAny n w s) : exec i s = .next (startCommand (readOff n s) n w (act w)) := by
  obtain ⟨h128, hq, hp⟩ := hr
  have h0 : (s.host.fatal.isNone && entWaits w && outstanding s n) = false := by simp [entWaits, he]
  rw [h, runCommand_read h128 hq hp hn, h0, he]
  rfl

/-- A command has the effect that its step gives it. -/
theorem IsCommand.acts {ok : State → Prop} {e : State → State} {on : Bool} (h : IsCommand n i names goesOn act)
    (hx : ∀ s, ok s → names w = true ∧ entFree w = false ∧ goesOn w = on ∧ act w s = e s) : Acts n w on i ok e := by
  refine ⟨fun s ⟨⟨hr, hb, hf⟩, hw, hok⟩ => ?_, fun s ⟨ht, hb, hok⟩ => ?_⟩
  · obtain ⟨hn, he, rfl, ha⟩ := hx _ hok
    rw [h.begins hn he hr (.inr hw), beginCommand_acts (s := readOff n s) hf hb, ha]
  · obtain ⟨hn, -, rfl, ha⟩ := hx _ hok
    rw [h.beginsAtTurn hn ht, beginCommand_acts ht.1 hb, ha]

/-- So has a command that waits for nothing. -/
theorem IsCommand.serves {ok : State → Prop} {e : State → State} (h : IsCommand n i names goesOn act)
    (hx : ∀ s, ok s → names w = true ∧ entFree w = true ∧ act w s = e s) : Serves n w i ok e := fun s ⟨⟨hr, hb⟩, hok⟩ => by
  obtain ⟨hn, he, ha⟩ := hx _ hok
  rw [h.starts hn he hr, startCommand_acts (.inr he) (.inl hb), ha]

end

/-! ### The commands by name -/

section
variable {n : Nat} {w : List DWord}

/-- Each step that a fatal error ends is that of a command, and its entries name no other. -/
theorem isCommand_of_mem_commandsOf {p : Instr × Bool} (hp : p ∈ commandsOf n w) (h : p.2 = true) :
    ∃ names goesOn act, IsCommand n p.1 names goesOn act ∧ names w = true ∧ entFree w = false := by
  fin_cases hp <;> refine ⟨_, _, _, fun _ => rfl, h, entFree_of_other ?_⟩ <;>
    simp only [Bool.and_eq_true, Bool.or_eq_true, beq_iff_eq, decide_eq_true_eq] at h <;> omega

/-- Each step that a HALTED queue serves is that of a command. -/
theorem isCommand_of_mem_freeCommands {p : Instr × Bool} (hp : p ∈ freeCommands n w) (h : p.2 = true) :
    ∃ names goesOn act, IsCommand n p.1 names goesOn act ∧ names w = true ∧ 6 ≤ entKind w ∧ entKind w ≤ 8 := by
  fin_cases hp <;> refine ⟨_, _, _, fun _ => rfl, h, ?_⟩ <;>
    simp only [Bool.and_eq_true, beq_iff_eq] at h <;> omega

end

/-! ### Doorbells and enables (R68, R70, R78) -/

section
variable {n : Nat} {s : State}

/-- An index that is ahead by less than 2^31 and fills no more than the ring is taken (R70). -/
theorem ringDoorbell_takes {v : DWord} (hen : (s.queue n).en = true) (herr : (s.queue n).err = false) (hv : v.toNat < 2 ^ 32)
    (h0 : 0 < (BitVec.ofNat 32 v.toNat - (s.queue n).widx).toNat)
    (h31 : (BitVec.ofNat 32 v.toNat - (s.queue n).widx).toNat < 2 ^ 31)
    (hring : (BitVec.ofNat 32 v.toNat - (s.queue n).ridx).toNat ≤ 2 ^ (s.queue n).logsz) :
    ringDoorbell s n v = s.setQueue n { s.queue n with widx := BitVec.ofNat 32 v.toNat } := by
  have h1 : ¬ (decide (2 ^ 32 ≤ v.toNat) || !(s.queue n).en || inError s (s.queue n) ||
      (BitVec.ofNat 32 v.toNat - (s.queue n).widx).toNat == 0 ||
      decide (2 ^ 31 ≤ (BitVec.ofNat 32 v.toNat - (s.queue n).widx).toNat)) = true := by
    simp only [inError, hen, herr, Bool.or_eq_true, decide_eq_true_eq, beq_iff_eq, Bool.not_true, Bool.false_and,
      Bool.false_eq_true, or_false]
    omega
  exact (if_neg h1).trans (if_neg (Nat.not_lt.mpr hring))

/-- An acknowledgement that does not pass the records written is taken, and makes room (R78). -/
theorem ackRecords_takes {v : DWord} (hv : v.toNat < 2 ^ 32) (h0 : 0 < (BitVec.ofNat 32 v.toNat - (s.queue n).cqack).toNat)
    (h31 : (BitVec.ofNat 32 v.toNat - (s.queue n).cqack).toNat < 2 ^ 31)
    (hq : (BitVec.ofNat 32 v.toNat - (s.queue n).cqack).toNat ≤ ((s.queue n).cqidx - (s.queue n).cqack).toNat) :
    let s1 := s.setQueue n { s.queue n with cqack := BitVec.ofNat 32 v.toNat }
    ackRecords s n v = if hostHeld s then s1 else flushRecords s1 n (s.queue n).records := by
  refine if_neg ?_
  simp only [Bool.or_eq_true, decide_eq_true_eq, beq_iff_eq]
  omega

/-- A queue whose fields are in order runs once it is enabled (R68). -/
theorem enableQueue_runs (hen : (s.queue n).en = false) (hl : 4 ≤ (s.queue n).logsz ∧ (s.queue n).logsz ≤ 16)
    (hc : 4 ≤ (s.queue n).cqlog ∧ (s.queue n).cqlog ≤ 16) (hb : (s.queue n).base.toNat % 64 = 0)
    (hcb : (s.queue n).cqbase.toNat % 16 = 0) (hx : FMap.get none s.ctxs (s.queue n).ctx ≠ none) :
    enableQueue s n = s.setQueue n { s.queue n with en := true, err := false } := by
  have bad : (decide ((s.queue n).logsz < 4) || decide ((s.queue n).logsz > 16) || decide ((s.queue n).cqlog < 4) ||
      decide ((s.queue n).cqlog > 16) || (s.queue n).base.toNat % 64 != 0 || (s.queue n).cqbase.toNat % 16 != 0 ||
      (FMap.get none s.ctxs (s.queue n).ctx).isNone) = false := by
    simp [hb, hcb, Option.isSome_iff_ne_none.mpr hx]
    omega
  simp only [enableQueue, hen, bad, Bool.false_eq_true, if_false]

end

/-! ### Copies and waits that go on (R50, R73, R76, R77) -/

section
variable {n k : Nat} {s : State} {w : List DWord}

/-- A COPY that held its queue back holds it no more. -/
def releaseCopy (n : Nat) (s : State) : State :=
  match (s.queue n).waiting with
  | some (true, x) => if entKind x = 2 then release s n else s
  | _ => s

theorem releaseCopy_other (h : ∀ x, (s.queue n).waiting = some (true, x) → entKind x ≠ 2) : releaseCopy n s = s := by
  unfold releaseCopy
  split
  · next x hx => exact if_neg (h x hx)
  · rfl

theorem releaseCopy_held {x : List DWord} (h : (s.queue n).waiting = some (true, x)) (hk : entKind x = 2) :
    releaseCopy n s = release s n := by
  simp only [releaseCopy, h, hk, if_true]

/-- A copy in flight is made, and its record carries how far it came. -/
theorem execCopyCommandComplete_found {c : Nat} (hh : hostHeld s = false) (hf : s.host.fatal = none)
    (hc : (s.queue n).copies.find? (fun x => x.1 == k) = some (c, w)) :
    let r := copyPages s (s.queue n).ctx (entW w 4) (entW w 1) (entW w 2) (entW w 3) (2 * entW w 3 / 4096 + 4) 0
    execCopyCommandComplete n k s = .next (finish n w (if r.2 = entW w 3 then 0 else 4) r.2
      (releaseCopy n (r.1.setQueue n { r.1.queue n with copies := (s.queue n).copies.filter fun x => x.1 != k }))) := by
  have h1 : ¬ (hostHeld s || s.host.fatal.isSome) = true := by simp [hh, hf]
  unfold execCopyCommandComplete
  simp only [if_neg h1, hc]
  generalize copyPages s (s.queue n).ctx (entW w 4) (entW w 1) (entW w 2) (entW w 3) (2 * entW w 3 / 4096 + 4) 0 = r
  simp only [beq_iff_eq]
  rfl

/-- A WAIT ends as its sample meets the condition. -/
theorem execWaitSatisfied_met {bs : List Byte} (hw : (s.queue n).waiting = some (true, w)) (hk : entKind w = 4)
    (hf : s.host.fatal = none) (hen : (s.queue n).en = true) (hh : hostHeld s = false)
    (hr : vRead s (s.queue n).ctx sysRead (entW w 1) 8 = some bs) (hm : waitMet w (leVal bs) = true) :
    execWaitSatisfied n s = .next (finish n w 0 0 (release s n)) := by
  simp [execWaitSatisfied, hw, hk, hf, hen, hh, hr, hm]

end

/-- Settles O54: each command by `IsCommand.acts` or `IsCommand.serves`; the condition of each clause decides the tests of its
effect. -/
theorem hostQueuesAndCommands : Obligations.HostQueuesAndCommands := by
  unfold Obligations.HostQueuesAndCommands
  intro n w
  dsimp only
  have early {k : Nat} (hk : entKind w = k) (h : k < 6) : entFree w = false := entFree_of_other (.inl (hk ▸ h))
  refine ⟨?_, ?_, ?_, ?_, ?_, ?_, ?_, ?_, ?_, ?_, ?_, ?_, ?_, ?_, ?_, ?_, ?_, ?_, ?_, ?_, ?_, ?_, ?_, ?_, ?_, ?_, ?_, ?_, ?_, ?_⟩
  · intro v hn s ⟨hp, hen, herr, hv, h0, h31, hring⟩
    exact (if_neg (by simp [hp, hn])).trans (congrArg _ (ringDoorbell_takes hen herr hv h0 h31 hring))
  · intro v hn s ⟨hp, hv, h0, h31, hq⟩
    exact (if_neg (by simp [hp, hn])).trans (congrArg _ (ackRecords_takes hv h0 h31 hq))
  · intro hn s ⟨hp, hen, hl, hl', hc, hc', hb, hcb, hx⟩
    exact (if_neg (by simp [hp, hn, hen])).trans
      (congrArg (flushQueue n) (enableQueue_runs hen ⟨hl, hl'⟩ ⟨hc, hc'⟩ hb hcb hx))
  · intro hn s hp
    exact if_neg (by simp [hp, hn])
  · intro off size v hs ho s hp
    exact if_neg (by simp [hp]; omega)
  · intro p hp h
    obtain ⟨names, goesOn, act, hc, hn, he⟩ := isCommand_of_mem_commandsOf hp h
    refine ⟨fun s ⟨hr, hf⟩ => ?_, fun s ⟨hr, hf, hw, ho⟩ => hc.waits hn hr hf hw ho,
      fun h1 h8 hb => ⟨fun s ⟨hr, hf, hw⟩ => ?_, fun s ht => ?_⟩⟩
    · rw [hc.begins hn he hr (.inl hf), beginCommand_dead (s := readOff n s) hf he]
    · rw [hc.begins hn he hr (.inr hw), beginCommand_bad (s := readOff n s) hf h1 h8 hb]
    · rw [hc.beginsAtTurn hn ht, beginCommand_bad ht.1 h1 h8 hb]
  · intro p hp h hb s hr
    obtain ⟨names, goesOn, act, hc, hn, h6, h8⟩ := isCommand_of_mem_freeCommands hp h
    have he := entFree_of_served ⟨h6, h8⟩
    rw [hc.starts hn he hr, startCommand_bad (.inr he) (by omega) h8 hb]
  · exact IsCommand.acts (fun _ => rfl) fun s hk => ⟨by simp [hk], early hk (by decide), rfl, rfl⟩
  · refine IsCommand.acts (fun _ => rfl) fun s ⟨hk, h1, h40⟩ => ?_
    have hr : within 1 (2 ^ 40) (entW w 3) = true := by simp [within, h1]; omega
    exact ⟨by simp [hk], early hk (by decide), hr, if_pos hr⟩
  · refine IsCommand.acts (fun _ => rfl) fun s ⟨hk, hl⟩ => ?_
    have hr : within 1 (2 ^ 40) (entW w 3) = false := by simp [within]; omega
    exact ⟨by simp [hk], early hk (by decide), hr, if_neg (ne_true_of_eq_false hr)⟩
  · intro k c s hh hf hc
    refine ⟨fun hx => ?_, fun x hx hk => ?_⟩
    · rw [← releaseCopy_other hx]
      exact execCopyCommandComplete_found hh hf hc
    · rw [← releaseCopy_held hx hk]
      exact execCopyCommandComplete_found hh hf hc
  · intro old s1
    refine IsCommand.acts (fun _ => rfl) fun s ⟨hk, ha, hr, hv⟩ => ⟨by simp [hk], early hk (by decide), rfl, ?_⟩
    -- the accesses are opaque, lest the kernel run them where it compares the matches on their answers
    obtain ⟨read, hread⟩ : ∃ f, f = vRead := ⟨_, rfl⟩
    obtain ⟨write, hwrite⟩ : ∃ f, f = vWrite := ⟨_, rfl⟩
    rw [← hread] at hr ⊢
    rw [← hwrite] at hv ⊢
    simp only [ha, hr, hv, bne_self_eq_false, beq_iff_eq, Bool.false_eq_true, if_false]
  · refine IsCommand.acts (fun _ => rfl) fun s ⟨hk, ha⟩ => ⟨by simp [hk], early hk (by decide), rfl, ?_⟩
    exact if_pos (by simpa using ha)
  · refine IsCommand.acts (fun _ => rfl) fun s ⟨hk, ha⟩ => ⟨by simp [hk], early hk (by decide), by simp [ha], ?_⟩
    exact if_neg (by simp [ha])
  · refine IsCommand.acts (fun _ => rfl) fun s ⟨hk, ha⟩ => ⟨by simp [hk], early hk (by decide), by simp [ha], ?_⟩
    exact if_pos (by simpa using ha)
  · intro bs s ⟨hw, hk, hf, hen, hh, hr, hm⟩
    exact execWaitSatisfied_met hw hk hf hen hh hr hm
  · refine IsCommand.acts (fun _ => rfl) fun s ⟨hk, ho, hc, ha, hm, hw⟩ => ⟨by simp [hk, ho], early hk (by decide), rfl, ?_⟩
    exact if_neg (by simp [hc, ha, hw]; simpa [imp_iff_not_or] using hm)
  · refine IsCommand.acts (fun _ => rfl) fun s ⟨hk, ho, hc, hu⟩ => ⟨by simp [hk, ho], early hk (by decide), rfl, ?_⟩
    exact if_neg (by simp [hc, hu])
  · refine IsCommand.acts (fun _ => rfl) fun s ⟨hk, ho, hc, h1, h48, h57, hr, hl⟩ =>
      ⟨by simp [hk, ho], early hk (by decide), rfl, ?_⟩
    exact if_neg (by simp [hc, within, hr]; omega)
  · refine IsCommand.acts (fun _ => rfl) fun s ⟨hk, ho, k, hm, hkey, hr⟩ => ⟨by simp [hk, ho], early hk (by decide), rfl, ?_⟩
    have hany : (s.host.keys.any fun k => k.key == BitVec.ofNat 32 (entW w 2) && k.rights != 0) = true :=
      List.any_eq_true.mpr ⟨k, hm, by simp [hkey, hr]⟩
    exact if_neg (by simp [hany])
  · refine IsCommand.serves (fun _ => rfl) fun s ⟨hk, hl⟩ => ⟨by simp [hk], entFree_of_served (by omega), ?_⟩
    exact if_neg (Nat.not_lt.mpr hl)
  · refine IsCommand.serves (fun _ => rfl) fun s ⟨hk, hl⟩ => ⟨by simp [hk], entFree_of_served (by omega), ?_⟩
    exact if_pos hl
  · refine IsCommand.serves (fun _ => rfl) fun s ⟨hk, ho, ha⟩ => ⟨by simp [hk, ho], entFree_of_served (by omega), ?_⟩
    exact if_neg (by simp [ha])
  · refine IsCommand.serves (fun _ => rfl) fun s ⟨hk, ho, ha⟩ => ⟨by simp [hk, ho], entFree_of_served (by omega), ?_⟩
    exact if_pos (by simpa using ha)
  · refine IsCommand.serves (fun _ => rfl) fun s ⟨hk, ho, hd⟩ => ⟨by simp [hk, ho], entFree_of_served (by omega), ?_⟩
    simp [hd]
  · refine IsCommand.serves (fun _ => rfl) fun s ⟨hk, ho, hd⟩ => ⟨by simp [hk, ho], entFree_of_served (by omega), ?_⟩
    simp [hd]
  · exact IsCommand.serves (fun _ => rfl) fun s hk => ⟨by simp [hk], entFree_of_served (by omega), rfl⟩
  · intro hk
    have hc : IsCommand n (.badkind n) (fun w => entKind w == 0 || 8 < entKind w) (fun _ => false) fun w => finish n w 2 0 :=
      fun _ => rfl
    have hn : (entKind w == 0 || 8 < entKind w) = true := by simpa using hk
    refine ⟨fun s ⟨hr, hf, hw⟩ => ?_, fun s ht => ?_⟩
    · rw [hc.begins hn (entFree_of_other (by omega)) hr (.inr hw), beginCommand_unknown (s := readOff n s) hf hk]
    · rw [hc.beginsAtTurn hn ht, beginCommand_unknown ht.1 hk]
  · intro s ⟨hn, hq, hp⟩
    exact if_neg (by simp [hq, hp]; omega)
  · intro tag e
    refine works_of_working (fun _ => rfl) fun s hl => ?_
    simp only [hl]

end Sys2Proof.Machine
end

section
/-!
PROOFS. A step of the machine runs the instruction that its decoder reads from the word it fetches, or takes or waits with what
comes before one (R130, R182, R185, R319, R333 to R336, R403).
-/

namespace Sys2Proof.Machine

variable {s s1 : State} {gid slices : Nat}

/-- With no input, a unit that holds the issue slot and may go on fetches and issues (R182). -/
theorem step_issues (hi : s.inbox = []) (hc : s.cur = some (gid, slices)) (hf : s.host.fatal = none)
    (hr : unitRuns s gid slices = true) : step s = settled (issueNext gid slices s) := by
  simp [step, ownStep, hi, hc, hf, hr]

/-- The state in which the group has taken its due trap out: no register error is due, and the watchdog's takes its count back to 0
(R130, R319). -/
def clearDue (s : State) (gid : Nat) (t : Trap) : State :=
  s.modGroup gid fun x => { x with eccDue := none, wdog := if t.cause = 0x122 then 0 else (s.g gid).wdog }

/-- A trap that is due comes before the fetch; it waits while its frame is held (R54). -/
theorem issueNext_due {t : Trap} (hd : dueTrap s (s.g gid) ((s.g gid).nar slices) = some t) :
    issueNext gid slices s =
      if trapHeld s gid then .next (park s (soloUnit s plainHdr gid slices) .slot)
      else .next (trapBefore (clearDue s gid t) gid slices t) := by
  simp only [issueNext, hd, clearDue, beq_iff_eq]

section
variable (hd : dueTrap s (s.g gid) ((s.g gid).nar slices) = none)
include hd

/-- A word that cannot be fetched takes its fault, which waits while its frame is held (R54, R334 to R336). -/
theorem issueNext_fault {c fa : Nat} (hw : fetchWord s gid ((s.g gid).issuePc ((s.g gid).nar slices)) = .fault c fa s1) :
    issueNext gid slices s =
      if trapHeld s gid then .next (park s (soloUnit s plainHdr gid slices) .slot)
      else .next (takeTrap s1 (soloUnit s1 plainHdr gid slices) plainHdr false { cause := c, faddr := fa }) := by
  simp only [issueNext, hd, hw]

/-- A fetched word runs as the instruction that the decoder reads from it, but where its group waits at a join point (R185). -/
theorem issueNext_word {w : Word96} {join : Bool}
    (hw : fetchWord s gid ((s.g gid).issuePc ((s.g gid).nar slices)) = .word w join s1) :
    issueNext gid slices s =
      if joinWaits (s.g gid) ((s.g gid).nar slices) join then
        .next { (s1.modGroup gid fun g => g.modNar slices fun n => { n with st := .joinWait }) with cur := none }
      else exec (decodeWord (seenWord (s.g gid) w)) s1 := by
  simp only [issueNext, hd, hw, execWord_eq]

end

/-- A device or host step that comes as an input runs as its instruction; an encoded one is passed over. -/
theorem step_event (s : State) (i : Instr) (rest : List Input) :
    step { s with inbox := .event i :: rest } =
      if i.coded then .next { s with inbox := rest } else settled (exec i { s with inbox := rest }) := rfl

/-- Settles O40: the step issues by `step_issues`; what it issues is said by the equation of `issueNext` for a due trap, a fault and
a word. -/
theorem stepRunsDecoded : Obligations.StepRunsDecoded := by
  unfold Obligations.StepRunsDecoded
  intro s gid slices g n hi hc hf hr
  rw [step_issues hi hc hf hr]
  refine ⟨fun t hd hh => ?_, fun t hd hh => ?_, fun hd => ⟨fun w join s1 hw hj => ?_, fun w s1 hw hj => ?_,
    fun c fa s1 hw hh => ?_, fun c fa s1 hw hh => ?_⟩, step_event s⟩
  · rw [issueNext_due hd, if_pos hh, settled]
  · rw [issueNext_due hd, if_neg (by simp [hh]), settled, clearDue]
  · rw [issueNext_word hd hw, if_neg (by simpa using hj)]
  · rw [issueNext_word hd hw, if_pos hj, settled]
  · rw [issueNext_fault hd hw, if_pos hh, settled]
  · rw [issueNext_fault hd hw, if_neg (by simp [hh]), settled]

end Sys2Proof.Machine
end

section
/-!
PROOFS. An engine command at issue: the answers of its plan's checks, and its statement from its body (R108, R294, R297, R313, R456 to
R458).
-/

namespace Sys2Proof.Machine

open Sys2Proof.Claims

/-- What orders the unit's older accesses waits while one is held. -/
theorem ordered_held {s : State} {u : Ux} {k : State → Res} (h : unitHeld s u = true) : ordered s u k = .error (.wait .slot) := by
  simp [ordered, h]

section
variable {s : State} {u : Ux} {f : FmtE} {cls : Nat} {p : Plan} {job : Job}

/-- A charge beyond the budget stops a plan with 9.1, before its other causes (R313). -/
theorem planStop_unpaid (h : paid s u p = false) : planStop s u.gid cls p = some 289 := by
  have hover : overBudget s (s.g u.gid).bid (p.charge s (s.launchOf (s.g u.gid).bid).ctx) = true := by simpa [paid] using h
  simp [planStop, hover]

/-- A plan that is paid stops with the engine's cause for its ranges, if they have one. -/
theorem planStop_paid (h : paid s u p = true) : planStop s u.gid cls p = (p.bad s).map (engCause cls) := by
  have hpays : overBudget s (s.g u.gid).bid (p.charge s (s.launchOf (s.g u.gid).bid).ctx) = false := by simpa [paid] using h
  simp [planStop, hpays]

theorem planStop_passes (h : paid s u p = true) (hb : p.bad s = none) : planStop s u.gid cls p = none := by
  rw [planStop_paid h, hb, Option.map_none]

theorem startOp_stops {c : Nat} (h : planStop s u.gid cls p = some c) : startOp f cls u s job p = trapOf c := by
  simp only [startOp, h]

/-- A plan in order waits while the class has 63 outstanding operations (R294). -/
theorem startOp_full (h : paid s u p = true) (hb : p.bad s = none) (hc : 63 ≤ (s.g u.gid).counter cls) :
    startOp f cls u s job p = .error (.wait (.opRoom u.gid cls)) := by
  simp only [startOp, planStop_passes h hb, if_pos hc]

/-- With room in its class, it waits while a slot holds an older access of the unit (R54). -/
theorem startOp_held (h : paid s u p = true) (hb : p.bad s = none) (hc : (s.g u.gid).counter cls < 63) (hh : unitHeld s u = true) :
    startOp f cls u s job p = .error (.wait .slot) := by
  simp only [startOp, planStop_passes h hb, if_neg (Nat.not_le.mpr hc), ordered_held hh]

theorem startOp_opens (h : opens cls s u p) : startOp f cls u s job p = .ok (opened f cls s u job p) := by
  obtain ⟨hp, hb, hc, hh⟩ := h
  simp only [startOp, planStop_passes hp hb, if_neg (Nat.not_le.mpr hc), ordered_free hh]
  rfl

end

section
variable {s : State} {u : Ux} {f : FmtE} {cls op nw : Nat} {plan : State → Nat → Job → Except Nat Plan}

theorem engEff_unplanned {c : Nat} (ha : u.active ≠ []) (hp : plan (drainUnit s u) u.gid (jobOf s u op nw f) = .error c) :
    engEff f cls op nw plan u s = trapOf c := by
  simp only [engEff, List.isEmpty_iff, ha, if_false, hp]

theorem engEff_planned {p : Plan} (ha : u.active ≠ []) (hp : plan (drainUnit s u) u.gid (jobOf s u op nw f) = .ok p) :
    engEff f cls op nw plan u s = startOp f cls u s (jobOf s u op nw f) p := by
  simp only [engEff, List.isEmpty_iff, ha, if_false, hp]

/-- An engine command that does no more than issue its plan meets the statement of an engine command. -/
theorem engine_of_body {i : Instr} {h : Hdr} {sh : Shape}
    (hx : ∀ s, exec i s = issue h sh s fun u s => engEff f cls op nw plan u s) : Engine i h f sh cls op nw plan := by
  refine ⟨fun p => ?begins, fun c => ?chk, fun c => ?unplanned, fun p => ?unpaid, fun p k => ?range, fun p => ?full, fun p => ?held⟩
  case begins =>
    exact commits_of_body hx fun s u ⟨⟨ha, _, hp⟩, ho⟩ => (engEff_planned ha hp).trans (startOp_opens ho)
  case chk =>
    intro _ _ _ _ ⟨_, hc⟩
    cases hc
  case unplanned =>
    exact traps_of_body hx fun s u ⟨ha, _, hp⟩ => engEff_unplanned ha hp
  case unpaid =>
    exact traps_of_body hx fun s u ⟨⟨ha, _, hp⟩, hu⟩ => (engEff_planned ha hp).trans (startOp_stops (planStop_unpaid hu))
  case range =>
    refine traps_of_body hx fun s u ⟨⟨ha, _, hp⟩, hpaid, hb⟩ => (engEff_planned ha hp).trans (startOp_stops ?_)
    rw [planStop_paid hpaid, hb, Option.map_some]
  case full =>
    exact parks_of_body hx fun s u ⟨⟨ha, _, hp⟩, hpaid, hb, hc⟩ => (engEff_planned ha hp).trans (startOp_full hpaid hb hc)
  case held =>
    exact parks_of_body hx fun s u ⟨⟨ha, _, hp⟩, hpaid, hb, hc, hh⟩ => (engEff_planned ha hp).trans (startOp_held hpaid hb hc hh)

end

end Sys2Proof.Machine
end

section
/-!
PROOFS. The accesses of a fragment wave to its tile, and the checkpoint operations of the tile (R148, R488 to R491, R504, R506).
-/

namespace Sys2Proof.Machine

open Sys2Proof.Claims

/-! ### The turn of a wave (R148, R160) -/

section
variable {s : State} {u : Ux} {act : Nat → Draw → Wave → Res} {k : Nat} {d : Draw} {w : Wave}

theorem inWave_turn (ha : u.active ≠ []) (hw : waveOf s u.gid = some (k, d, w)) (hm : mustWait s k d w = false) :
    inWave u s act = act k d w := by
  simp only [inWave, List.isEmpty_iff, ha, if_false, hw, hm, Bool.false_eq_true]

theorem inWave_waits (ha : u.active ≠ []) (hw : waveOf s u.gid = some (k, d, w)) (hm : mustWait s k d w = true) :
    inWave u s act = .error (.wait (.wave u.gid)) := by
  simp only [inWave, List.isEmpty_iff, ha, if_false, hw, hm, if_true]

theorem inWave_outside (ha : u.active ≠ []) (hw : waveOf s u.gid = none) : inWave u s act = trapOf (drawCause 10) := by
  simp only [inWave, List.isEmpty_iff, ha, if_false, hw]

end

/-- An instruction that acts in a wave takes 8.10 outside one, and waits for its turn in one. -/
theorem stops_of_inWave {i : Instr} {h : Hdr} {sh : Shape} {act : Ux → State → Nat → Draw → Wave → Res}
    (hx : ∀ s, exec i s = issue h sh s fun u s => inWave u s (act u s)) :
    Traps i h (fun _ => sh) (fun s u => u.active ≠ [] ∧ waveOf s u.gid = none) (fun _ _ => { cause := drawCause 10 }) ∧
      Parks i h (fun _ => sh) (fun s u => u.active ≠ [] ∧ ∃ k d w, waveOf s u.gid = some (k, d, w) ∧ mustWait s k d w = true)
        fun _ u => .wave u.gid :=
  ⟨traps_of_body hx fun _ _ ⟨ha, hw⟩ => inWave_outside ha hw,
    parks_of_body hx fun _ _ ⟨ha, _, _, _, hw, hm⟩ => inWave_waits ha hw hm⟩

/-! ### Checkpoint operations (R491) -/

/-- The plan of TLCK: the checkpoint record written. -/
abbrev tlckPlan (d : Draw) (x : ELoc) : Plan := { writes := [(x, d.recordBytes)], parts := [(none, some x, d.recordBytes)] }

/-- The plan of TLRST: the checkpoint record read. -/
abbrev tlrstPlan (d : Draw) (x : ELoc) : Plan := { reads := [(x, d.recordBytes)], parts := [(some x, none, d.recordBytes)] }

/-- The job of a checkpoint operation: its descriptor, then the draw, the tile, the sequence index and the wave's first pixel. -/
abbrev tileJob (f : FmtE) (op : Nat) (s : State) (u : Ux) (k : Nat) (w : Wave) : Job :=
  { jobOf s u op 2 f with args := (jobOf s u op 2 f).args ++ [k, w.tile, w.seq, w.first] }

section
variable {s : State} {u : Ux} {f : FmtE} {k : Nat} {d : Draw} {w : Wave} {x : ELoc} {bs : List Byte}

theorem tileOp_outside {op : Nat} (ha : u.active ≠ []) (hw : waveOf s u.gid = none) : tileOp f op u s = trapOf (engCause 0 6) := by
  simp only [tileOp, List.isEmpty_iff, ha, if_false, hw]

theorem tileOp_tlck (ha : u.active ≠ []) (hw : waveOf s u.gid = some (k, d, w))
    (hl : engLoc s u.gid ((jobOf s u 0xED 2 f).addr 0) = some x) :
    tileOp f 0xED u s = startOp f 0 u s (tileJob f 0xED s u k w) (tlckPlan d x) := by
  simp only [tileOp, List.isEmpty_iff, ha, if_false, hw, hl]
  rfl

theorem tileOp_tlrst (ha : u.active ≠ []) (hw : waveOf s u.gid = some (k, d, w))
    (hl : engLoc s u.gid ((jobOf s u 0xEE 2 f).addr 0) = some x) (hp : paid s u (tlrstPlan d x) = true)
    (hb : (tlrstPlan d x).bad s = none) :
    tileOp f 0xEE u s = startTlrst f u s d w (tileJob f 0xEE s u k w) x (tlrstPlan d x) := by
  have hstop : planStop s u.gid 0 (tlrstPlan d x) = none := planStop_passes hp hb
  rw [tlrstPlan] at hstop
  simp only [tileOp, List.isEmpty_iff, ha, if_false, hw, hl, hstop]
  rfl

/-- A header passes where it holds a checkpoint of the wave's tile at an earlier triangle. -/
theorem headerBad_eq_none : headerBad d w bs = none ↔
    field bs 8 8 % 2 = 1 ∧ field bs 0 2 = w.tile % d.ntx ∧ field bs 2 2 = w.tile / d.ntx ∧ field bs 4 4 < w.seq := by
  rcases Nat.mod_two_eq_zero_or_one (field bs 8 8) with h | h
  · simp [headerBad, h]
  · simp [headerBad, h, and_assoc]

/-- One that does not pass takes 8.11 where it holds no checkpoint, else 6.6. -/
theorem headerBad_eq_some (h : ¬ (field bs 8 8 % 2 = 1 ∧ field bs 0 2 = w.tile % d.ntx ∧ field bs 2 2 = w.tile / d.ntx ∧
    field bs 4 4 < w.seq)) : headerBad d w bs = some (if field bs 8 8 % 2 = 0 then drawCause 11 else engCause 0 6) := by
  have hbad := mt headerBad_eq_none.mp h
  simp only [headerBad, beq_iff_eq] at hbad ⊢
  split
  · rfl
  · next hc =>
    rw [if_neg hc] at hbad
    exact if_pos (by by_contra hn; exact hbad (if_neg hn))

section
variable {p : Plan}

/-- TLRST waits while a slot holds an older access of the unit, or the record's header (R50, R54). -/
theorem startTlrst_held (h : unitHeld s u = true ∨
    ¬ (memHeld (drainUnit s u) && rangeFar (drainUnit s u) u.gid (false, x, 64)) = false) :
    startTlrst f u s d w (tileJob f 0xEE s u k w) x p = .error (.wait .slot) := by
  cases hu : unitHeld s u with
  | true => exact ordered_held hu
  | false =>
    rw [startTlrst, ordered_free hu, if_pos]
    simpa [hu] using h

variable (hu : unitHeld s u = false) (hf : (memHeld (drainUnit s u) && rangeFar (drainUnit s u) u.gid (false, x, 64)) = false)
include hu hf

theorem startTlrst_passes (hr : headerOf (drainUnit s u) u.gid (jobOf s u 0xEE 2 f).user x = .ok bs) (hb : headerBad d w bs = none) :
    startTlrst f u s d w (tileJob f 0xEE s u k w) x p = startOp f 0 u (drainUnit s u) (tileJob f 0xEE s u k w) p := by
  simp only [startTlrst, ordered_free hu, hf, Bool.false_eq_true, if_false, hr, hb]

theorem startTlrst_refused {c : Nat} (hr : headerOf (drainUnit s u) u.gid (jobOf s u 0xEE 2 f).user x = .ok bs)
    (hb : headerBad d w bs = some c) : startTlrst f u s d w (tileJob f 0xEE s u k w) x p = trapOf c := by
  simp only [startTlrst, ordered_free hu, hf, Bool.false_eq_true, if_false, hr, hb]

theorem startTlrst_unread {t : Trap} (hr : headerOf (drainUnit s u) u.gid (jobOf s u 0xEE 2 f).user x = .error t) :
    startTlrst f u s d w (tileJob f 0xEE s u k w) x p =
      (startOp f 0 u (drainUnit s u) (tileJob f 0xEE s u k w) p).map fun e => { e with st := failOp e.st u.gid (s.g u.gid).seq t } := by
  simp only [startTlrst, ordered_free hu, hf, Bool.false_eq_true, if_false, hr]

end

end

/-- Settles O32: the accesses by the turn of their wave, the checkpoint operations by the issue of their plans. -/
theorem fragmentWaves : Obligations.FragmentWaves := by
  unfold Obligations.FragmentWaves
  intro h f e
  dsimp only
  refine ⟨?ztest, ?blend, ?tres, ?tresNow, ?tresWaits, ?tlck, ?tlrst, ?unread, ?refused, ?held, ?noTile, ?noWave⟩
  case ztest =>
    intro k d w
    exact commits_of_body (fun _ => rfl) fun s u ⟨ha, hw, hm⟩ => inWave_turn ha hw hm
  case blend =>
    intro k d w
    exact commits_of_body (fun _ => rfl) fun s u ⟨ha, hw, hm⟩ => inWave_turn ha hw hm
  case tres =>
    intro k d w l
    refine commits_of_body (fun _ => rfl) fun s u ⟨⟨ha, hw, hm⟩, hl, hc⟩ => ?_
    have hcached : (l.any fun x => x.2.1.mt != 0) = false := by simpa using hc
    rw [inWave_turn ha hw hm]
    simp only [hl, hcached, Bool.false_eq_true, if_false]
  case tresNow =>
    intro k d w l
    refine commits_of_body (fun _ => rfl) fun s u ⟨⟨ha, hw, hm⟩, hl, hc, hu, hs⟩ => ?_
    rw [inWave_turn ha hw hm]
    simp only [hl, hc, ordered_free hu, hs, Bool.false_eq_true, if_false, if_true, List.any_eq_true, bne_iff_ne, storeNow, beq_iff_eq]
  case tresWaits =>
    intro k d w l
    refine parks_of_body (fun _ => rfl) fun s u ⟨⟨ha, hw, hm⟩, hl, hc, hh⟩ => ?_
    rw [inWave_turn ha hw hm]
    simp only [hl, hc, if_true, List.any_eq_true, bne_iff_ne]
    cases hu : unitHeld s u with
    | true => exact ordered_held hu
    | false =>
      rw [ordered_free hu, if_pos]
      simpa [hu] using hh
  case tlck =>
    intro k d w x
    exact commits_of_body (fun _ => rfl) fun s u ⟨⟨ha, hw, hx⟩, ho⟩ => (tileOp_tlck ha hw hx).trans (startOp_opens ho)
  case tlrst =>
    intro k d w x bs
    refine commits_of_body (fun _ => rfl) fun s u ⟨⟨ha, hw, hx⟩, ⟨hp, hb, hu, ho⟩, hf, hr, hok⟩ => ?_
    rw [tileOp_tlrst ha hw hx hp hb, startTlrst_passes hu hf hr (headerBad_eq_none.mpr hok), startOp_opens ho]
  case unread =>
    intro k d w x t
    refine commits_of_body (fun _ => rfl) fun s u ⟨⟨ha, hw, hx⟩, ⟨hp, hb, hu, ho⟩, hf, hr⟩ => ?_
    rw [tileOp_tlrst ha hw hx hp hb, startTlrst_unread hu hf hr, startOp_opens ho]
    rfl
  case refused =>
    intro k d w x bs c
    refine traps_of_body (fun _ => rfl) fun s u ⟨⟨ha, hw, hx⟩, ⟨hp, hb, hu, _⟩, hf, hr, hc, hbad⟩ => ?_
    rw [hc, tileOp_tlrst ha hw hx hp hb, startTlrst_refused hu hf hr (headerBad_eq_some hbad)]
    rfl
  case held =>
    intro k d w x
    exact parks_of_body (fun _ => rfl) fun s u ⟨⟨ha, hw, hx⟩, hp, hb, hh⟩ =>
      (tileOp_tlrst ha hw hx hp hb).trans (startTlrst_held hh)
  case noTile =>
    rintro i sh (⟨rfl, rfl⟩ | ⟨rfl, rfl⟩) <;>
      exact traps_of_body (fun _ => rfl) fun s u ⟨ha, hw⟩ => tileOp_outside ha hw
  case noWave =>
    rintro i sh (⟨rfl, rfl⟩ | ⟨rfl, rfl⟩ | ⟨rfl, rfl⟩) <;> exact stops_of_inWave fun _ => rfl

end Sys2Proof.Machine
end

section
/-!
PROOFS. Splats outside a draw, the building of structures, and the instructions of rays and hit programs (R154, R157, R158, R492 to
R496).
-/

namespace Sys2Proof.Machine

open Sys2Proof.Claims

/-! ### Builds (R154, R493) -/

/-- A command on a build that also changes it as it issues: the operation opens, and the build changes. -/
theorem grows_of_body {i : Instr} {h : Hdr} {sh : Shape} {f : FmtE} {op : Nat} {plan : State → Nat → Job → Except Nat Plan}
    {how : Job → Build → Build} {p : Plan}
    (hx : ∀ s, exec i s = issue h sh s fun u s =>
      match engEff f 0 op 4 plan u s with
      | .error e => .error e
      | .ok e =>
        if u.active.isEmpty then .ok e
        else
          let j := jobOf s u op 4 f
          .ok { e with st := modBuild e.st (buildDie s (s.g u.gid).bid) (j.w 0) (how j) }) :
    Commits i h (fun _ => sh)
      (fun s u => u.active ≠ [] ∧ plan (drainUnit s u) u.gid (jobOf s u op 4 f) = .ok p ∧ opens 0 s u p) fun s u =>
      let j := jobOf s u op 4 f
      { opened f 0 s u j p with st := modBuild (opened f 0 s u j p).st (buildDie s (s.g u.gid).bid) (j.w 0) (how j) } := by
  refine commits_of_body hx fun s u ⟨ha, hp, ho⟩ => ?_
  simp only [engEff_planned ha hp, startOp_opens ho, List.isEmpty_iff, ha, if_false]

theorem splatsAndBuilds : SplatsAndBuilds := by
  unfold SplatsAndBuilds
  intro h f
  dsimp only
  refine ⟨engine_of_body fun _ => rfl, engine_of_body fun _ => rfl, ?opens, ?waits, ?adds, ?closes⟩
  case opens =>
    intro k
    refine commits_of_body (fun _ => rfl) fun s u ⟨ha, hk⟩ => ?_
    simp only [List.isEmpty_iff, ha, if_false, hk]
  case waits =>
    refine parks_of_body (fun _ => rfl) fun s u ⟨ha, hk⟩ => ?_
    simp only [List.isEmpty_iff, ha, if_false, hk]
  case adds => exact fun p => grows_of_body (how := fun j b => { b with count := b.count + j.w 1 }) fun _ => rfl
  case closes => exact fun p => grows_of_body (how := fun _ b => { b with closing := true }) fun _ => rfl

/-! ### Rays and hits (R157, R158, R494 to R496) -/

section
variable {s : State} {gid va n : Nat} {write : Bool} {r : Res}

theorem vFree_free (h : vHeld s (s.g gid).core (s.launchOf (s.g gid).bid).ctx
    { write := write, fetch := false, user := !(s.g gid).sys } va n = false) : vFree s gid write va n r = r := by
  simp [vFree, h]

theorem vFree_held (h : vHeld s (s.g gid).core (s.launchOf (s.g gid).bid).ctx
    { write := write, fetch := false, user := !(s.g gid).sys } va n = true) : vFree s gid write va n r = .error (.wait .slot) := by
  simp [vFree, h]

end

/-- The `have`s of the trace's body are taken out level by level, each once the reads of memory around it are rewritten: the kernel would
run those reads to compare a body under its `have`s with the same body reduced. -/
theorem raysAndHits : RaysAndHits := by
  unfold RaysAndHits
  intro h f
  dsimp only
  refine ⟨?trace, ?traceWaits, ?rqry, ?hit, ?noCandidate, ?spawn⟩
  case trace =>
    intro recs
    refine commits_of_body (fun _ => rfl) fun s u ⟨ha, hu, ht, hr, hs, hm, hn, hh, hb⟩ => ?_
    rw [if_neg (by simpa using ha), ordered_free hu]
    extract_lets +onlyGivenNames g l sa table
    have hread : readFail (drainUnit s u) l.ctx (!g.sys) sa 64 = none := hr
    rw [if_neg (by simp [table, ht]), hread]
    dsimp -zeta only
    rw [vFree_free hh]
    extract_lets +onlyGivenNames bs root
    have hroot : structAt (drainUnit s u) root = some recs := hs
    have hwhole : readFail (drainUnit s u) l.ctx (!g.sys) sa (structBytes recs.length) = none := hn
    rw [hroot]
    dsimp -zeta only
    rw [if_neg (by simp [bs, l, g, sa, hm]), hwhole]
    exact if_neg (Nat.not_lt.mpr hb)
  case traceWaits =>
    refine parks_of_body (fun _ => rfl) fun s u ⟨ha, hw⟩ => ?_
    rw [if_neg (by simpa using ha)]
    cases hu : unitHeld s u with
    | true => exact ordered_held hu
    | false =>
      obtain ⟨ht, hr, hh⟩ := hw.resolve_left (by simp [hu])
      rw [ordered_free hu]
      extract_lets +onlyGivenNames g l sa table
      have hread : readFail (drainUnit s u) l.ctx (!g.sys) sa 64 = none := hr
      rw [if_neg (by simp [table, ht]), hread]
      exact vFree_held hh
  case rqry => exact commits_of_body (fun _ => rfl) fun s u _ => rfl
  case hit =>
    refine commits_of_body (fun _ => rfl) fun s u hc => if_neg ?_
    simpa [List.any_eq_true, Option.isNone_iff_eq_none] using hc
  case noCandidate =>
    refine traps_of_body (fun _ => rfl) fun s u hc => if_pos ?_
    simpa [List.any_eq_true, Option.isNone_iff_eq_none] using hc
  case spawn =>
    refine commits_of_body (fun _ => rfl) fun s u hc => ?_
    dsimp only
    rw [firstSome_eq_none.mpr]
    rintro _ hx
    obtain ⟨p, hp, rfl⟩ := List.mem_map.mp hx
    obtain ⟨hg, r, c, hcand, hroom⟩ := hc p hp
    simp only [hcand, if_neg (Nat.not_le.mpr hroom)]

/-- Settles O33: the splat commands and the builds by the issue of their plans, rays and hits by the tests that each clause decides. -/
theorem raysSplatsAndBuilds : Obligations.RaysSplatsAndBuilds := ⟨splatsAndBuilds, raysAndHits⟩

end Sys2Proof.Machine
end

section
/-!
PROOFS. What an instruction that delivers its results to registers leaves alone (R177, R200, R346, R371).
-/

namespace Sys2Proof.Machine

/-- The commit of lane results keeps what the results do not name: the unit's arrival, the results and the retirement each do. -/
theorem commit_writeLanes_kept {s s1 : State} {h : Hdr} {sh : Shape} {u : Ux} {pc : Bool} (hx : executing s h sh = some (s1, u))
    (dst : Opnd) (w : Nat) (cw : BitVec 3) (f : Pos → Nat × BitVec 4) :
    Kept (∀ n, dst ≠ .v n) (∀ n, dst ≠ .s n) True (cw.getLsbD 2 = false) s
      (commit u h pc { st := writeLanes s1 u dst w cw f }) :=
  (executing_kept hx).trans ((writeLanes_kept s1 u dst w cw f).trans (commit_kept rfl rfl rfl))

/-- Settles O52: the state that the instruction answers is the commit of its lane results. -/
theorem registerInstructionFrame : Obligations.RegisterInstructionFrame := by
  unfold Obligations.RegisterInstructionFrame
  intro i h sh dst w cw g hdelivers s s1 u hr
  obtain ⟨⟨hmem, hpoison, hhost, hpkg, hcores, hclusters, hlaunches, hdraws, hctxs, htlb⟩, hgroups⟩ :=
    commit_writeLanes_kept (pc := false) hr.1 dst w cw (g s1 u)
  refine ⟨_, hdelivers s s1 u hr, hmem, hpoison, hhost, hpkg, hcores, hclusters, hlaunches, hdraws, hctxs, htlb, fun k => ?_⟩
  obtain ⟨hv, hs, hd, hrest⟩ := hgroups k
  exact ⟨hv, hs, hd trivial, hrest⟩

end Sys2Proof.Machine
end

section
/-!
PROOFS. REORD and the stage rings (R170 to R173, R188, R189, R429, R452).
-/

namespace Sys2Proof.Machine

open Sys2Proof.Claims

/-! ### Sorting -/

section
variable {α : Type} {le : α → α → Bool}

theorem insertBy_eq_orderedInsert (a : α) (l : List α) : insertBy le a l = l.orderedInsert (fun x y => le x y = true) a := by
  induction l with
  | nil => rfl
  | cons b l ih => simp only [insertBy, List.orderedInsert, ih]

/-- The model's sort is the library's insertion sort. -/
theorem sortBy_eq_insertionSort (l : List α) : sortBy le l = l.insertionSort fun x y => le x y = true := by
  induction l with
  | nil => rfl
  | cons a l ih => rw [List.insertionSort_cons, ← ih, ← insertBy_eq_orderedInsert]; rfl

theorem sortBy_perm (l : List α) : (sortBy le l).Perm l := by
  rw [sortBy_eq_insertionSort]
  exact List.perm_insertionSort _ l

/-- A list sorted by a total preorder rises. -/
theorem sortBy_pairwise (htotal : ∀ a b, le a b = true ∨ le b a = true)
    (htrans : ∀ a b c, le a b = true → le b c = true → le a c = true) (l : List α) :
    (sortBy le l).Pairwise fun a b => le a b = true := by
  have : Std.Total fun x y => le x y = true := ⟨htotal⟩
  have : IsTrans α fun x y => le x y = true := ⟨htrans⟩
  rw [sortBy_eq_insertionSort]
  exact List.pairwise_insertionSort _ l

end

section
variable {α : Type} {key pos : α → Nat} {a b : α}

/-- The order by key, equal keys by position. -/
theorem keyOrder_iff : (decide (key a < key b) || (key a == key b && decide (pos a ≤ pos b))) = true ↔
    key a < key b ∨ key a = key b ∧ pos a ≤ pos b := by simp

/-- A list sorted by key, equal keys by position, rises in its keys. -/
theorem sortBy_key_pairwise (l : List α) :
    (sortBy (fun a b => decide (key a < key b) || (key a == key b && decide (pos a ≤ pos b))) l).Pairwise
      fun a b => key a ≤ key b := by
  refine List.Pairwise.imp (R := fun a b => (decide (key a < key b) || (key a == key b && decide (pos a ≤ pos b))) = true) ?_
    (sortBy_pairwise ?_ ?_ l)
  · intro a b h
    have := keyOrder_iff.mp h
    omega
  · intro a b
    rw [keyOrder_iff, keyOrder_iff]
    omega
  · intro a b c
    rw [keyOrder_iff, keyOrder_iff, keyOrder_iff]
    omega

end

/-! ### REORD (R188, R189, R429) -/

/-- A body whose cells are full answers its effect. -/
theorem withCells_full {s : State} {l : List (RegUse × List Pos)} {e : Eff} (h : needCells s l = none) : withCells s l e = .ok e := by
  simp only [withCells, h]

/-- Settles O16: the cells that the clause finds full let the body go on; the order is that of a sort by key and position. -/
theorem reordSortsThreads : Obligations.ReordSortsThreads := by
  unfold Obligations.ReordSortsThreads
  intro h f
  exact ⟨commits_of_body (fun _ => rfl) fun s u hcells => withCells_full hcells,
    fun s u => ⟨sortBy_perm _, sortBy_key_pairwise _⟩⟩

/-! ### Stage rings (R170 to R173, R452) -/

/-- Settles O25: the ring that a clause names, and the state of its slot, decide the tests of each body. -/
theorem stageRings : Obligations.StageRings := by
  unfold Obligations.StageRings
  intro h f
  dsimp only
  refine ⟨?puts, ?takes, ?releases, ?rendezvous, ?putsNowhere, ?takesNowhere, ?releasesNowhere, ?noneHeld, ?putHeld, ?noneEmpty,
    ?noneFull⟩
  case puts =>
    intro r
    refine commits_of_body (fun _ => rfl) fun s u ⟨hu, ha, hr, hempty⟩ => ?_
    simp [ha, hr, hempty, ordered_free hu]
  case takes =>
    intro st r
    refine commits_of_body (fun _ => rfl) fun s u ⟨ha, hr, hfull, hdst⟩ => ?_
    simp only [List.isEmpty_iff, ha, if_false, hr, hfull, bne_self_eq_false, Bool.false_eq_true]
    exact withCells_full hdst
  case releases =>
    intro st r
    refine commits_of_body (fun _ => rfl) fun s u ⟨ha, hr, hheld⟩ => ?_
    simp [ha, hr, hheld]
  case rendezvous => exact commits_of_body (fun _ => rfl) fun s u _ => rfl
  case putsNowhere =>
    refine traps_of_body (fun _ => rfl) fun s u ⟨ha, hr⟩ => ?_
    simp [ha, hr, trapOf]
  case takesNowhere =>
    refine traps_of_body (fun _ => rfl) fun s u ⟨ha, hr⟩ => ?_
    simp [ha, hr, trapOf]
  case releasesNowhere =>
    refine traps_of_body (fun _ => rfl) fun s u ⟨ha, hr⟩ => ?_
    simp [ha, hr, trapOf]
  case noneHeld =>
    intro st r
    refine traps_of_body (fun _ => rfl) fun s u ⟨ha, hr, hheld⟩ => ?_
    simp [ha, hr, hheld, trapOf]
  case putHeld =>
    intro r
    refine parks_of_body (fun _ => rfl) fun s u ⟨ha, hr, hempty, hu⟩ => ?_
    simp [ha, hr, hempty, ordered_held hu]
  case noneEmpty =>
    intro r
    refine parks_of_body (fun _ => rfl) fun s u ⟨ha, hr, hempty⟩ => ?_
    simp [ha, hr, hempty]
  case noneFull =>
    intro st r
    refine parks_of_body (fun _ => rfl) fun s u ⟨ha, hr, hfull⟩ => ?_
    simp [ha, hr, hfull]

end Sys2Proof.Machine
end

section
/-!
PROOFS. What a directional register of given fields reads back as (R213).
-/

namespace Sys2Proof.Machine

/-! ### Two's-complement fields -/

/-- Sign extension sees the low bits alone. -/
theorem sext_congr {w x y : Nat} (h : x % 2 ^ w = y % 2 ^ w) : sext w x = sext w y := by
  unfold sext
  rw [h]

theorem wrap_lt (w : Nat) (x : Int) : wrap w x < 2 ^ w := by
  have hp : (0 : Int) < 2 ^ w := by positivity
  have hlt := Int.emod_lt_of_pos x hp
  have hcast : ((2 ^ w : Nat) : Int) = 2 ^ w := by push_cast; rfl
  unfold wrap
  omega

/-- The low 24 bits of an integer in range: the integer itself, or with 2^24 added where it is negative. -/
theorem wrap24_cases {x : Int} (hx : -8388608 ≤ x ∧ x < 8388608) :
    0 ≤ x ∧ (wrap 24 x : Int) = x ∨ x < 0 ∧ (wrap 24 x : Int) = x + 16777216 := by
  unfold wrap
  omega

/-- An integer in range is the sign extension of its low 24 bits. -/
theorem sext24_wrap {x : Int} (hx : -8388608 ≤ x ∧ x < 8388608) : sext 24 (wrap 24 x) = x := by
  have hlt := wrap_lt 24 x
  unfold sext
  rw [Nat.mod_eq_of_lt hlt]
  dsimp only
  obtain ⟨h0, h⟩ | ⟨h0, h⟩ := wrap24_cases hx
  · rw [if_pos (by omega), h]
  · rw [if_neg (by omega), h]
    omega

/-! ### The fields of a register -/

/-- A register of fields as a number. -/
theorem dWord_toNat (x y z n : Int) :
    (dWord x y z n).toNat = wrap 24 x * 2 ^ 72 + wrap 24 y * 2 ^ 48 + wrap 24 z * 2 ^ 24 + wrap 24 n := by
  have hx := wrap_lt 24 x
  have hy := wrap_lt 24 y
  have hz := wrap_lt 24 z
  have hn := wrap_lt 24 n
  rw [dWord, BitVec.toNat_ofNat]
  exact Nat.mod_eq_of_lt (by omega)

section
variable (x y z n : Int)

theorem dWord_n : (dWord x y z n).toNat % 2 ^ 24 = wrap 24 n := by
  have hn := wrap_lt 24 n
  rw [dWord_toNat]
  omega

theorem dWord_z : (dWord x y z n).toNat / 2 ^ 24 % 2 ^ 24 = wrap 24 z := by
  have hz := wrap_lt 24 z
  have hn := wrap_lt 24 n
  rw [dWord_toNat]
  omega

theorem dWord_y : (dWord x y z n).toNat / 2 ^ 48 % 2 ^ 24 = wrap 24 y := by
  have hy := wrap_lt 24 y
  have hz := wrap_lt 24 z
  have hn := wrap_lt 24 n
  rw [dWord_toNat]
  omega

theorem dWord_x : (dWord x y z n).toNat / 2 ^ 72 % 2 ^ 24 = wrap 24 x := by
  have hx := wrap_lt 24 x
  have hy := wrap_lt 24 y
  have hz := wrap_lt 24 z
  have hn := wrap_lt 24 n
  rw [dWord_toNat]
  omega

end

section
variable {x y z n : Int}

/-- A field that holds the low bits of an integer in range reads as it. -/
theorem sext24_of_mod {k : Nat} (hx : -8388608 ≤ x ∧ x < 8388608) (h : k % 2 ^ 24 = wrap 24 x) : sext 24 k = x := by
  rw [sext_congr (h.trans (Nat.mod_eq_of_lt (wrap_lt 24 x)).symm), sext24_wrap hx]

/-- The direction of a register of fields is 0 where each field is. -/
theorem dWord_direction (hx : -8388608 ≤ x ∧ x < 8388608) (hy : -8388608 ≤ y ∧ y < 8388608) (hz : -8388608 ≤ z ∧ z < 8388608)
    (h : (dWord x y z n).toNat / 2 ^ 24 = 0) : x = 0 ∧ y = 0 ∧ z = 0 := by
  have zero {c : Int} (hc : -8388608 ≤ c ∧ c < 8388608) (h0 : wrap 24 c = 0) : c = 0 := by
    obtain h | h := wrap24_cases hc <;> omega
  have h1 := dWord_x x y z n
  have h2 := dWord_y x y z n
  have h3 := dWord_z x y z n
  exact ⟨zero hx (by omega), zero hy (by omega), zero hz (by omega)⟩

/-- A norm in range is neither of the two codes. -/
theorem norm_not_code (hn : -8388607 ≤ n ∧ n < 8388607) : wrap 24 n ≠ 0x7FFFFF ∧ wrap 24 n ≠ 0x800000 := by
  have hc := wrap24_cases (x := n) (by omega)
  omega

/-- A norm that is neither code, with a direction that is not 0, is valid. -/
theorem dInvalid_dWord (hd : (dWord x y z n).toNat / 2 ^ 24 ≠ 0) (hn : -8388607 ≤ n ∧ n < 8388607) :
    dInvalid (dWord x y z n) = false := by
  obtain ⟨hbad, hnull⟩ := norm_not_code hn
  have hb : bits (dWord x y z n).toNat 23 0 = wrap 24 n := by
    rw [bits, pow_zero, Nat.div_one]
    exact dWord_n x y z n
  have hxyz : ((dWord x y z n).toNat / 2 ^ 24 == 0) = false := beq_false_of_ne hd
  simp only [dInvalid, hb, beq_false_of_ne hbad, beq_false_of_ne hnull, hxyz, Bool.false_and, Bool.and_false, Bool.or_false]

end

/-- Settles O19: each field is the low 24 bits of its integer, and the norm is neither code. -/
theorem directionalEncoding : Obligations.DirectionalEncoding := by
  unfold Obligations.DirectionalEncoding
  refine ⟨fun x y z n hx hy hz hn hd => ?_, rfl, rfl⟩
  have hvalid : dInvalid (dWord x y z n) = false := dInvalid_dWord (fun h => hd (dWord_direction hx hy hz h)) hn
  have hcode : ((dWord x y z n).toNat % 2 ^ 24 == 0x800000) = false := by
    rw [dWord_n]
    exact beq_false_of_ne (norm_not_code hn).2
  rw [dvalOf, hvalid, hcode]
  simp only [Bool.false_eq_true, if_false]
  rw [sext24_of_mod hx (dWord_x x y z n), sext24_of_mod hy (dWord_y x y z n), sext24_of_mod hz (dWord_z x y z n),
    sext24_of_mod (by omega) (dWord_n x y z n)]

end Sys2Proof.Machine
end

section
/-!
PROOFS. The system registers read back as written (R197 to R199, R328), and the queries (R395, R396, R401, R402).
-/

namespace Sys2Proof.Machine

open Sys2Proof.Claims

/-! ### The trap and scratch registers of a group -/

section
variable (s : State) (gid : Nat)

theorem readSysReg_mode : readSysReg s gid 4 = b2n (s.g gid).sys := rfl
theorem readSysReg_tvec : readSysReg s gid 0x100 = (s.core (s.g gid).core).tvec.toNat := rfl
theorem readSysReg_tfarea : readSysReg s gid 0x101 = (s.core (s.g gid).core).tfarea.toNat := rfl
theorem readSysReg_tframe : readSysReg s gid 0x102 = frameVa s (s.g gid) := rfl
theorem readSysReg_ftrap : readSysReg s gid 0x103 = (s.g gid).ftrap.toNat := rfl

variable (v : Nat)

theorem writeSysReg_fst : writeSysReg s gid 3 v =
    s.modGroup gid fun g => { g with fst := g.fst &&& ~~~ (BitVec.ofNat 6 v) } := rfl
theorem writeSysReg_tvec : writeSysReg s gid 0x100 v =
    s.setCore (s.g gid).core { s.core (s.g gid).core with tvec := BitVec.ofNat 64 (v % 2 ^ 57 / 64 * 64) } := rfl
theorem writeSysReg_tfarea : writeSysReg s gid 0x101 v =
    s.setCore (s.g gid).core { s.core (s.g gid).core with tfarea := BitVec.ofNat 64 (v / 64 * 64) } := rfl
theorem writeSysReg_ftrap : writeSysReg s gid 0x103 v = s.modGroup gid fun g => { g with ftrap := BitVec.ofNat 6 v } := rfl

variable {k : Nat} (hlo : 0x108 ≤ k) (hhi : k ≤ 0x10F)
include hlo hhi

theorem readSysReg_scratch : readSysReg s gid k = (FMap.get 0 (s.g gid).tscr (k - 0x108)).toNat := by
  obtain ⟨j, rfl⟩ := Nat.exists_eq_add_of_le hlo
  have hj : j < 8 := by omega
  interval_cases j <;> rfl

theorem writeSysReg_scratch : writeSysReg s gid k v =
    s.modGroup gid fun g => { g with tscr := FMap.set 0 g.tscr (k - 0x108) (BitVec.ofNat 64 v) } := by
  obtain ⟨j, rfl⟩ := Nat.exists_eq_add_of_le hlo
  have hj : j < 8 := by omega
  interval_cases j <;> rfl

end

/-- A change of a core leaves every group as it is. -/
theorem g_setCore (s : State) (n : Nat) (x : Core) (k : Nat) : (s.setCore n x).g k = s.g k := g_congr rfl k

/-- Settles O35: what a write sets in the core or the group is what the read looks up there. -/
theorem trapRegistersReadBack : Obligations.TrapRegistersReadBack := by
  unfold Obligations.TrapRegistersReadBack
  intro s gid v hg hcores htscr
  have hsome : (s.group gid).isSome = true := Option.isSome_iff_ne_none.mpr hg
  refine ⟨fun hv => ?tvec, fun hv => ⟨?tfarea, ?tframe⟩, fun hv => ⟨?ftrap, ?fst⟩, fun k hlo hhi hv => ?scratch,
    readSysReg_mode s gid⟩
  case tvec =>
    rw [readSysReg_tvec, writeSysReg_tvec, g_setCore, core_setCore_self s _ hcores, BitVec.toNat_ofNat]
    omega
  case tfarea =>
    rw [readSysReg_tfarea, writeSysReg_tfarea, g_setCore, core_setCore_self s _ hcores, BitVec.toNat_ofNat]
    omega
  case tframe =>
    rw [readSysReg_tframe, writeSysReg_tfarea, g_setCore, frameVa, core_setCore_self s _ hcores, BitVec.toNat_ofNat,
      Nat.mod_add_mod]
  case ftrap =>
    rw [readSysReg_ftrap, writeSysReg_ftrap, g_modGroup_self s _ hsome, BitVec.toNat_ofNat]
    exact Nat.mod_eq_of_lt hv
  case fst => rw [writeSysReg_fst, g_modGroup_self s _ hsome]
  case scratch =>
    rw [readSysReg_scratch _ _ hlo hhi, writeSysReg_scratch _ _ _ hlo hhi, g_modGroup_self s _ hsome]
    dsimp only
    rw [FMap.get_set_self htscr, BitVec.toNat_ofNat]
    exact Nat.mod_eq_of_lt hv

/-! ### RDSR, WRSR and the queries -/

/-- What executes only where a lane is active goes on where one is (R395). -/
theorem ifActive_active {u : Ux} {s : State} {r : Res} (h : u.active ≠ []) : ifActive u s r = r := by
  simp [ifActive, h]

/-- An instruction whose body does something only where a lane is active completes with it where one is. -/
theorem commits_ifActive {i : Instr} {h : Hdr} {sh : State → Shape} {body : Ux → State → Res} {e : State → Ux → Eff}
    (hx : ∀ s, exec i s = issue h (sh s) s fun u s => ifActive u s (body u s)) (hb : ∀ s u, body u s = .ok (e s u)) :
    Commits i h sh (fun _ u => u.active ≠ []) e :=
  commits_of_body hx fun s u ha => (ifActive_active ha).trans (hb s u)

/-- Settles O34: each body answers what its clause names where a lane is active; BUD answers by its selector. -/
theorem systemRegistersAndQueries : Obligations.SystemRegistersAndQueries := by
  unfold Obligations.SystemRegistersAndQueries
  intro h f
  dsimp only
  refine ⟨?rdsr, ?wrsr, ?wake, ?dieq, ?logr, ?perf, fun hk => ?quires, fun hk => ?bytes⟩
  case quires => exact commits_ifActive (fun _ => rfl) fun s u => if_pos (beq_iff_eq.mpr hk)
  case bytes => exact commits_ifActive (fun _ => rfl) fun s u => if_neg (mt beq_iff_eq.mp hk)
  case rdsr | wrsr | wake | dieq | logr | perf => exact commits_ifActive (fun _ => rfl) fun _ _ => rfl

end Sys2Proof.Machine
end

section
/-!
PROOFS. The directional instructions (R213 to R215, R235 to R238, R432 to R435).
-/

namespace Sys2Proof.Machine

open Sys2Proof.Claims

section
variable {i : Instr} {h : Hdr} {sh : Shape} {f : FmtA}

/-- An instruction that computes a direction of one operand completes with the claim's direction of it. -/
theorem commits_of_dir1 {g : DVal → DRes} (hx : ∀ s, exec i s = issue h sh s fun u s => dir1 f u s g) :
    Commits i h (fun _ => sh) (fun _ _ => True) fun s u => dirWrite f u s (dirOf f g s u) :=
  commits_of_body hx fun _ _ _ => rfl

/-- One that computes a direction of two operands completes with the claim's direction of them. -/
theorem commits_of_dir2 {g : State → Ux → Pos → DVal → DVal → DRes}
    (hx : ∀ s, exec i s = issue h sh s fun u s => dir2 f u s (g s u)) :
    Commits i h (fun _ => sh) (fun _ _ => True) fun s u => dirWrite f u s (dirOf2 f (g s u) s u) :=
  commits_of_body hx fun _ _ _ => rfl

end

/-- The instructions whose result is a direction. -/
theorem directionalResults : DirectionalResults := by
  unfold DirectionalResults
  intro h f
  refine ⟨?dmov, ?dneg, ?dnorm, ?dfromv, ?dadd, ?dcross, ?drefl, ?dproj, ?dframe, ?dslerp⟩
  case dfromv => exact commits_of_body (fun _ => rfl) fun _ _ _ => rfl
  case dmov | dneg | dnorm => exact commits_of_dir1 fun _ => rfl
  case dadd | dcross | drefl | dproj | dframe | dslerp => exact commits_of_dir2 fun _ => rfl

/-- The instructions whose result is a number, a norm or flags, and refraction. -/
theorem directionalScalars : DirectionalScalars := by
  unfold DirectionalScalars
  intro h f
  refine ⟨?dtov, ?ddot, ?dcmp, ?dscl, ?dsetn, ?drefr⟩
  case dtov | ddot | dcmp | dscl | dsetn | drefr => exact commits_of_body (fun _ => rfl) fun _ _ _ => rfl

/-- Settles O18: the effect of each body is the one that its clause names. -/
theorem directional : Obligations.Directional := ⟨directionalResults, directionalScalars⟩

end Sys2Proof.Machine
end

section
/-!
PROOFS. What the registers of an instruction stop it with (R193, R194, R202, R203, R312, R319).
-/

namespace Sys2Proof.Machine

/-- The first value of a list of options is the one that only absent ones precede. -/
theorem firstSome_append_some {α : Type} {a b : List (Option α)} {x : α} (h : ∀ y ∈ a, y = none) :
    firstSome (a ++ some x :: b) = some x := by
  induction a with
  | nil => rfl
  | cons y a ih =>
    obtain ⟨rfl, ha⟩ := List.forall_mem_cons.mp h
    exact ih ha

/-! ### Faults of a named register -/

section
variable {l : Launch} {n k : Nat}

/-- A vector register beyond the declaration: 1.4. -/
theorem useFault_v_beyond (h : l.vregs < n + k) : useFault l { o := .v n, n := k } = some (36, .v n) := by
  simp [useFault, lastSpecial, isReg, declared, numOf, rcOf, h]

/-- A scalar register beyond the declaration: 1.5. -/
theorem useFault_s_beyond (h : l.sregs < n + k) : useFault l { o := .s n, n := k } = some (37, .s n) := by
  simp [useFault, lastSpecial, isReg, declared, numOf, rcOf, h]

/-- A directional register beyond the declaration: 1.6. -/
theorem useFault_d_beyond (h : l.dregs < n + k) : useFault l { o := .d n, n := k } = some (38, .d n) := by
  simp [useFault, lastSpecial, isReg, declared, numOf, rcOf, h]

/-- A pair of vector registers that starts at an odd number: 1.8. -/
theorem useFault_v_odd (hd : n + 2 ≤ l.vregs) (ho : n % 2 = 1) : useFault l { o := .v n, n := 2 } = some (40, .v n) := by
  simp [useFault, lastSpecial, isReg, declared, numOf, rcOf, Nat.not_lt.mpr hd, ho]

end

/-! ### The stops in their order -/

/-- The class-1 faults of the registers that an instruction names, destinations first. -/
def namedFaults (s : State) (u : Ux) (sh : Shape) : List (Option (Nat × Opnd)) :=
  sh.dsts.map (dstFault (s.launchOf (s.g u.gid).bid)) ++ sh.srcs.map (useFault (s.launchOf (s.g u.gid).bid))

/-- The registers that the unit itself reads: its guard and the sources of its own lanes. -/
def usesHere (u : Ux) (sh : Shape) : List RegUse := guardUse u ++ sh.srcs.filter fun r => !r.away

/-- The faults of reading them, lane by lane. -/
def readFaults (s : State) (u : Ux) (sh : Shape) : List (Option Trap) :=
  u.active.flatMap fun q => (usesHere u sh).map fun r => readFault s r q

/-- The empty cells of what an instruction reads and writes. -/
def cellsEmpty (s : State) (u : Ux) (sh : Shape) : List (Nat × Cell) :=
  (usesHere u sh ++ sh.dsts).flatMap fun r => emptyCells s r u.active

section
variable {s : State} {u : Ux} {sh : Shape}

/-- The fault of a named register comes first. -/
theorem regStop_named {p : Pos} {rest : List Pos} {c : Nat} {o : Opnd} (ha : u.active = p :: rest)
    (h : firstSome (namedFaults s u sh) = some (c, o)) : regStop s u sh = some (.trap { cause := c, info := regInfo o p }) := by
  unfold namedFaults at h
  simp only [regStop, h, ha, List.headD_cons]

variable (hn : firstSome (namedFaults s u sh) = none)
include hn

/-- Where no named register is at fault, a fault of reading comes next. -/
theorem regStop_read {t : Trap} (h : firstSome (readFaults s u sh) = some t) : regStop s u sh = some (.trap t) := by
  unfold namedFaults at hn
  unfold readFaults usesHere at h
  simp only [regStop, hn, h]

variable (hr : firstSome (readFaults s u sh) = none)
include hr

/-- Where no register is at fault and no cell is empty, nothing stops the instruction. -/
theorem regStop_full (hc : cellsEmpty s u sh = []) : regStop s u sh = none := by
  unfold namedFaults at hn
  unfold readFaults usesHere at hr
  unfold cellsEmpty usesHere at hc
  simp only [regStop, hn, hr, hc]

/-- Where no register is at fault, the instruction waits for its empty cells. -/
theorem regStop_waits (hc : cellsEmpty s u sh ≠ []) : regStop s u sh = some (.wait (.cells (cellsEmpty s u sh))) := by
  unfold namedFaults at hn
  unfold readFaults usesHere at hr
  unfold cellsEmpty usesHere at hc ⊢
  simp only [regStop, hn, hr]

end

/-- Settles O49: the named registers, then the reads, then the empty cells decide the stop. -/
theorem registerStops : Obligations.RegisterStops := by
  unfold Obligations.RegisterStops
  intro s u sh p rest l named here cells ha
  refine ⟨fun n k => useFault_v_beyond, fun n => useFault_v_odd, fun n k => useFault_s_beyond, fun n => useFault_d_beyond,
    ?atFault, fun hnamed => ?inOrder⟩
  case atFault =>
    intro a b c o hnamed hfirst
    exact regStop_named ha ((congrArg firstSome hnamed).trans (firstSome_append_some hfirst))
  case inOrder =>
    have hn : firstSome (namedFaults s u sh) = none := firstSome_eq_none.mpr hnamed
    refine ⟨fun a b t hreads hfirst => ?_, fun hreads => ?_⟩
    · exact regStop_read hn ((congrArg firstSome hreads).trans (firstSome_append_some hfirst))
    · have hr : firstSome (readFaults s u sh) = none := by
        refine firstSome_eq_none.mpr fun x hx => ?_
        obtain ⟨q, hq, hx⟩ := List.mem_flatMap.mp hx
        obtain ⟨r, hr, rfl⟩ := List.mem_map.mp hx
        exact hreads q hq r hr
      exact ⟨fun hc => regStop_full hn hr hc, fun hc => regStop_waits hn hr hc⟩

end Sys2Proof.Machine
end

section
/-!
PROOFS. The paired halves (R414) and the complex pairs (R234, R415).
-/

namespace Sys2Proof.Machine

open Sys2Proof.Claims

/-! ### Bodies that answer a result for each lane -/

section
variable {i : Instr} {h : Hdr} {sh : Shape}

/-- An instruction whose body answers results of its lanes delivers them. -/
theorem deliversF_of_floatEff {dst : Opnd} {cw : BitVec 3} {w : Nat} {long : Bool} {g : State → Ux → Pos → FRes}
    (hx : ∀ s, exec i s = issue h sh s fun u s => floatEff u s dst cw w long (g s u)) : DeliversF i h sh dst cw w long g :=
  commits_of_body hx fun _ _ _ => rfl

variable {f : FmtA}

/-- One that computes on the elements' values delivers the claim's pair of rounded elements (R414). -/
theorem deliversF_of_halfOp {k : RmForm} {srcs : List Opnd} {x : Nat → List XV → XV}
    (hx : ∀ s, exec i s = issue h sh s fun u s => halfOp f u s k srcs x) :
    DeliversF i h sh f.dst 0 32 false (halves f k srcs x) :=
  deliversF_of_floatEff hx

/-- One that computes on the elements' codes delivers the claim's pair of codes (R414). -/
theorem deliversF_of_halfCode {x : Fmt → Nat → Nat → Nat} (hx : ∀ s, exec i s = issue h sh s fun u s => halfCode f u s x) :
    DeliversF i h sh f.dst 0 32 false (halfCodes f x) :=
  deliversF_of_floatEff hx

/-- One that computes two components delivers the claim's complex result of them (R234). -/
theorem deliversF_of_complexEff {v : State → Ux → Pos → List XV} {re im : State → Ux → Pos → XV}
    (hx : ∀ s, exec i s = issue h sh s fun u s => complexEff f u s fun p => (v s u p, re s u p, im s u p)) :
    DeliversF i h sh f.dst 0 64 false fun s u p => complex (v s u p) (re s u p) (im s u p) :=
  deliversF_of_floatEff hx

end

/-! ### The instructions -/

/-- HADD2 to HDOT2: by element on values or on codes, and the dot product in FP32. -/
theorem pairedHalves : PairedHalves := by
  unfold PairedHalves
  intro h f
  refine ⟨?hadd2, ?hmul2, ?hfma2, ?hmin2, ?hmax2, ?hcmp2, ?hdot2⟩
  case hadd2 | hmul2 | hfma2 => exact deliversF_of_halfOp fun _ => rfl
  case hmin2 | hmax2 | hcmp2 => exact deliversF_of_halfCode fun _ => rfl
  case hdot2 => exact deliversF_of_floatEff fun _ => rfl

/-- CADD to CMAG: two components rounded from exact values, the codes of CROT and CEXPI, and the two magnitudes in one
register. -/
theorem complexPairs : ComplexPairs := by
  unfold ComplexPairs
  intro h f
  refine ⟨?cadd, ?cmul, ?cmad, ?cmulc, ?cscale, ?crot, ?cexpi, ?cabs2, ?cmag⟩
  case cadd | cmul | cmad | cmulc | cscale => exact deliversF_of_complexEff fun _ => rfl
  case crot | cexpi | cabs2 | cmag => exact deliversF_of_floatEff fun _ => rfl

/-- Settles O11: every body answers the lane results that its clause names. -/
theorem pairedAndComplex : Obligations.PairedAndComplex := ⟨pairedHalves, complexPairs⟩

end Sys2Proof.Machine
end

section
/-!
PROOFS. Cache control on stash lines, and the mapping and unmapping of a stash range (R261 to R265, R444, R445).
-/

namespace Sys2Proof.Machine

open Sys2Proof.Claims

/-- Write-backs go on where no line of them is dirty or no slot holds memory requests (R50, R264). -/
theorem writesBack_free {s : State} {dirty : Bool} {r : Res} (h : (dirty && memHeld s) = false) : writesBack s dirty r = r := by
  simp [writesBack, h]

/-- A body that does something only where a lane is active, behind the unit's older accesses, goes on after them where none is held
(R54, R286 to R290). -/
theorem active_ordered_free {s : State} {u : Ux} {r : Res} {k : State → Res} (ha : u.active ≠ []) (hu : unitHeld s u = false) :
    (if u.active.isEmpty then r else ordered s u k) = k (drainUnit s u) := by
  rw [if_neg (mt List.isEmpty_iff.mp ha), ordered_free hu]

/-- The write-backs of the mappings of a number go on where, with a slot open, none of those mappings has a DIRTY line. -/
theorem dirtyMappings_free {s : State} {l : List Stash} {n : Nat} (h : memHeld s = true → ∀ m ∈ l, m.n = n → m.dirty = false) :
    (l.any (fun m => m.n == n && m.dirty) && memHeld s) = false := by
  cases hm : memHeld s with
  | false => exact Bool.and_false _
  | true =>
    rw [Bool.and_true, List.any_eq_false]
    intro m hmem
    simpa using h hm m hmem

/-- Settles O22: behind the unit's older accesses, the condition of each clause decides the checks and the write-backs of its
body. -/
theorem stashAndCacheControl : Obligations.StashAndCacheControl := by
  unfold Obligations.StashAndCacheControl
  intro h f e
  dsimp only
  refine ⟨?cctl, ?map, ?conflict, ?unmap⟩
  case cctl =>
    refine commits_of_body (fun _ => rfl) fun s u ⟨ha, hu, hw⟩ => ?_
    exact (active_ordered_free ha hu).trans (writesBack_free hw)
  case map =>
    intro pas
    refine commits_of_body (fun _ => rfl) fun s u ⟨ha, hu, hfree, hpas⟩ => ?_
    refine (active_ordered_free ha hu).trans ?_
    simp only [hfree, hpas, Bool.false_eq_true, if_false]
  case conflict =>
    refine traps_of_body (fun _ => rfl) fun s u ⟨ha, hu, hbad⟩ => ?_
    exact (active_ordered_free ha hu).trans (if_pos hbad)
  case unmap =>
    refine commits_of_body (fun _ => rfl) fun s u ⟨ha, hu, hclean⟩ => ?_
    exact (active_ordered_free ha hu).trans (writesBack_free (dirtyMappings_free hclean))

end Sys2Proof.Machine
end

section
/-!
PROOFS. Loads, stores and plane elements (R54, R56, R260, R277 to R282, R288, R290, R291, R437, R439 to R443).
-/

namespace Sys2Proof.Machine

open Sys2Proof.Claims

/-! ### What follows the unit's older accesses (R54, R281, R288, R290, R291) -/

section
variable {s : State} {u : Ux} {f : FmtM} {k : State → Res}

/-- An access of places goes on from the state that it finds, where none that it follows is held. -/
theorem orderedFirst_free {l : List (Pos × Site)} (h : mustFollow f l = true → unitHeld s u = false) :
    orderedFirst s u f l k = k (found f s u l) := by
  cases hm : mustFollow f l with
  | false => simp [orderedFirst, found, hm]
  | true => simp [orderedFirst, found, hm, ordered_free (h hm)]

/-- It waits while one that it follows is. -/
theorem orderedFirst_held {l : List (Pos × Site)} (hm : mustFollow f l = true) (hu : unitHeld s u = true) :
    orderedFirst s u f l k = .error (.wait .slot) := by
  simp [orderedFirst, hm, ordered_held hu]

variable {α : Type} {l : List α}

/-- What orders where it finds something, or where its order alone asks for it, does so where none is held. -/
theorem ordersSome_free (h : l ≠ [] ∨ f.ord = 4 → unitHeld s u = false) :
    (if l.isEmpty && f.ord != 4 then k s else ordered s u k) = k (if l.isEmpty && f.ord != 4 then s else drainUnit s u) := by
  split
  · rfl
  · next hc => exact ordered_free (h (by simpa [or_iff_not_imp_left] using hc))

/-- It waits while one is. -/
theorem ordersSome_held (h : l ≠ [] ∨ f.ord = 4) (hu : unitHeld s u = true) :
    (if l.isEmpty && f.ord != 4 then k s else ordered s u k) = .error (.wait .slot) := by
  rw [if_neg (by simpa [or_iff_not_imp_left] using h), ordered_held hu]

end

/-! ### The loads (R439, R442) -/

section
variable {s : State} {u : Ux} {f : FmtM} {l : List (Pos × Site)}
  (hs : sitesOf s u f .load (f.cache.getLsbD 2) (workLanes u (isScalar f.data)) = .ok l)
include hs

/-- A load from places takes their bytes, where none that it follows is held and there is room for its requests. -/
theorem loadEff_loads (hc : clear f s u l) : loadEff f u s = .ok (loads f s u l) := by
  obtain ⟨hheld, hroom⟩ := hc
  simp only [loadEff, hs, orderedFirst_free hheld, hroom]
  rfl

/-- Else it waits. -/
theorem loadEff_waits (hc : ¬ clear f s u l) : loadEff f u s = .error (.wait .slot) := by
  by_cases hheld : mustFollow f l = true → unitHeld s u = false
  · have hfull : loadStalls (found f s u l) l = true := eq_true_of_ne_false fun hn => hc ⟨hheld, hn⟩
    simp only [loadEff, hs, orderedFirst_free hheld, hfull, if_true]
  · obtain ⟨hm, hu⟩ := Classical.not_imp.mp hheld
    simp only [loadEff, hs, orderedFirst_held hm (Bool.not_eq_false _ ▸ hu)]

end

/-- An instruction whose body is that of a load takes its bytes, or waits. -/
theorem loads_of_body {i : Instr} {h : Hdr} {sh : Shape} {f : FmtM} (hx : ∀ s, exec i s = issue h sh s fun u s => loadEff f u s)
    (l : List (Pos × Site)) :
    let find (s : State) (u : Ux) := sitesOf s u f .load (f.cache.getLsbD 2) (workLanes u (isScalar f.data))
    Commits i h (fun _ => sh) (fun s u => find s u = .ok l ∧ clear f s u l) (fun s u => loads f s u l) ∧
    Parks i h (fun _ => sh) (fun s u => find s u = .ok l ∧ ¬ clear f s u l) fun _ _ => .slot :=
  ⟨commits_of_body hx fun _ _ ⟨hs, hc⟩ => loadEff_loads hs hc, parks_of_body hx fun _ _ ⟨hs, hc⟩ => loadEff_waits hs hc⟩

/-- LD to LDGN share the body of a load; PREF brings in the lines of the lanes that reach a place. -/
theorem loadsTakeTheirBytes : LoadsTakeTheirBytes := by
  unfold LoadsTakeTheirBytes
  intro h f
  dsimp only
  refine ⟨?ld, ?ldt, ?ldp, ?lds, ?ldc, ?ldgn, ?pref⟩
  case ld | ldt | ldp | lds | ldc | ldgn => exact loads_of_body fun _ => rfl
  case pref =>
    intro l
    refine commits_of_body (fun _ => rfl) fun s u hs => ?_
    simp only [hs]
    rfl

/-! ### The stores (R281, R288, R291, R439) -/

section
variable {s : State} {u : Ux} {f : FmtM} {l : List (Pos × Site)}
  (hs : sitesOf s u f .store false (workLanes u (isScalar f.data)) = .ok l)
include hs

/-- A store to places puts their bytes, where neither what it follows nor what it reaches is held. -/
theorem storeEff_stores (hc : mustFollow f l = true → unitHeld s u = false ∧ writesHeld s l = false) :
    storeEff f u s = .ok (stores f s u l) := by
  simp only [storeEff, hs, orderedFirst_free fun hm => (hc hm).1]
  cases hm : mustFollow f l with
  | false => simp [stores, found, hm]
  | true => simp [stores, found, hm, (hc hm).2, storeNow]

/-- Else it waits. -/
theorem storeEff_waits (hc : ¬ (mustFollow f l = true → unitHeld s u = false ∧ writesHeld s l = false)) :
    storeEff f u s = .error (.wait .slot) := by
  obtain ⟨hm, hheld⟩ := Classical.not_imp.mp hc
  cases hu : unitHeld s u with
  | true => simp only [storeEff, hs, orderedFirst_held hm hu]
  | false =>
    have hw : writesHeld s l = true := by simpa [hu] using hheld
    simp only [storeEff, hs, orderedFirst_free fun _ => hu, hm, hw, Bool.not_true, Bool.false_eq_true, if_false, if_true]

end

/-- An instruction whose body is that of a store puts its bytes, or waits. -/
theorem stores_of_body {i : Instr} {h : Hdr} {sh : Shape} {f : FmtM} (hx : ∀ s, exec i s = issue h sh s fun u s => storeEff f u s)
    (l : List (Pos × Site)) :
    let find (s : State) (u : Ux) := sitesOf s u f .store false (workLanes u (isScalar f.data))
    let may (s : State) (u : Ux) : Prop := mustFollow f l = true → unitHeld s u = false ∧ writesHeld s l = false
    Commits i h (fun _ => sh) (fun s u => find s u = .ok l ∧ may s u) (fun s u => stores f s u l) ∧
    Parks i h (fun _ => sh) (fun s u => find s u = .ok l ∧ ¬ may s u) fun _ _ => .slot :=
  ⟨commits_of_body hx fun _ _ ⟨hs, hc⟩ => storeEff_stores hs hc, parks_of_body hx fun _ _ ⟨hs, hc⟩ => storeEff_waits hs hc⟩

/-- ST to STGN share the body of a store. -/
theorem storesPutTheirBytes : StoresPutTheirBytes := by
  unfold StoresPutTheirBytes
  intro h f
  dsimp only
  refine ⟨?st, ?stt, ?stp, ?sts, ?stgn⟩
  case st | stt | stp | sts | stgn => exact stores_of_body fun _ => rfl

/-! ### The plane elements (R260, R290, R443) -/

theorem planeOrdered_free {s : State} {u : Ux} {f : FmtM} {k : State → Res} {l : List (Pos × Slot × Nat × Nat × Nat)}
    (h : l ≠ [] ∨ f.ord = 4 → unitHeld s u = false) :
    planeOrdered f u s l k = k (if l.isEmpty && f.ord != 4 then s else drainUnit s u) :=
  ordersSome_free h

/-- LDPL and STPL answer their effects on the state that their elements find. -/
theorem planeElements : PlaneElements := by
  unfold PlaneElements
  intro h f
  dsimp only
  refine ⟨?ldpl, ?stpl⟩
  case ldpl | stpl =>
    intro l
    refine commits_of_body (fun _ => rfl) fun s u ⟨hs, hheld⟩ => ?_
    simp only [hs, planeOrdered_free hheld]

/-- Settles O21: every body answers on the places that its lanes reach, behind what it follows. -/
theorem loadsAndStores : Obligations.LoadsAndStores := ⟨loadsTakeTheirBytes, storesPutTheirBytes, planeElements⟩

end Sys2Proof.Machine
end

section
/-!
PROOFS. The store queue: what a store leaves in it, and what its oldest entry does to memory as it drains (R281, R308, R439).
-/

namespace Sys2Proof.Machine

open Sys2Proof.Claims

/-! ### What changes of groups and of the directory leave of memory's bytes -/

@[simp] theorem physByte_modGroup (s : State) (n : Nat) (f : Group → Group) (a : Nat) :
    physByte (s.modGroup n f) a = physByte s a :=
  physByte_congr (by simp) (by simp) (by simp) a

@[simp] theorem isDark_modGroup (s : State) (n : Nat) (f : Group → Group) (pa : Nat) :
    isDark (s.modGroup n f) pa = isDark s pa := by
  simp [isDark]

theorem physByte_setDir (s : State) (d : FMap DirLine) (a : Nat) : physByte { s with dir := d } a = physByte s a :=
  physByte_congr (by rfl) (by rfl) (by rfl) a

/-- A request of a line changes the directory alone. -/
theorem requestLine_eq (s : State) (line : Nat) (r : DirReq) : ∃ d, requestLine s line r = { s with dir := d } := by
  unfold requestLine
  dsimp only
  split
  · exact ⟨s.dir, rfl⟩
  · split
    · exact ⟨_, rfl⟩
    · exact ⟨_, rfl⟩

/-- A write outside the register window leaves the groups alone. -/
theorem writePhys_groups (s : State) {pa : Nat} (bs : List Byte) (b c : Nat) (hw : isWindow pa = false) :
    (writePhys s pa bs b c).groups = s.groups := by
  obtain ⟨bl, d, hwrite⟩ := writePhys_eq s bs b c hw
  obtain ⟨m, k, hput⟩ := putMems_eq bs { s with blocks := bl, dir := d } pa
  rw [hwrite, hput]

/-! ### A store of a lane-scope instruction -/

/-- An instruction of lane scope alone executes in the state in which it issues. -/
theorem executing_lane {s s1 : State} {h : Hdr} {sh : Shape} {u : Ux} (hs : sh.scopes = [.lane])
    (hx : executing s h sh = some (s1, u)) : s1 = s := by
  cases hc : s.cur with
  | none => simp [executing, hc] at hx
  | some c =>
    obtain ⟨gid, slices⟩ := c
    have hl : h.scope = .lane := by
      by_contra hne
      have ha : admitCause (s.g gid) h sh = some { cause := 4 } := admitCause_scope (by simpa [hs] using hne)
      simp [executing, hc, ha] at hx
    simp only [executing, hc, hl] at hx
    split at hx
    · simp at hx
    · simp only [beq_self_eq_true, if_true, Option.some.injEq, Prod.mk.injEq] at hx
      exact hx.1.symm

section
variable (e : Pos × Site → StoreEntry)

/-- Queued stores change groups alone: every byte reads as before. -/
theorem physByte_pushStores (l : List (Pos × Site)) (s : State) (a : Nat) :
    physByte (l.foldl (fun st x => pushStore st x.1.gid (e x)) s) a = physByte s a :=
  foldl_keeps (fun st => physByte st a) _ (fun st _ => physByte_modGroup st _ _ a) l s

/-- Each queued store joins the end of its group's queue. -/
theorem sq_pushStores (l : List (Pos × Site)) (k : Nat) : ∀ s : State, (s.group k).isSome = true →
    ((l.foldl (fun st x => pushStore st x.1.gid (e x)) s).g k).sq =
      (s.g k).sq ++ (l.filter fun x => x.1.gid == k).map e := by
  induction l with
  | nil => intro s _; simp
  | cons x l ih =>
    intro s hs
    have hs' : ((pushStore s x.1.gid (e x)).group k).isSome = true := by
      rw [pushStore, group_modGroup]
      split
      · next hk => rw [Option.isSome_map, ← hk, hs]
      · exact hs
    rw [List.foldl_cons, ih _ hs', pushStore]
    by_cases hk : x.1.gid = k
    · rw [← hk, g_modGroup_self s _ (hk ▸ hs)]
      simp
    · rw [g_modGroup_ne s _ (Ne.symm hk)]
      simp [hk]

end

/-- The entry that a lane's store queues. -/
abbrev storeEntry (s : State) (u : Ux) (f : FmtM) (x : Pos × Site) : StoreEntry :=
  { loc := x.2.loc, bytes := storeBytes s u f.data f.size.toNat x.1 }

/-- The state once the lanes' stores stand in their groups' queues. -/
abbrev queued (s : State) (u : Ux) (f : FmtM) (l : List (Pos × Site)) : State :=
  l.foldl (fun st x => pushStore st x.1.gid (storeEntry s u f x)) s

/-- A store that follows nothing changes the queues alone. -/
theorem stores_queued {s : State} {u : Ux} {f : FmtM} {l : List (Pos × Site)} (hm : mustFollow f l = false) :
    stores f s u l = { st := queued s u f l } := by
  rw [stores, if_neg (by simp [hm])]

/-- A store to plain memory without an order: its commit keeps memory, and the queues that its entries have joined. -/
theorem st_queues {h : Hdr} {f : FmtM} {s s1 : State} {u : Ux} {l : List (Pos × Site)} (hr : Runs s h (shapeSt f) s1 u)
    (ho : f.ord = 0) (hp : Claims.places f .store s1 u = .ok l) (hmt : ∀ x ∈ l, x.2.mt = 0) :
    ∃ t, exec (.st h f) s = .next t ∧ (∀ a, physByte t a = physByte s a) ∧ ∀ k, (s.group k).isSome = true →
      (t.g k).sq = (s.g k).sq ++ (l.filter fun x => x.1.gid == k).map (storeEntry s1 u f) := by
  have hm : mustFollow f l = false := by simpa [mustFollow, ho] using hmt
  obtain rfl : s1 = s := executing_lane rfl hr.1
  have hbody : storeEff f u s1 = .ok { st := queued s1 u f l } :=
    (storeEff_stores hp (by simp [hm])).trans (congrArg _ (stores_queued hm))
  refine ⟨_, issue_plain hr hbody rfl, ?_⟩
  obtain ⟨⟨hmem, -, hhost, hpkg, -⟩, hgroups⟩ := commit_kept (kv := True) (ks := True) (kd := True) (kc := True) (u := u) (h := h)
    (pc := (shapeSt f).perCore) (e := { st := queued s1 u f l }) rfl rfl rfl
  refine ⟨fun a => ?_, fun k hk => ?_⟩
  · exact (physByte_congr hmem hhost hpkg a).trans (physByte_pushStores _ l s1 a)
  · obtain ⟨-, -, -, -, -, -, -, -, -, hsq, -⟩ := hgroups k
    exact hsq.trans (sq_pushStores _ l k s1 hk)

/-! ### The drain of the oldest store -/

/-- The state in which a group's store queue holds `rest`. -/
def dequeued (s : State) (gid : Nat) (rest : List StoreEntry) : State := s.modGroup gid fun g => { g with sq := rest }

section
variable {s : State} {gid : Nat} {e : StoreEntry} {rest : List StoreEntry}

variable (hq : (s.g gid).sq = e :: rest)
include hq

/-- A group with a queued store is one that the state holds. -/
theorem group_isSome_of_sq : (s.group gid).isSome = true := by
  cases hg : s.group gid with
  | some g => rfl
  | none => simp [State.g, hg, Group.blank] at hq

/-- While no fatal error stands, the oldest store drains where it waits for no line and no slot holds the access. -/
theorem execStoreQueueDrain_drains (hf : s.host.fatal = none) (hn : lineNeeded s (locCore s gid e.loc) e.loc = none)
    (hheld : (memHeld s && locFar s (s.g gid).core true e.loc) = false) :
    exec (.storeQueueDrain gid) s = .next (drainOne s gid) := by
  refine (working_runs hf).trans ?_
  simp only [hq, hn, hheld, Bool.false_eq_true, if_false]

/-- While a slot holds the access the store stays. -/
theorem execStoreQueueDrain_held (hf : s.host.fatal = none) (hn : lineNeeded s (locCore s gid e.loc) e.loc = none)
    (hheld : (memHeld s && locFar s (s.g gid).core true e.loc) = true) : exec (.storeQueueDrain gid) s = .next s := by
  refine (working_runs hf).trans ?_
  simp only [hq, hn, hheld, if_true]

/-- While its line has not come, the step changes the directory alone: the line is asked for, or has been. -/
theorem execStoreQueueDrain_asks {line : Nat} (hf : s.host.fatal = none)
    (hn : lineNeeded s (locCore s gid e.loc) e.loc = some line) :
    ∃ d, exec (.storeQueueDrain gid) s = .next { s with dir := d } := by
  rw [show exec (.storeQueueDrain gid) s = _ from working_runs hf]
  simp only [hq, hn]
  split
  · exact ⟨s.dir, rfl⟩
  · obtain ⟨d, hd⟩ := requestLine_eq s line _
    exact ⟨d, congrArg _ hd⟩

end

section
variable {s : State} {gid pa : Nat} {bs : List Byte} {rest : List StoreEntry}

/-- A store to plain memory waits for its line where its die does not hold it. -/
theorem lineNeeded_phys (core : Nat) (hw : isWindow pa = false) (hh : isHole pa = false) (hd : isDark s pa = false) :
    lineNeeded s core (.phys pa) = if (s.line (lineOf pa)).owns (dieOf core) then none else some (lineOf pa) := by
  simp [lineNeeded, canonLoc, hw, hh, hd]

variable (hq : (s.g gid).sq = { loc := .phys pa, bytes := bs } :: rest)
include hq

/-- The oldest store as it drains writes its bytes, gone from its queue. -/
theorem drainOne_phys (hd : isDark s pa = false) : drainOne s gid = writePhys (dequeued s gid rest) pa bs
    ((dequeued s gid rest).g gid).bid ((dequeued s gid rest).g gid).bcore := by
  have hd' : isDark (dequeued s gid rest) pa ≠ true := by simp [dequeued, hd]
  rw [drainOne, hq]
  exact if_neg hd'

/-- It changes exactly its bytes. -/
theorem drainOne_frame (hm : Memory.wf s = true) (hw : isWindow pa = false) (hd : isDark s pa = false) :
    ((drainOne s gid).g gid).sq = rest ∧ ∀ a, physByte (drainOne s gid) a =
      if isWindow a = false ∧ pa ≤ a ∧ a < pa + bs.length then bs.getD (a - pa) 0 else physByte s a := by
  have hm' : Memory.wf (dequeued s gid rest) = true := by
    rw [Memory.wf, dequeued, modGroup_mem]
    exact hm
  rw [drainOne_phys hq hd]
  refine ⟨?_, fun a => ?_⟩
  · rw [g_congr (writePhys_groups _ bs _ _ hw), dequeued, g_modGroup_self s _ (group_isSome_of_sq hq)]
  · rw [physByte_writePhys _ pa bs _ _ a hm' hw, dequeued, physByte_modGroup]

/-- After a fatal error, without the line, or while a slot holds the access, the step changes the directory alone. -/
theorem execStoreQueueDrain_waits (hw : isWindow pa = false) (hh : isHole pa = false) (hd : isDark s pa = false)
    (hn : ¬ (s.host.fatal = none ∧ (s.line (lineOf pa)).owns (dieOf (s.g gid).core) = true ∧
      (memHeld s && locFar s (s.g gid).core true (.phys pa)) = false)) :
    ∃ d, exec (.storeQueueDrain gid) s = .next { s with dir := d } := by
  have hline := lineNeeded_phys (s.g gid).core hw hh hd
  by_cases hf : s.host.fatal = none
  · cases ho : (s.line (lineOf pa)).owns (dieOf (s.g gid).core) with
    | true => exact ⟨s.dir, execStoreQueueDrain_held hq hf (hline.trans (if_pos ho)) (by simpa [hf, ho] using hn)⟩
    | false => exact execStoreQueueDrain_asks hq hf (hline.trans (if_neg (by simp [ho])))
  · exact ⟨s.dir, working_fatal hf⟩

end

/-- Settles O53: queued stores join their queues by `st_queues`; the oldest writes its bytes by `drainOne_frame`, or waits. -/
theorem storeFrame : Obligations.StoreFrame := by
  unfold Obligations.StoreFrame
  refine ⟨fun h f s s1 u l hr ho hp hmt => st_queues hr ho hp hmt, fun s gid pa bs rest hm hq hw hh hd => ?_⟩
  dsimp only
  split
  · next hc =>
    obtain ⟨hf, ho, hheld⟩ := hc
    exact ⟨_, execStoreQueueDrain_drains hq hf ((lineNeeded_phys _ hw hh hd).trans (if_pos ho)) hheld, drainOne_frame hq hm hw hd⟩
  · next hn =>
    obtain ⟨d, hdir⟩ := execStoreQueueDrain_waits hq hw hh hd hn
    exact ⟨_, hdir, rfl, physByte_setDir s d⟩

end Sys2Proof.Machine
end

section
/-!
PROOFS. The atomics and reductions: lane after lane, and what they leave where a later lane traps (R54, R290, R292, R293, R307,
R317, R404, R446, R447).
-/

namespace Sys2Proof.Machine

open Sys2Proof.Claims

section
variable {s : State} {u : Ux} {f : FmtM} {k : State → Res} {l : List (Pos × Site)}

/-- An atomic goes on from the state that it performs on, where none that it follows is held. -/
theorem atomOrdered_free (h : atomFollows f l → unitHeld s u = false) : atomOrdered f u s l k = k (atomFound f s u l) :=
  ordersSome_free h

variable {sizes : List Nat} {groups : Nat} {fp : Bool} {op : Rmw}

/-- Where every lane reaches a place, the lanes perform. -/
theorem atomEff_performs (hs : atomSites s u f sizes (atomLanes f u) = (l, none)) (hc : atomClear f s u l) :
    atomEff f sizes groups fp op u s = .ok (performed f groups fp op s u l) := by
  obtain ⟨hw, hheld⟩ := hc
  rw [atomLanes] at hs
  simp only [atomEff, hs, hw, Bool.false_eq_true, if_false, atomOrdered_free hheld]
  rfl

/-- It waits while what it reaches or follows is held. -/
theorem atomEff_waits (hs : (atomSites s u f sizes (atomLanes f u)).1 = l) (hc : ¬ atomClear f s u l) :
    atomEff f sizes groups fp op u s = .error (.wait .slot) := by
  rw [atomLanes] at hs
  cases hw : writesHeld s l with
  | true => simp only [atomEff, hs, hw, if_true]
  | false =>
    obtain ⟨hfollows, hu⟩ := Classical.not_imp.mp fun hheld => hc ⟨hw, hheld⟩
    simp only [atomEff, hs, hw, Bool.false_eq_true, if_false]
    exact ordersSome_held hfollows (eq_true_of_ne_false hu)

/-- The state that the lanes before a failing one leave: they have performed, with their results and status bits written (R317). -/
def partlyPerformed (f : FmtM) (groups : Nat) (fp : Bool) (op : Rmw) (s : State) (u : Ux) (l : List (Pos × Site)) : State :=
  let d := atomAll s u f groups fp op (atomFound f s u l) l
  (d.2.1.foldl (fun st x => wrWords st f.data x.1 x.2 f.size.toNat) d.1).modGroup u.gid fun g =>
    { g with fst := g.fst ||| BitVec.ofNat 6 d.2.2 }

/-- The lanes of DONE once those before a failing one have performed (R317). -/
def partlyDone (f : FmtM) (groups : Nat) (fp : Bool) (op : Rmw) (s : State) (u : Ux) (l : List (Pos × Site)) : Nat :=
  u.done ||| maskOf ((atomAll s u f groups fp op (atomFound f s u l) l).2.1.map fun x => x.1.lane)

variable {t : Trap} (hs : atomSites s u f sizes (atomLanes f u) = (l, some t)) (hc : atomClear f s u l)
include hs hc

/-- A breakpoint is raised before any lane performs. -/
theorem atomEff_breaks (ht : t.cause = 322) : atomEff f sizes groups fp op u s = .error (.trap { t with done := u.done }) := by
  obtain ⟨hw, hheld⟩ := hc
  rw [atomLanes] at hs
  simp only [atomEff, hs, hw, Bool.false_eq_true, if_false, atomOrdered_free hheld, ht, beq_self_eq_true, if_true]

/-- Another failing lane traps once the lanes before it have performed. -/
theorem atomEff_partly (ht : t.cause ≠ 322) : atomEff f sizes groups fp op u s =
    .error (.partly { t with done := partlyDone f groups fp op s u l } (partlyPerformed f groups fp op s u l)) := by
  obtain ⟨hw, hheld⟩ := hc
  rw [atomLanes] at hs
  simp only [atomEff, hs, hw, Bool.false_eq_true, if_false, atomOrdered_free hheld, beq_iff_eq, ht]
  rfl

end

section
variable {i : Instr} {h : Hdr} {sh : Shape} {f : FmtM} {sizes : List Nat} {groups : Nat} {fp : Bool} {op : Rmw}
  (hx : ∀ s, exec i s = issue h sh s fun u s => atomEff f sizes groups fp op u s)
include hx

/-- An instruction whose body is that of an atomic performs it, or waits. -/
theorem performs_of_body (l : List (Pos × Site)) :
    Commits i h (fun _ => sh) (fun s u => atomSites s u f sizes (atomLanes f u) = (l, none) ∧ atomClear f s u l)
      (fun s u => performed f groups fp op s u l) ∧
    Parks i h (fun _ => sh) (fun s u => (atomSites s u f sizes (atomLanes f u)).1 = l ∧ ¬ atomClear f s u l) fun _ _ => .slot :=
  ⟨commits_of_body hx fun _ _ ⟨hs, hc⟩ => atomEff_performs hs hc, parks_of_body hx fun _ _ ⟨hs, hc⟩ => atomEff_waits hs hc⟩

/-- Where a lane of it fails, it takes that lane's trap after the lanes before it. -/
theorem stops_of_body {s s1 : State} {u : Ux} {l : List (Pos × Site)} {t : Trap} (hr : Runs s h sh s1 u)
    (hs : atomSites s1 u f sizes (atomLanes f u) = (l, some t)) (hc : atomClear f s1 u l) :
    exec i s = .next (if t.cause = 322 then takeTrap s1 u h (h.scope != .lane) { t with done := u.done }
      else takeTrap (partlyPerformed f groups fp op s1 u l) u h (h.scope != .lane)
        { t with done := partlyDone f groups fp op s1 u l }) := by
  rw [hx]
  split
  · next ht => exact issue_stop hr (atomEff_breaks hs hc ht)
  · next ht => exact issue_stop hr (atomEff_partly hs hc ht)

end

/-- Every atomic and reduction is the body of its sizes and its operation. -/
theorem atomicsInLaneOrder : AtomicsInLaneOrder := by
  unfold AtomicsInLaneOrder
  intro h f
  dsimp only
  refine ⟨?aadd, ?amin, ?amax, ?aand, ?aor, ?axor, ?axchg, ?acas, ?acas2, ?afadd, ?ainc, ?adec, ?radd, ?rmin, ?rmax, ?rfadd⟩
  case aadd | amin | amax | aand | aor | axor | axchg | acas | acas2 | afadd | ainc | adec | radd | rmin | rmax | rfadd =>
    exact performs_of_body fun _ => rfl

/-- So is it where a lane fails. -/
theorem atomicsPartlyPerformed : AtomicsPartlyPerformed := by
  unfold AtomicsPartlyPerformed
  intro h f l t
  dsimp only
  refine ⟨?aadd, ?amin, ?amax, ?aand, ?aor, ?axor, ?axchg, ?radd, ?rmin, ?rmax, ?acas, ?acas2, ?afadd, ?rfadd, ?ainc, ?adec⟩
  case aadd | amin | amax | aand | aor | axor | axchg | acas | acas2 | afadd | ainc | adec | radd | rmin | rmax | rfadd =>
    exact fun _ _ _ hr hs hc => stops_of_body (fun _ => rfl) hr hs hc

/-- Settles O23: every atomic has the body of `atomEff`, which answers on the places of its lanes. -/
theorem atomics : Obligations.Atomics := ⟨atomicsInLaneOrder, atomicsPartlyPerformed⟩

end Sys2Proof.Machine
end

section
/-!
PROOFS. Fences, barrier objects and the waits for a phase and for operations (R50, R54, R180, R287, R294 to R304, R449 to R451).
-/

namespace Sys2Proof.Machine

open Sys2Proof.Claims

/-! ### The phase of an object (R300, R304) -/

theorem Bar.settle_met {b : Bar} (hact : b.act = true) (h : b.acnt = b.aexp ∧ b.bcnt = b.bexp) :
    b.settle = { b with phase := b.phase + 1, acnt := 0, bcnt := 0 } := by
  rw [Bar.settle, if_pos (by simp [hact, h])]

theorem Bar.settle_unmet {b : Bar} (h : ¬ (b.acnt = b.aexp ∧ b.bcnt = b.bexp)) : b.settle = b := by
  rw [Bar.settle, if_neg (by simpa [and_assoc] using fun _ => not_and.mp h)]

/-- Below its expectation an object counts an arrival, and moves to the next phase as both expectations are met. -/
theorem phaseCompletes : PhaseCompletes := by
  unfold PhaseCompletes
  intro b hact hroom
  have hone : b.arriveOne = some (b.phase.toNat, Bar.settle { b with acnt := b.acnt + 1 }) := by
    simp [Bar.arriveOne, hroom]
  by_cases hmet : b.acnt + 1 = b.aexp ∧ b.bcnt = b.bexp
  · rw [Bar.settle_met (b := { b with acnt := b.acnt + 1 }) hact hmet] at hone
    exact ⟨_, hone, rfl, rfl, rfl, rfl, fun _ => ⟨rfl, rfl, rfl⟩, fun hn => absurd hmet hn⟩
  · rw [Bar.settle_unmet (b := { b with acnt := b.acnt + 1 }) hmet] at hone
    exact ⟨_, hone, rfl, rfl, rfl, rfl, fun h => absurd h hmet, fun _ => ⟨rfl, rfl, rfl⟩⟩

/-! ### Arrivals (R299, R300, R450) -/

section
variable {s : State} {u : Ux} {f : FmtI} {leader : Bool} {r : List Nat × Bar}

/-- The object that an arrival of a unit reaches. -/
abbrev objOf (s : State) (u : Ux) (f : FmtI) (leader : Bool) : Bar := s.bar (objCore s u.gid leader) f.imm.toNat

/-- The state after the arrivals: the unit's older stores performed, and the object as they leave it. -/
abbrev arrivedAt (s : State) (u : Ux) (f : FmtI) (leader : Bool) (b : Bar) : State :=
  (drainUnit s u).setBar (objCore s u.gid leader) f.imm.toNat b

/-- The arrivals of a unit are made: on an active object, within its expectation, with nothing held that they follow or cross. -/
structure Arrives (s : State) (u : Ux) (f : FmtI) (leader : Bool) (r : List Nat × Bar) : Prop where
  follows : unitHeld s u = false
  crosses : leaderHeld s u.gid leader = false
  active : u.active ≠ []
  act : (objOf s u f leader).act = true
  blk : leader = true → (objOf s u f leader).blk = true
  counts : (objOf s u f leader).arriveMany (if u.scope == .lane then u.active.length else 1) = some r

/-- The arrivals found different phases, under a scalar destination. -/
def mixedPhases (f : FmtI) (r : List Nat × Bar) : Bool := isScalar f.dst && r.1.any fun x => x != r.1.headD 0

theorem mixedPhases_eq_false : mixedPhases f r = false ↔ (isScalar f.dst = true → ∀ x ∈ r.1, x = r.1.headD 0) := by
  cases hd : isScalar f.dst <;> simp [mixedPhases, hd]

/-- An object is in order for arrivals: active, and of the block where the leader core's is named. -/
theorem bar_inOrder {b : Bar} (hact : b.act = true) (hblk : leader = true → b.blk = true) :
    (!b.act || (leader && !b.blk)) = false := by
  cases leader with
  | false => simp [hact]
  | true => simp [hact, hblk rfl]

/-- Arrivals answer the phases that they found, or a free value where these differ under a scalar destination. -/
theorem arriveEff_arrives (h : Arrives s u f leader r) : arriveEff f leader u s = .ok (crossEff u
    (if mixedPhases f r then { arrivedAt s u f leader r.2 with free := (arrivedAt s u f leader r.2).free + 1 }
      else arrivedAt s u f leader r.2) f.dst 32 false u.active fun p => just (
    if mixedPhases f r then (Config.freeWord s.free).toNat % 65536
    else if u.scope == .lane then r.1.getD (u.active.findIdx fun q => q == p) 0 else r.1.headD 0)) := by
  obtain ⟨hfollows, hcrosses, hactive, hact, hblk, hcounts⟩ := h
  rw [arriveEff, if_neg (mt List.isEmpty_iff.mp hactive)]
  simp only [hcrosses, bar_inOrder hact hblk, hcounts, Bool.false_eq_true, if_false, ordered_free hfollows]
  rfl

/-- The phases, where they are alike or a lane each takes its own. -/
theorem arriveEff_alike (h : Arrives s u f leader r) (ha : isScalar f.dst = true → ∀ x ∈ r.1, x = r.1.headD 0) :
    arriveEff f leader u s = .ok (crossEff u (arrivedAt s u f leader r.2) f.dst 32 false u.active fun p =>
      just (if u.scope == .lane then r.1.getD (u.active.findIdx fun q => q == p) 0 else r.1.headD 0)) := by
  simp only [arriveEff_arrives h, mixedPhases_eq_false.mpr ha, Bool.false_eq_true, if_false]

/-- A free value, where they are not (log 29). -/
theorem arriveEff_mixed (h : Arrives s u f leader r) (ha : ¬ (isScalar f.dst = true → ∀ x ∈ r.1, x = r.1.headD 0)) :
    arriveEff f leader u s = .ok (crossEff u
      { arrivedAt s u f leader r.2 with free := (arrivedAt s u f leader r.2).free + 1 } f.dst 32 false u.active
      fun _ => just ((Config.freeWord s.free).toNat % 65536)) := by
  have hm : mixedPhases f r = true := eq_true_of_ne_false (mt mixedPhases_eq_false.mp ha)
  simp only [arriveEff_arrives h, hm, if_true]

/-- Arrivals across a die edge wait while a slot is open. -/
theorem arriveEff_held (ha : u.active ≠ []) (hh : leaderHeld s u.gid leader = true) :
    arriveEff f leader u s = .error (.wait .slot) := by
  rw [arriveEff, if_neg (mt List.isEmpty_iff.mp ha), if_pos hh]

end

/-! ### Expectations (R300, R451) -/

/-- Expectations are in order where both are in range, and the object of a block is one of its leader core. -/
theorem expectations_inOrder {aexp bexp core leaderCore : Nat} {blk : Bool} (h1 : 1 ≤ aexp) (h2 : aexp ≤ 32768)
    (hb : bexp < 2 ^ 28) (hc : blk = true → core = leaderCore) :
    ¬ (aexp == 0 || decide (32768 < aexp) || decide (2 ^ 28 ≤ bexp) || (blk && core != leaderCore)) = true := by
  have h0 : aexp ≠ 0 := by omega
  simpa [h0, h2] using And.intro hb hc

/-! ### The instructions -/

/-- The fence, the arrivals, the waits, the initialisation and the query answer what their clauses name. -/
theorem barriersAndWaits : BarriersAndWaits := by
  unfold BarriersAndWaits
  intro h m f
  dsimp only
  refine ⟨?fence, ?fenceHeld, ?arvxHeld, ?arv, ?arvx, ?arvMixed, ?arvxMixed, ?waitp, ?waitpHeld, ?waitpBehind, ?waitc, ?waitcCounts,
    ?binit, ?bqry⟩
  case fence =>
    refine commits_of_body (fun _ => rfl) fun s u hu => ?_
    simp only [ordered_free hu, hu, Bool.false_eq_true, if_false]
    split <;> rfl
  case fenceHeld =>
    refine parks_of_body (fun _ => rfl) fun s u hu => ?_
    simp only [ordered_held hu, hu, if_true, ite_self]
  case arvxHeld => exact parks_of_body (fun _ => rfl) fun s u ⟨ha, hh⟩ => arriveEff_held ha hh
  case arv =>
    intro r halike
    exact commits_of_body (fun _ => rfl) fun s u ⟨⟨hfollows, hcrosses⟩, ha, hact, hcounts⟩ =>
      arriveEff_alike ⟨hfollows, hcrosses, ha, hact, nofun, hcounts⟩ halike
  case arvx =>
    intro r halike
    exact commits_of_body (fun _ => rfl) fun s u ⟨⟨hfollows, hcrosses⟩, ha, hact, hblk, hcounts⟩ =>
      arriveEff_alike ⟨hfollows, hcrosses, ha, hact, fun _ => hblk, hcounts⟩ halike
  case arvMixed =>
    intro r hmixed
    exact commits_of_body (fun _ => rfl) fun s u ⟨⟨hfollows, hcrosses⟩, ha, hact, hcounts⟩ =>
      arriveEff_mixed ⟨hfollows, hcrosses, ha, hact, nofun, hcounts⟩ hmixed
  case arvxMixed =>
    intro r hmixed
    exact commits_of_body (fun _ => rfl) fun s u ⟨⟨hfollows, hcrosses⟩, ha, hact, hblk, hcounts⟩ =>
      arriveEff_mixed ⟨hfollows, hcrosses, ha, hact, fun _ => hblk, hcounts⟩ hmixed
  case waitp =>
    refine commits_of_body (fun _ => rfl) fun s u ⟨hcrosses, hact, hblk, hbehind⟩ => ?_
    simp only [hcrosses, bar_inOrder hact hblk, Bool.false_eq_true, if_false, beq_iff_eq, hbehind, decide_not]
  case waitpHeld =>
    refine parks_of_body (fun _ => rfl) fun s u hcrosses => ?_
    simp only [hcrosses, if_true]
  case waitpBehind =>
    refine parks_of_body (fun _ => rfl) fun s u ⟨hcrosses, hact, hblk, hbehind⟩ => ?_
    simp only [hcrosses, bar_inOrder hact hblk, Bool.false_eq_true, if_false, hbehind, beq_self_eq_true, if_true]
  case waitc =>
    refine commits_of_body (fun _ => rfl) fun s u ⟨hcount, hnone⟩ => ?_
    have hfind : ((s.g u.gid).covered (f.imm.toNat % 4) (f.imm.toNat / 4)).find? (fun o => o.fault.isSome) = none :=
      List.find?_eq_none.mpr fun o ho => by simp [hnone o ho]
    simp only [if_neg (Nat.not_lt.mpr hcount), hfind]
  case waitcCounts =>
    refine parks_of_body (fun _ => rfl) fun s u hcount => ?_
    simp only [hcount, if_true]
  case binit =>
    refine commits_of_body (fun _ => rfl) fun s u ⟨hu, ha, h1, h2, hb, hc⟩ => ?_
    simp only [if_neg (mt List.isEmpty_iff.mp ha), if_neg (expectations_inOrder h1 h2 hb hc), ordered_free hu]
  case bqry => exact commits_of_body (fun _ => rfl) fun s u _ => rfl

/-- Settles O24: each body answers what its clause names, by the tests that the clause's condition decides. -/
theorem synchronisation : Obligations.Synchronisation := ⟨barriersAndWaits, phaseCompletes⟩

end Sys2Proof.Machine
end

section
/-!
PROOFS. The return from a trap (R54, R314, R316, R329, R383).
-/

namespace Sys2Proof.Machine

/-- Settles O10: behind the unit's older stores, the frame that is read back and the held cause decide what RFT answers. -/
theorem returnFromTrap : Obligations.ReturnFromTrap := by
  unfold Obligations.ReturnFromTrap
  intro h f
  dsimp only
  refine ⟨?resumes, ?waits, ?ends⟩
  case resumes =>
    intro bs
    refine commits_of_body (fun _ => rfl) fun s u ⟨⟨hu, hfree⟩, hread, hc⟩ => ?_
    rw [ordered_free hu]
    simp only [hfree, hread, hc, Bool.not_true, Bool.false_eq_true, if_false]
  case waits =>
    refine parks_of_body (fun _ => rfl) fun s u hheld => ?_
    cases hu : unitHeld s u with
    | true => exact ordered_held hu
    | false =>
      have hframe := hheld.resolve_left (by simp [hu])
      exact (ordered_free hu).trans (if_pos hframe)
  case ends =>
    refine commits_of_body (fun _ => rfl) fun s u ⟨⟨hu, hfree⟩, hread, hc⟩ => ?_
    obtain ⟨bs, hbs⟩ := Option.isSome_iff_exists.mp hread
    rw [ordered_free hu]
    simp only [hfree, hbs, hc, Bool.not_false, Bool.false_eq_true, if_false, if_true]

end Sys2Proof.Machine
end

section
/-!
PROOFS. The lane whose access traps, and the forms and the alignment of addresses (R244, R245, R248, R439).
-/

namespace Sys2Proof.Machine

open Sys2Proof.Claims

/-! ### The lowest failing lane (R439) -/

/-- Where no failing lane is passed over, the first lane without a place gives the trap of all. -/
theorem sitesOf_first_error {s : State} {u : Ux} {f : FmtM} {k : Kind} {p : Pos} {t : Trap} {a b : List Pos}
    (ha : ∀ q ∈ a, ∃ x, siteOf s u f k q = .ok x) (hp : siteOf s u f k p = .error t) :
    sitesOf s u f k false (a ++ p :: b) = .error t := by
  induction a with
  | nil => simp [sitesOf, hp]
  | cons q a ih =>
    obtain ⟨⟨x, hx⟩, ha⟩ := List.forall_mem_cons.mp ha
    simp [sitesOf, hx, ih ha]

section
variable {i : Instr} {h : Hdr} {sh : Shape} {f : FmtM} (t : Trap)

/-- An instruction whose body is that of a load takes the trap of the lowest failing lane. -/
theorem load_traps_lowest (hx : ∀ s, exec i s = issue h sh s fun u s => loadEff f u s) : Traps i h (fun _ => sh) (fun s u =>
    (Kind.load = .load → f.cache.getLsbD 2 = false) ∧ ∃ a p b, workLanes u (isScalar f.data) = a ++ p :: b ∧
      (∀ q ∈ a, ∃ x, siteOf s u f .load q = .ok x) ∧ siteOf s u f .load p = .error t) fun _ _ => t :=
  traps_of_body hx fun s u ⟨hpf, a, p, b, hw, ha, hp⟩ => by
    simp only [loadEff, hpf rfl, hw, sitesOf_first_error ha hp]

/-- So does one whose body is that of a store. -/
theorem store_traps_lowest (hx : ∀ s, exec i s = issue h sh s fun u s => storeEff f u s) : Traps i h (fun _ => sh) (fun s u =>
    (Kind.store = .load → f.cache.getLsbD 2 = false) ∧ ∃ a p b, workLanes u (isScalar f.data) = a ++ p :: b ∧
      (∀ q ∈ a, ∃ x, siteOf s u f .store q = .ok x) ∧ siteOf s u f .store p = .error t) fun _ _ => t :=
  traps_of_body hx fun s u ⟨_, a, p, b, hw, ha, hp⟩ => by
    simp only [storeEff, hw, sitesOf_first_error ha hp]

end

/-- The loads and the stores share two bodies. -/
theorem lowestFailingLaneTraps : LowestFailingLaneTraps := by
  unfold LowestFailingLaneTraps
  intro h f
  dsimp only
  refine ⟨?ld, ?ldt, ?ldp, ?lds, ?ldc, ?ldgn, ?st, ?stt, ?stp, ?sts, ?stgn⟩
  case ld | ldt | ldp | lds | ldc | ldgn => exact fun t => load_traps_lowest t fun _ => rfl
  case st | stt | stp | sts | stgn => exact fun t => store_traps_lowest t fun _ => rfl

/-! ### The form of an address (R244, R245) -/

/-- An address in the form of its own space decodes to itself. -/
theorem decodeAddr_inForm {space ea : Nat} (h0 : space ≠ 0) (h : inForm space ea = true) :
    decodeAddr space ea = .ok ⟨space, ea, none⟩ := by
  simp [decodeAddr, h0, h]

/-- One outside it does not decode. -/
theorem decodeAddr_outside {space ea : Nat} (h0 : space ≠ 0) (h : inForm space ea = false) :
    decodeAddr space ea = .error space := by
  simp [decodeAddr, h0, h]

/-- A generic address below 2^57 is one of global space. -/
theorem decodeAddr_generic_global {ea : Nat} (h : ea < 2 ^ 57) : decodeAddr 0 ea = .ok ⟨1, ea, none⟩ := by
  have htop : bits ea 63 56 < 2 := lt_of_le_of_lt (Nat.mod_le _ _) (Nat.div_lt_of_lt_mul (by omega))
  simp [decodeAddr, decodeGeneric, htop]

/-- A generic address between global space and the lowest window is in no space. -/
theorem decodeAddr_generic_none {ea : Nat} (h2 : 2 ≤ bits ea 63 56) (hFC : bits ea 63 56 < 0xFC) :
    decodeAddr 0 ea = .error 0 := by
  have hF : ¬ bits ea 63 56 = 0xFF ∧ ¬ bits ea 63 56 = 0xFE ∧ ¬ bits ea 63 56 = 0xFD ∧ ¬ bits ea 63 56 = 0xFC := by omega
  simp [decodeAddr, decodeGeneric, Nat.not_lt.mpr h2, hF]

/-! ### The alignment and the bounds of a decoded address (R248) -/

section
variable {s : State} {gid lane space ea n : Nat} {k : Kind}

/-- An address that does not decode is a WINDOW fault. -/
theorem access_window {sp : Nat} (hd : decodeAddr space ea = .error sp) :
    access s gid lane space ea n k = .error (memCause sp 2, ea) := by
  simp only [access, hd]

/-- A misaligned address of global or constant space is a BOUNDS fault. -/
theorem access_translated_bounds {d : Decoded} (hd : decodeAddr space ea = .ok d) (hs : d.space = 1 ∨ d.space = 6)
    (hn : d.rest % n ≠ 0) : access s gid lane space ea n k = .error (memCause d.space 3, ea) := by
  have hs : (d.space == 1 || d.space == 6) = true := by simpa using hs
  simp only [access, hd, hs, bne_iff_ne, ne_eq, hn, not_false_iff, if_true]

/-- A misaligned address of a lane's own space is one, and so is one whose access passes its end. -/
theorem access_private_bounds (hf : ea < 2 ^ 16) (hn : ea % n ≠ 0 ∨ 65536 < ea + n) :
    access s gid lane 3 ea n k = .error (memCause 3 3, ea) := by
  have hd : decodeAddr 3 ea = .ok ⟨3, ea, none⟩ := decodeAddr_inForm (by decide) (decide_eq_true hf)
  have hn : (ea % n != 0 || decide (ea + n > 65536)) = true := by simpa using hn
  simp [access, hd, hn]

/-- So is a misaligned address of tile space, and one whose access passes the end of the allocation. -/
theorem access_tile_bounds (hf : ea < 2 ^ 21) (hn : ea % n ≠ 0 ∨ (s.launchOf (s.g gid).bid).tileb < ea + n) :
    access s gid lane 2 ea n k = .error (memCause 2 3, ea) := by
  have hd : decodeAddr 2 ea = .ok ⟨2, ea, none⟩ := decodeAddr_inForm (by decide) (decide_eq_true hf)
  have hoff : bits ea 20 0 = ea := by simpa [bits] using Nat.mod_eq_of_lt hf
  have hn : (ea % n != 0 || decide (ea + n > (s.launchOf (s.g gid).bid).tileb)) = true := by simpa using hn
  simp [access, hd, tileCoreOf, hoff, hn]

end

/-- The decoding, then the alignment decide the fault of an access. -/
theorem addressFormAndAlignment : AddressFormAndAlignment := by
  unfold AddressFormAndAlignment
  intro s gid lane space ea n k
  refine ⟨fun h1 _ hf => ?outside, fun hs hf hn => ?translated, fun hs => ?inPrivate, fun hs => ?inTile,
    fun hf hn => ?generic, fun h2 hFC => ?nowhere⟩
  case outside => exact access_window (decodeAddr_outside (Nat.one_le_iff_ne_zero.mp h1) hf)
  case translated =>
    have hd : decodeAddr space ea = .ok ⟨space, ea, none⟩ := by
      rcases hs with rfl | rfl <;> exact decodeAddr_inForm (by decide) (decide_eq_true hf)
    exact access_translated_bounds hd hs hn
  case inPrivate =>
    subst hs
    exact access_private_bounds
  case inTile =>
    subst hs
    exact access_tile_bounds
  case generic => exact access_translated_bounds (decodeAddr_generic_global hf) (.inl rfl) hn
  case nowhere => exact access_window (decodeAddr_generic_none h2 hFC)

/-- Settles O20: the lowest failing lane of an access, and what its address fails by. -/
theorem accessTraps : Obligations.AccessTraps := ⟨lowestFailingLaneTraps, addressFormAndAlignment⟩

end Sys2Proof.Machine
end

section
/-!
PROOFS. MMA and its forms (R108, R312, R313, R471, R473 to R475).
-/

namespace Sys2Proof.Machine

open Sys2Proof.Claims

/-- The first failing check of an instruction gives its cause. -/
theorem checked_fails {a b : List (Option Nat)} {c : Nat} {k : Res} (h : passes a) : checked (a ++ some c :: b) k = trapOf c := by
  simp only [checked, firstSome_append_some h]

section
variable {s : State} {f : FmtX} {cores : List Nat} {k : Res}

/-- Sound accumulators let an instruction that reads them go on. -/
theorem readsAcc_sound (h : accSound f cores s = true) : readsAcc s f cores k = k := by
  have h : cores.any (accBad s f.acc.toNat) = false := by simpa [accSound] using h
  simp [readsAcc, h]

/-- An uncorrectable error in one of them is 1.15 (log 124). -/
theorem readsAcc_unsound (h : accSound f cores s = false) : readsAcc s f cores k =
    .error (.partly { cause := 47, info := (Config.freeWord s.free).toNat % 1024 } { s with free := s.free + 1 }) := by
  have h : cores.any (accBad s f.acc.toNat) = true := by simpa [accSound] using h
  simp [readsAcc, h]

end

section
variable {s : State} {u : Ux} {f : FmtX} {op : Nat} {tri pair : Bool}

/-- The cores whose arrays a product is on: the group's own, and under a bound follower that of the partner core too (R474). -/
def mmaCores (pair : Bool) (s : State) (u : Ux) : List Nat := if pair then [(s.g u.gid).core, (s.g u.gid).core + 1] else own s u

/-- What an active product answers: the budget, then the accumulators, then the checks stop it, or it starts. -/
theorem mmaEff_active (ha : u.active ≠ []) : mmaEff f op tri pair u s =
    budgeted s (s.g u.gid).bid (mmaCharge f pair u s) (readsAcc s f (mmaCores pair s u) (checked (mmaChecks f tri pair u s)
      (startX u s (jobX s u op f (mmaWords f u s)) (mmaCores pair s u) (mmaBytes f pair u s) none none))) :=
  if_neg (mt List.isEmpty_iff.mp ha)

/-- The charge of a product is the bytes that it moves. -/
theorem mmaCharge_affords (h : overBudget s (s.g u.gid).bid (mmaBytes f pair u s) = false) :
    affords (fun s u => mmaCharge f pair u s) s u := by
  intro n hn
  rw [← Option.some.inj (Option.ite_none_right_eq_some.mp hn).2]
  exact h

end

/-- An instruction whose body is that of a product joins the arrays, or takes the trap of the budget, the accumulators or the
checks. -/
theorem mma_of_body {i : Instr} {h : Hdr} {sh : Shape} {f : FmtX} {op : Nat} {tri pair : Bool}
    (hx : ∀ s, exec i s = issue h sh s fun u s => mmaEff f op tri pair u s) :
    let charge (s : State) (u : Ux) : Option Nat := mmaCharge f pair u s
    Commits i h (fun _ => sh) (fun s u => u.active ≠ [] ∧ accSound f (mmaCores pair s u) s = true ∧
      passes (mmaChecks f tri pair u s) ∧ arrayOpens (mmaBytes f pair u s) s u) (fun s u =>
      arrayOpened s u (jobX s u op f (mmaWords f u s)) (mmaCores pair s u) (mmaBytes f pair u s) none none) ∧
    BudgetTraps i h (fun _ => sh) charge ∧ AccErrorTraps i h f (fun _ => sh) (mmaCores pair) charge ∧
    ∀ c, Traps i h (fun _ => sh) (fun s u => u.active ≠ [] ∧ affords charge s u ∧ accSound f (mmaCores pair s u) s = true ∧
      ∃ a b, mmaChecks f tri pair u s = a ++ some c :: b ∧ passes a) fun _ _ => { cause := c } := by
  refine ⟨?joins, ?budget, ?accumulator, ?check⟩
  case joins =>
    refine commits_of_body hx fun s u ⟨ha, hacc, hchecks, ho⟩ => ?_
    rw [mmaEff_active ha, budgeted_affords (mmaCharge_affords ho.1), readsAcc_sound hacc, checked_passes hchecks, startX_opens ho]
  case budget =>
    intro n
    refine traps_of_body hx fun s u ⟨ha, hn, hover⟩ => ?_
    dsimp only at hn
    rw [mmaEff_active ha, hn, budgeted_over hover]
  case accumulator =>
    intro s s1 u hr ha hpaid hacc
    rw [hx, issue_stop hr ((mmaEff_active ha).trans ((budgeted_affords hpaid).trans (readsAcc_unsound hacc)))]
    rfl
  case check =>
    intro c
    refine traps_of_body hx fun s u ⟨ha, hpaid, hacc, a, b, hlist, hpass⟩ => ?_
    rw [mmaEff_active ha, budgeted_affords hpaid, readsAcc_sound hacc, hlist, checked_fails hpass, trapOf]

/-- Settles O28: MMA and its forms share one body. -/
theorem matrixMultiplies : Obligations.MatrixMultiplies := by
  unfold Obligations.MatrixMultiplies
  intro h f
  refine ⟨?mma, ?mmap, ?mmat, ?mmapt⟩
  case mma | mmap | mmat | mmapt => exact mma_of_body fun _ => rfl

end Sys2Proof.Machine
end

section
/-!
PROOFS. An exception without a handler and the double fault (R33, R83, R315, R331).
-/

namespace Sys2Proof.Machine

open Sys2Proof.Claims

/-! ### The end of a launch (R315, R331) -/

section
variable (s : State) (lid : Nat)

/-- A launch that has stopped keeps everything but its mark. -/
theorem stopLaunch_launch_self {l : Launch} (hl : s.launch lid = some l) :
    (stopLaunch s lid).launch lid = some { l with stopped := true } := by
  rw [stopLaunch, hl]
  exact launch_setLaunch_self s lid _

@[simp] theorem stopLaunch_host : (stopLaunch s lid).host = s.host := by
  unfold stopLaunch
  dsimp only
  split <;> rfl

theorem stopLaunch_b (k : Nat) : (stopLaunch s lid).b k = s.b k := by
  rw [State.b, State.block, stopLaunch_blocks]
  rfl

/-- Every group of a launch that has stopped is stopped, and no other. -/
theorem stopLaunch_group (k : Nat) :
    (stopLaunch s lid).group k = (s.group k).map fun g => if (s.b g.bid).lid == lid then g.stopped else g := by
  have hmap (t : State) : (stopLaunchGroups t lid).group k =
      (t.group k).map fun g => if (t.b g.bid).lid == lid then g.stopped else g :=
    FMap.get_map (fun _ => Option.map fun g : Group => if (t.b g.bid).lid == lid then g.stopped else g) (fun _ => rfl) t.groups k
  unfold stopLaunch
  dsimp only
  split
  · exact hmap s
  · exact hmap _

/-- A group of a launch that has stopped has no live lane, and each of its narrow groups has exited. -/
theorem stopLaunch_stops {k : Nat} {g : Group} (hg : (stopLaunch s lid).group k = some g)
    (hlid : ((stopLaunch s lid).b g.bid).lid = lid) : g.alive = 0 ∧ ∀ n ∈ g.narrows, n.st = .exited := by
  rw [stopLaunch_b] at hlid
  rw [stopLaunch_group] at hg
  obtain ⟨g0, -, rfl⟩ := Option.map_eq_some_iff.mp hg
  cases h0 : (s.b g0.bid).lid == lid with
  | false =>
    rw [h0] at hlid
    exact absurd hlid (by simpa using h0)
  | true =>
    refine ⟨rfl, fun n hn => ?_⟩
    obtain ⟨n0, -, rfl⟩ := List.mem_map.mp hn
    rfl

@[simp] theorem markFaulted_host (cause faddr : Nat) : (markFaulted s lid cause faddr).host = s.host := by
  unfold markFaulted
  split <;> rfl

end

/-- Between two states a launch has ended FAULTED by a fault on a core: it is marked with the cause of its first fault, every
group of it has stopped, and the fault is listed (R315, R331). -/
def EndsFaulted (core lid : Nat) (a b : State) (cause faddr : Nat) : Prop := ∀ l, a.launch lid = some l → l.draw = none →
  (∃ l', b.launch lid = some l' ∧ l'.faulted = true ∧ l'.stopped = true ∧
    (l.faulted = false → l'.cause = cause ∧ l'.faddr = faddr)) ∧
  (∀ k g', b.group k = some g' → (b.b g'.bid).lid = lid → g'.alive = 0 ∧ ∀ n ∈ g'.narrows, n.st = .exited) ∧
  b.host.faults = a.host.faults ++ [{ cause := cause, core := some core, q := l.q, tag := l.tag, lid := lid }]

/-- The launch of a group ends FAULTED (R315). -/
theorem endLaunch_ends (s : State) (gid cause faddr : Nat) :
    EndsFaulted (s.g gid).core (s.b (s.g gid).bid).lid s (endLaunch s gid cause faddr) cause faddr := by
  intro l hl hd
  have hL : s.l (s.b (s.g gid).bid).lid = l := by rw [State.l, hl]; rfl
  unfold endLaunch
  dsimp only
  rw [hL, hd]
  dsimp only
  refine ⟨⟨_, stopLaunch_launch_self _ _ (l := { l with
      faulted := true, cause := if l.faulted then l.cause else cause, faddr := if l.faulted then l.faddr else faddr }) ?_,
    rfl, rfl, fun h0 => by simp [h0]⟩, fun k g' => stopLaunch_stops _ _, ?_⟩
  · rw [markFaulted, hl]
    exact launch_setLaunch_self s _ _
  · rw [stopLaunch_host, markFaulted_host]

/-- The end of a launch, by its own fault or by that of its draw, changes of the host side the list of faults alone (R315,
R509). -/
theorem endLaunch_host (s : State) (gid cause faddr : Nat) :
    ∃ l, (endLaunch s gid cause faddr).host = { s.host with faults := l } := by
  unfold endLaunch
  dsimp only
  split
  · unfold endDraw
    split
    · exact ⟨s.host.faults, rfl⟩
    · rw [stopLaunch_host, stopLaunch_host, markFaulted_host]
      exact ⟨_, rfl⟩
  · rw [stopLaunch_host, markFaulted_host]
    exact ⟨_, rfl⟩

/-! ### The double fault (R83, R315) -/

/-- A state after events have been sent. -/
def withEvents (s : State) (seq : Word) (l : List Event) : State :=
  { s with host := { s.host with evseq := seq, sent := s.host.sent ++ l } }

/-- The check of a dark stack sends one event where the access reaches one, and changes nothing else (R33). -/
theorem checkDark_eq (s : State) (ctx : Nat) (want : Want) (va n : Nat) :
    ∃ seq l, checkDark s ctx want va n = withEvents s seq l ∧ l.length = if (darkIn s ctx want va n).isSome then 1 else 0 := by
  unfold checkDark
  cases darkIn s ctx want va n with
  | none => exact ⟨s.host.evseq, [], by simp [withEvents], rfl⟩
  | some d => exact ⟨_, [_], rfl, rfl⟩

/-- In user mode it sends one event where the access reaches a dark stack; in system mode none is sent. -/
theorem checkDark_unless (sys : Bool) (s : State) (ctx : Nat) (want : Want) (va n : Nat) : ∃ seq l,
    (if sys = true then s else checkDark s ctx want va n) = withEvents s seq l ∧
      l.length + 1 = if sys = false ∧ (darkIn s ctx want va n).isSome = true then 2 else 1 := by
  cases sys with
  | true => exact ⟨s.host.evseq, [], by simp [withEvents], rfl⟩
  | false =>
    obtain ⟨seq, l, hx, hlen⟩ := checkDark_eq s ctx want va n
    refine ⟨seq, l, hx, ?_⟩
    rw [hlen]
    cases (darkIn s ctx want va n).isSome <;> rfl

/-- A double fault keeps the frames of the launch, sends one event, and ends the launch with 11.9. -/
theorem doubleFault_eq (s : State) (gid : Nat) : ∃ seq e,
    doubleFault s gid = endLaunch { withEvents s seq [e] with
      host := { (withEvents s seq [e]).host with frames := s.host.frames ++ launchFrames s (s.b (s.g gid).bid).lid } }
      gid 0x169 0 :=
  ⟨_, _, rfl⟩

section
variable (s : State) (gid : Nat) (seq : Word) (l : List Event)

/-- A double fault ends the launch of its group, also after events. -/
theorem doubleFault_ends :
    EndsFaulted (s.g gid).core (s.b (s.g gid).bid).lid s (doubleFault (withEvents s seq l) gid) 0x169 0 := by
  obtain ⟨n, e, h⟩ := doubleFault_eq (withEvents s seq l) gid
  rw [h]
  exact endLaunch_ends { withEvents (withEvents s seq l) n [e] with
    host := { (withEvents (withEvents s seq l) n [e]).host with frames := _ } } gid 0x169 0

theorem doubleFault_sent : (doubleFault (withEvents s seq l) gid).host.sent.length = s.host.sent.length + (l.length + 1) := by
  obtain ⟨n, e, h⟩ := doubleFault_eq (withEvents s seq l) gid
  obtain ⟨fs, hh⟩ := endLaunch_host _ gid 0x169 0
  rw [h, hh]
  simp [withEvents]

theorem doubleFault_frames : (doubleFault (withEvents s seq l) gid).host.frames =
    s.host.frames ++ launchFrames (withEvents s seq l) (s.b (s.g gid).bid).lid := by
  obtain ⟨n, e, h⟩ := doubleFault_eq (withEvents s seq l) gid
  obtain ⟨fs, hh⟩ := endLaunch_host _ gid 0x169 0
  rw [h, hh]
  rfl

end

/-! ### The exception -/

section
variable {s : State} {u : Ux} {h : Hdr} {once : Bool} {t : Trap} (hh : trapHeld s u.gid = false) (hc : t.cause / 32 ≠ 11)
include hh hc

/-- With TVEC 0 in user mode the exception ends the launch. -/
theorem takeTrap_unhandled (hs : ((drainAll s u.gid).g u.gid).sys = false)
    (ht : ((drainAll s u.gid).core ((drainAll s u.gid).g u.gid).core).tvec = 0) :
    takeTrap s u h once t = endLaunch (drainAll s u.gid) u.gid t.cause t.faddr := by
  simp only [takeTrap, hh, hs, ht, beq_iff_eq, hc, Bool.false_eq_true, if_false, if_true]

/-- In system mode it is a double fault, and so it is, after the check of a dark stack, where its frame cannot be written. -/
theorem takeTrap_double (hd : let s0 := drainAll s u.gid
      let g := s0.g u.gid
      g.sys = true ∨ (s0.core g.core).tvec ≠ 0 ∧
        vWrite s0 (s0.launchOf g.bid).ctx sysWrite (frameVa s0 g) (frameBytes g (g.nar u.slices) u h once t) g.bid g.bcore = none) :
    let s0 := drainAll s u.gid
    let g := s0.g u.gid
    takeTrap s u h once t =
      doubleFault (if g.sys = true then s0 else checkDark s0 (s0.launchOf g.bid).ctx sysWrite (frameVa s0 g) 1152) u.gid := by
  intro s0 g
  dsimp only at hd
  cases hs : g.sys with
  | true => simp only [takeTrap, hh, g, s0, hs, beq_iff_eq, hc, Bool.false_eq_true, if_false, if_true]
  | false =>
    obtain ⟨ht, hw⟩ := hd.resolve_left (by simp [hs, g, s0])
    simp only [takeTrap, hh, g, s0, hs, beq_iff_eq, hc, ht, hw, Bool.false_eq_true, if_false]

end

/-- Settles O47: an exception without a handler ends the launch, or is a double fault, with the check of a dark stack before
it or not. -/
theorem trapWithoutHandler : Obligations.TrapWithoutHandler := by
  unfold Obligations.TrapWithoutHandler
  intro s u h once t s0 g lid stops dark hh hc
  refine ⟨fun hs ht => ?unhandled, fun hd => ?double⟩
  case unhandled =>
    rw [takeTrap_unhandled hh hc hs ht]
    exact endLaunch_ends s0 u.gid t.cause t.faddr
  case double =>
    obtain ⟨seq, l, hx, hlen⟩ := checkDark_unless g.sys s0 (s0.launchOf g.bid).ctx sysWrite (frameVa s0 g) 1152
    rw [takeTrap_double hh hc hd]
    dsimp only [s0, g] at hx ⊢
    rw [hx]
    exact ⟨doubleFault_ends s0 u.gid seq l, hlen ▸ doubleFault_sent s0 u.gid seq l, doubleFault_frames s0 u.gid seq l⟩

end Sys2Proof.Machine
end

section
/-!
PROOFS. The traps of newly set status bits (R197, R332).
-/

namespace Sys2Proof.Machine

/-! ### The first value of a list -/

/-- A value that an element of a list has, and no other element has any, is the first. -/
theorem firstSome_map_only {α β : Type} {l : List α} {f : α → Option β} {x : α} {y : β} (hm : x ∈ l) (hx : f x = some y)
    (ho : ∀ z, z ≠ x → f z = none) : firstSome (l.map f) = some y := by
  obtain ⟨a, b, rfl, hxa⟩ := List.eq_append_cons_of_mem hm
  rw [List.map_append, List.map_cons, hx]
  refine firstSome_append_some fun v hv => ?_
  obtain ⟨z, hz, rfl⟩ := List.mem_map.mp hv
  exact ho z fun he => hxa (he ▸ hz)

/-- Below a bound, the least number with a value has the first. -/
theorem firstSome_map_range {β : Type} {f : Nat → Option β} {m n : Nat} {y : β} (hn : n < m) (hy : f n = some y)
    (hl : ∀ k, k < n → f k = none) : firstSome ((List.range m).map f) = some y := by
  obtain ⟨j, rfl⟩ : ∃ j, m = n + (j + 1) := ⟨m - n - 1, by omega⟩
  rw [List.range_add, List.range_succ_eq_map, List.map_append, List.map_cons, List.map_cons, Nat.add_zero, hy]
  refine firstSome_append_some fun v hv => ?_
  obtain ⟨k, hk, rfl⟩ := List.mem_map.mp hv
  exact hl k (List.mem_range.mp hk)

/-! ### The status bits of a group -/

theorem tb_toNat {w : Nat} (x : BitVec w) (n : Nat) : tb x.toNat n = x.getLsbD n := by
  rw [tb, ← BitVec.testBit_toNat, Nat.testBit_eq_decide_div_mod_eq]
  rfl

section
variable (s : State) (e : Eff) (gid : Nat)

/-- The status bits that an effect newly sets in a group. -/
def newStatus : BitVec 6 := BitVec.ofNat 6 (newFst e gid) &&& ~~~ (s.g gid).fst

/-- Those of them that are enabled to trap. -/
def hotStatus : BitVec 6 := newStatus s e gid &&& (s.g gid).ftrap

/-- The trap that an effect takes by a group's status bits. -/
def statusTrap : Option Trap :=
  let hot := (newStatus s e gid).toNat &&& (s.g gid).ftrap.toNat
  if hot == 0 then none
  else firstSome ((List.range 6).map fun n =>
    if tb hot n then some { cause := 2 * 32 + 8 + n, info := (newStatus s e gid).toNat } else none)

theorem fstTrap_eq : fstTrap s e = firstSome ((e.fst.map (·.1)).eraseDups.map (statusTrap s e)) := rfl

/-- The bits that decide it are those of `hotStatus`. -/
theorem statusTrap_eq : statusTrap s e gid = if hotStatus s e gid = 0 then none
    else firstSome ((List.range 6).map fun n =>
      if (hotStatus s e gid).getLsbD n then some { cause := 72 + n, info := (newStatus s e gid).toNat } else none) := by
  have h0 : (hotStatus s e gid).toNat = 0 ↔ hotStatus s e gid = 0 :=
    ⟨fun h => BitVec.eq_of_toNat_eq h, fun h => by rw [h]; rfl⟩
  have hand : (newStatus s e gid).toNat &&& (s.g gid).ftrap.toNat = (hotStatus s e gid).toNat := (BitVec.toNat_and _ _).symm
  simp only [statusTrap, hand, tb_toNat, beq_iff_eq, h0]

end

section
variable {s : State} {e : Eff} {gid n : Nat}

theorem statusTrap_none (h : hotStatus s e gid = 0) : statusTrap s e gid = none := by
  rw [statusTrap_eq, if_pos h]

/-- The lowest enabled bit gives the cause, and INFO holds every newly set bit. -/
theorem statusTrap_lowest (hn : (hotStatus s e gid).getLsbD n = true) (hl : ∀ k, k < n → (hotStatus s e gid).getLsbD k = false) :
    statusTrap s e gid = some { cause := 72 + n, info := (newStatus s e gid).toNat } := by
  have h0 : hotStatus s e gid ≠ 0 := fun h => by simp [h] at hn
  rw [statusTrap_eq, if_neg h0]
  exact firstSome_map_range (BitVec.lt_of_getLsbD hn) (if_pos hn) fun k hk => if_neg (by simp [hl k hk])

/-- A group in which an effect sets a status bit stands in the effect's list. -/
theorem mem_fst_of_newFst (h : newFst e gid ≠ 0) : gid ∈ (e.fst.map (·.1)).eraseDups := by
  rw [List.mem_eraseDups, List.mem_map]
  by_contra hno
  refine h ?_
  rw [newFst, List.filter_eq_nil_iff.mpr fun x hx he => hno ⟨x, hx, beq_iff_eq.mp he⟩]
  rfl

/-- Where the enabled bits are newly set in one group alone, the lowest of them gives the trap of the effect. -/
theorem fstTrap_lowest (ho : ∀ k, k ≠ gid → hotStatus s e k = 0) (hn : (hotStatus s e gid).getLsbD n = true)
    (hl : ∀ k, k < n → (hotStatus s e gid).getLsbD k = false) :
    fstTrap s e = some { cause := 72 + n, info := (newStatus s e gid).toNat } := by
  have hset : newFst e gid ≠ 0 := fun h => by simp [hotStatus, newStatus, h] at hn
  rw [fstTrap_eq]
  exact firstSome_map_only (mem_fst_of_newFst hset) (statusTrap_lowest hn hl) fun k hk => statusTrap_none (ho k hk)

end

/-- Settles O50: the lowest enabled bit gives the trap, by `fstTrap_lowest`; a group is created from a blank one, whose
FTRAP is 0. -/
theorem statusTraps : Obligations.StatusTraps := by
  unfold Obligations.StatusTraps
  refine ⟨?traps, fun l b bid g args => rfl⟩
  case traps =>
    intro h sh s s1 u body e gid n new hot hr hb ho hn hl
    exact issue_fst hr hb (fstTrap_lowest ho hn hl)

end Sys2Proof.Machine
end

section
/-!
PROOFS. The decoder reads every well-formed encoded instruction back from its word (R338 to R356).
-/

namespace Sys2Proof

/-- The instruction that a word of a row and a column of the opcode map holds: `decodeWord` with its two numbers apart. -/
noncomputable def decodeAt (row col : Nat) (w : Word96) : Instr :=
  match row with
  | 0 => decodeRow0 col w
  | 1 => decodeRow1 col w
  | 2 => decodeRow2 col w
  | 3 => decodeRow3 col w
  | 4 => decodeRow4 col w
  | 5 => decodeRow5 col w
  | 6 => decodeRow6 col w
  | 7 => decodeRow7 col w
  | 8 => decodeRow8 col w
  | 9 => decodeRow9 col w
  | 10 => decodeRow10 col w
  | 11 => decodeRow11 col w
  | 12 => decodeRow12 col w
  | 13 => decodeRow13 col w
  | 14 => decodeRow14 col w
  | _ => decodeRow15 col w

theorem decodeWord_eq (w : Word96) : decodeWord w = decodeAt (w.extractLsb' 92 4).toNat (w.extractLsb' 88 4).toNat w := rfl

section
variable {op : BitVec 8} {h : Hdr} {w : Word96}

/-- The opcode of a joined word names its row and its column (R339, R357). -/
theorem decodeWord_joinWord (b : BitVec 79) : decodeWord (joinWord op h b) =
    decodeAt (op.extractLsb' 4 4).toNat (op.extractLsb' 0 4).toNat (joinWord op h b) := by
  rw [decodeWord_eq, row_joinWord, col_joinWord]

/-- A word that is joined from the encoding `e f` of fields is read back as `k h f`, where the decoder `d` of the format reads
the fields back and its place in the opcode map holds `k`. -/
theorem decodeWord_of_format {F : Type} {f : F} {e : F → BitVec 79} {d : Word96 → F} {k : Hdr → F → Instr}
    (hw : some (joinWord op h (e f)) = some w) (hd : d (joinWord op h (e f)) = f)
    (hk : decodeAt (op.extractLsb' 4 4).toNat (op.extractLsb' 0 4).toNat (joinWord op h (e f)) =
      k (decodeHdr (joinWord op h (e f))) (d (joinWord op h (e f)))) : decodeWord w = k h f := by
  rw [← Option.some.inj hw, decodeWord_joinWord, hk, decodeHdr_joinWord, hd]

/-- Bit 0 of a format E word is that of its FN. -/
theorem bit_joinWord_encodeE (f : FmtE) : (joinWord op h (encodeE f)).getLsbD 0 = f.fn.getLsbD 0 := by
  simp (disch := omega) only [joinWord, encodeE, bit_lo]

/-- Bit 22 of a format I word is that of the immediate's lowest. -/
theorem bit_joinWord_encodeI (f : FmtI) : (joinWord op h (encodeI f)).getLsbD 22 = f.imm.getLsbD 0 := by
  simp (disch := omega) only [joinWord, encodeI, bit_lo, bit_hi, Nat.sub_self]

end

/-- Settles O42: each opcode of the encoder stands in the decoder's map at its own place, and each format reads its fields back;
one bit of the fields tells the two rows of a shared opcode apart. -/
theorem decodeReadsEncoding : Obligations.DecodeReadsEncoding := by
  unfold Obligations.DecodeReadsEncoding
  intro i w hwf hw
  cases i
  case doorbell | completionAcknowledgement | queueEnable | queueDisable | registerWrite | launchCommand | copyCommand |
    copyCommandComplete | signalCommand | waitCommand | waitSatisfied | ctxCreate | ctxDestroy | ctxRegister | ctxRevoke |
    resync | dumpStatus | dumpRelease | attest | badkind | rdmaWrite | rdmaRead | send | ceMarkReceived | portEnableMaskWrite |
    moduleReset | bootStageVerify | fatalError | uncorrectableMemoryError | phaseLoss | dieLinkModuleOff | dieOfflineRequest |
    dieOnlineRequest | pendingTransitionStart | diePreemptComplete | pageMigrate | dieEvacuateComplete | dieRemapComplete |
    dieWakeComplete | dieRemapinComplete | frameBoundary | lSlotAnnounce | drainWindowBegin | clusterSlotOpen |
    slotPublishedEnd | slotWorkDone | slotCloseMessage | mswinClaimExpiry | controlIntervalBoundary | speedChangeStopEnd |
    ratioChangeApply | c0rsvApply | class0Admission | blockPlace | taskPlace | blockAdmit | blockThrottle | blockRetire |
    eventQueueDequeue | issueArbitration | lowerClassPark | longLatencyWriteback | watchdogExpiry | blockPreempt |
    preemptSave | blockResume | asyncOpComplete | operandBeatArrive | pageWalkComplete | segmentWakeComplete | bucketMove |
    l2WayDisable | upgrade | readExclusive | readShared | invalidation | invalidationAcknowledgement | forwardedSnoop |
    snoopAcknowledgement | writeBack | writeBackAcknowledgement | exclusiveDataGrant | registerEccError | emitBufferRead |
    primitiveBin | partialFlush | tileAssign | tileCheckpoint | fragmentWaveDispatch | binningEnd | tileRetire | hitDispatch |
    childRayTrace | hitRecordFill | entryTranslationFault | hostAbort | storeQueueDrain | lineEviction =>
    exact absurd hw nofun
  case nop | exit | yield | iadd | isub | imul | imulh | imad | imadw | idiv | irem | imin | imax | iabs | ineg | iaddc |
    isubb | isad | idot4 | sptest | spcast | and_ | or_ | xor_ | btab | shl | shr | sar | rot | funnel | popc | clz | brev |
    bfx | bfi | icmp | sel | fadd | fsub | fmul | ffma | fmin | fmax | fcmp | fclass | frnd | ffrc | fscale | fdiv | fsqrt |
    fdot2 | fmed3 | fsgn | hadd2 | hmul2 | hfma2 | hmin2 | hmax2 | hcmp2 | hdot2 | cadd | cmul | cmad | cmulc | cabs2 | cexpi |
    cscale | crot | cmag | rcp | rsq | ex2 | lg2 | sint | cost | tanh | sigm | cvt | cvpk2 | cvpk4 | unpk | pk6 | upk6 | pki4 |
    qscl | pull | pullt | bcst | poll | vmask | lred | lscan | peers | reord | perm | mov | movs | ccset | ccmov | cclog |
    first | dmov | dfromv | dtov | ddot | dcross | drefl | drefr | dscl | dnorm | dsetn | dslerp | dcmp | dneg | dadd | dproj |
    dframe | rput | rget | rrel | rdv | mslot | emit | emitv | blend | ztest | tres | trace | spawn | hit | rqry =>
    exact decodeWord_of_format hw (decodeA_encodeA _ _ _ hwf) rfl
  case colo =>
    exact decodeWord_of_format hw (decodeC_encodeC _ _ _ hwf) rfl
  case bra | brx | call | callx | ret | bany | ball | loop | jmpt =>
    exact decodeWord_of_format hw (decodeB_encodeB _ _ _ hwf) rfl
  case trap | bkpt | rft | iaddi | imuli | imadi | imini | imaxi | andi | ori | xori | shli | shri | sari | movi | arv | arvx |
    waitp | waitc | binit | bqry | mswin | speed | evrec | signal | rdsr | wrsr | save | rest | ctxsw | tlbi | cflush | wake |
    dieq | logr | perf | bud | halt | dbg | brks | ill =>
    exact decodeWord_of_format hw (decodeI_encodeI _ _ _ hwf) rfl
  case lea | leax | ld | st | ldt | stt | ldp | stp | lds | sts | ldc | ldpl | stpl | pref | ldgn | stgn | cctl | aadd | amin |
    amax | aand | aor | axor | axchg | acas | afadd | ainc | adec | radd | rmin | rmax | rfadd | acas2 | fence =>
    exact decodeWord_of_format hw (decodeM_encodeM _ _ _ hwf) rfl
  case cpy | cpy2d | cpyt | gath | scat | stsp | ldsp | cpypl | coll | rdma | nsend | nrecv | cfill | cinv | cstat | cabort |
    plcv | splat | splatc | bldc | tlck | tlrst | drawx =>
    exact decodeWord_of_format hw (decodeE_encodeE _ _ _ hwf) rfl
  case mma | mmap | mmat | mmapt | acz | acld | acst | acmv | net | netr | plq | mscl | msoft | mepi =>
    exact decodeWord_of_format hw (decodeX_encodeX _ _ _ hwf) rfl
  case stashMap =>
    obtain ⟨hf, hb⟩ := Bool.and_eq_true_iff.mp hwf
    exact decodeWord_of_format hw (decodeE_encodeE _ _ _ hf) (if_neg (by rw [bit_joinWord_encodeE]; simpa using hb))
  case stashUnmap =>
    obtain ⟨hf, hb⟩ := Bool.and_eq_true_iff.mp hwf
    exact decodeWord_of_format hw (decodeE_encodeE _ _ _ hf) (if_pos (by rwa [bit_joinWord_encodeE]))
  case mpairBind =>
    obtain ⟨hf, hb⟩ := Bool.and_eq_true_iff.mp hwf
    exact decodeWord_of_format hw (decodeI_encodeI _ _ _ hf) (if_pos (by rwa [bit_joinWord_encodeI]))
  case mpairRel =>
    obtain ⟨hf, hb⟩ := Bool.and_eq_true_iff.mp hwf
    exact decodeWord_of_format hw (decodeI_encodeI _ _ _ hf) (if_neg (by rw [bit_joinWord_encodeI]; simpa using hb))
  case bldfOpen =>
    obtain ⟨hf, hb⟩ := Bool.and_eq_true_iff.mp hwf
    exact decodeWord_of_format hw (decodeE_encodeE _ _ _ hf) (if_neg (by rw [bit_joinWord_encodeE]; simpa using hb))
  case bldfAdd =>
    obtain ⟨hf, hb⟩ := Bool.and_eq_true_iff.mp hwf
    exact decodeWord_of_format hw (decodeE_encodeE _ _ _ hf) (if_pos (by rwa [bit_joinWord_encodeE]))

/-- Settles O41: each word is the encoding of its instruction. -/
theorem decodedWords : Obligations.DecodedWords := by
  unfold Obligations.DecodedWords
  refine ⟨?_, ?_, ?_, ?_, ?_, ?_, ?_, ?_, ?_, ?_, ?_, ?_, ?_, ?_⟩ <;> exact decodeReadsEncoding _ _ rfl rfl

end Sys2Proof
end

section
/-!
PROOFS. Where a lane's result and flags stand, and what every other cell reads (R192, R200, R346, R371).
-/

namespace Sys2Proof

/-! ### A map or a set changed at several keys -/

section
variable {α β : Type} [DecidableEq α] {d : α} {key : β → Nat} {x : β → α}

/-- A key that no element of a list writes reads as before. -/
theorem FMap.get_foldl_set_of_ne {l : List β} {j : Nat} (h : ∀ b ∈ l, key b ≠ j) (m : FMap α) :
    FMap.get d (l.foldl (fun m b => FMap.set d m (key b) (x b)) m) j = FMap.get d m j := by
  induction l generalizing m with
  | nil => rfl
  | cons b l ih =>
    rw [List.foldl_cons, ih fun c hc => h c (List.mem_cons_of_mem _ hc), FMap.get_set_ne d m (x b) (h b List.mem_cons_self).symm]

theorem FMap.wf_foldl_set {m : FMap α} (h : FMap.wf d m = true) (l : List β) :
    FMap.wf d (l.foldl (fun m b => FMap.set d m (key b) (x b)) m) = true := by
  induction l generalizing m with
  | nil => exact h
  | cons b l ih => exact ih (FMap.wf_set h _ _)

/-- Where the keys of a list are distinct, each reads what its element wrote. -/
theorem FMap.get_foldl_set_of_mem {l : List β} {m : FMap α} (hm : FMap.wf d m = true) (hd : (l.map key).Nodup) {b : β} (hb : b ∈ l) :
    FMap.get d (l.foldl (fun m b => FMap.set d m (key b) (x b)) m) (key b) = x b := by
  obtain ⟨l1, l2, rfl⟩ := List.append_of_mem hb
  have hne : ∀ c ∈ l2, key c ≠ key b := fun c hc he => by
    rw [List.map_append, List.map_cons] at hd
    exact (List.nodup_cons.mp hd.of_append_right).1 (he ▸ List.mem_map_of_mem hc)
  rw [List.foldl_append, List.foldl_cons, FMap.get_foldl_set_of_ne hne, FMap.get_set_self (FMap.wf_foldl_set hm l1)]

end

theorem NSet.del_eq_erase (e : NSet) (n : Nat) : NSet.del e n = List.erase e n := by
  induction e with
  | nil => rfl
  | cons m e ih =>
    rw [NSet.del, List.erase_cons, ih]
    by_cases hm : n = m
    · simp [hm]
    · simp [hm, Ne.symm hm]

theorem NSet.has_eq_false {e : NSet} {n : Nat} : NSet.has e n = false ↔ n ∉ (e : List Nat) := by
  simp only [NSet.has, List.any_eq_false, beq_iff_eq]
  exact ⟨fun h hn => h n hn rfl, fun h x hx he => h (he ▸ hx)⟩

/-- A number taken out of a set without repeats, among others, is not in it. -/
theorem NSet.has_foldl_del {β : Type} {key : β → Nat} {l : List β} {e : NSet} (he : List.Nodup e) {b : β} (hb : b ∈ l) :
    NSet.has (l.foldl (fun e b => NSet.del e (key b)) e) (key b) = false := by
  have hkeep : ∀ (l : List β) (e : NSet), List.Nodup e → key b ∉ (e : List Nat) →
      key b ∉ (l.foldl (fun e b => NSet.del e (key b)) e : List Nat) := fun l => by
    induction l with
    | nil => exact fun e _ h => h
    | cons c l ih =>
      intro e hn h
      rw [List.foldl_cons, NSet.del_eq_erase]
      exact ih _ (hn.erase _) fun hm => h (List.mem_of_mem_erase hm)
  rw [NSet.has_eq_false]
  induction l generalizing e with
  | nil => cases hb
  | cons c l ih =>
    rw [List.foldl_cons, NSet.del_eq_erase]
    obtain rfl | hb := List.mem_cons.mp hb
    · exact hkeep l _ (he.erase _) he.not_mem_erase
    · exact ih (he.erase _) hb

end Sys2Proof

namespace Sys2Proof.Machine

/-! ### A group after the changes of several lanes -/

/-- A fold of changes of the lanes' groups changes each group by its own lanes, in their order. -/
theorem group_foldl_modGroup {φ : Pos → Group → Group} (l : List Pos) (s : State) (k : Nat) :
    (l.foldl (fun st p => st.modGroup p.gid (φ p)) s).group k =
      (s.group k).map fun g => (l.filter fun p => p.gid == k).foldl (fun g p => φ p g) g := by
  induction l generalizing s with
  | nil => simp
  | cons p l ih =>
    rw [List.foldl_cons, ih, group_modGroup]
    by_cases hp : p.gid = k
    · subst hp
      simp [Function.comp_def]
    · simp [hp, Ne.symm hp]

section
variable (s : State) (u : Ux) (n : Nat) (cw : BitVec 3) (f : Pos → Nat × BitVec 4) (k : Nat)

/-- The unit's lanes in a group. -/
def lanesIn (u : Ux) (k : Nat) : List Pos := u.active.filter fun p => p.gid == k

/-- A group with the results of its lanes in the cells of vector register `n`. -/
def withResults (g : Group) : Group :=
  (lanesIn u k).foldl (fun g p => g.writeCell ((BitVec.ofNat 32 (f p).1).zeroExtend 96) (.v n p.lane)) g

/-- A group with the flags of its lanes in the condition register that CW names. -/
def withFlags (g : Group) : Group :=
  (lanesIn u k).foldl (fun g p => { g with
    c := FMap.set 0 g.c (32 * (cw.toNat % 4) + p.lane) (f p).2, ecc := NSet.del g.ecc (32 * (544 + cw.toNat % 4) + p.lane) }) g

/-- What a group is after the lanes' 32-bit results to a vector register. -/
theorem group_writeLanes : (writeLanes s u (.v n) 32 cw f).group k =
    (s.group k).map fun g => if cw.getLsbD 2 then withFlags u cw f k (withResults u n f k g) else withResults u n f k g := by
  have hwr : (u.active.foldl (fun st p => wrPat st 32 (.v n) p (f p).1) s).group k = (s.group k).map (withResults u n f k) :=
    group_foldl_modGroup (φ := fun p g => g.writeCell ((BitVec.ofNat 32 (f p).1).zeroExtend 96) (.v n p.lane)) u.active s k
  cases hc : cw.getLsbD 2 with
  | false =>
    rw [writeLanes, if_neg (by rw [hc]; decide)]
    exact hwr
  | true =>
    rw [writeLanes, if_pos hc]
    refine (group_foldl_modGroup (φ := fun p g => { g with
      c := FMap.set 0 g.c (32 * (cw.toNat % 4) + p.lane) (f p).2, ecc := NSet.del g.ecc (32 * (544 + cw.toNat % 4) + p.lane) })
      u.active _ k).trans ?_
    rw [show workLanes u (isScalar (.v n)) = u.active from rfl, hwr, Option.map_map]
    rfl

variable (g : Group)

theorem withResults_v : (withResults u n f k g).v =
    (lanesIn u k).foldl (fun m p => FMap.set 0 m (32 * n + p.lane) (BitVec.ofNat 32 (f p).1)) g.v := by
  unfold withResults
  induction lanesIn u k generalizing g with
  | nil => rfl
  | cons p l ih =>
    rw [List.foldl_cons, List.foldl_cons, ih]
    simp [Group.writeCell]

theorem withResults_vEmpty : (withResults u n f k g).vEmpty =
    (lanesIn u k).foldl (fun e p => NSet.del e (32 * n + p.lane)) g.vEmpty := by
  unfold withResults
  induction lanesIn u k generalizing g with
  | nil => rfl
  | cons p l ih => exact ih _

theorem withResults_c : (withResults u n f k g).c = g.c := by
  unfold withResults
  induction lanesIn u k generalizing g with
  | nil => rfl
  | cons p l ih => exact ih _

theorem withFlags_v : (withFlags u cw f k g).v = g.v := by
  unfold withFlags
  induction lanesIn u k generalizing g with
  | nil => rfl
  | cons p l ih => exact ih _

theorem withFlags_vEmpty : (withFlags u cw f k g).vEmpty = g.vEmpty := by
  unfold withFlags
  induction lanesIn u k generalizing g with
  | nil => rfl
  | cons p l ih => exact ih _

theorem withFlags_c : (withFlags u cw f k g).c =
    (lanesIn u k).foldl (fun m p => FMap.set 0 m (32 * (cw.toNat % 4) + p.lane) (f p).2) g.c := by
  unfold withFlags
  induction lanesIn u k generalizing g with
  | nil => rfl
  | cons p l ih => exact ih _

end

section
variable {s : State} {u : Ux} {n : Nat} {cw : BitVec 3} {f : Pos → Nat × BitVec 4} {k : Nat}

/-- The vector registers of a group after the lanes' results. -/
theorem v_writeLanes (hk : (s.group k).isSome = true) : ((writeLanes s u (.v n) 32 cw f).g k).v =
    (lanesIn u k).foldl (fun m p => FMap.set 0 m (32 * n + p.lane) (BitVec.ofNat 32 (f p).1)) (s.g k).v := by
  obtain ⟨g, hg⟩ := Option.isSome_iff_exists.mp hk
  rw [State.g, group_writeLanes, State.g, hg]
  simp only [Option.map_some, Option.getD_some]
  split <;> simp only [withFlags_v, withResults_v]

theorem vEmpty_writeLanes (hk : (s.group k).isSome = true) : ((writeLanes s u (.v n) 32 cw f).g k).vEmpty =
    (lanesIn u k).foldl (fun e p => NSet.del e (32 * n + p.lane)) (s.g k).vEmpty := by
  obtain ⟨g, hg⟩ := Option.isSome_iff_exists.mp hk
  rw [State.g, group_writeLanes, State.g, hg]
  simp only [Option.map_some, Option.getD_some]
  split <;> simp only [withFlags_vEmpty, withResults_vEmpty]

theorem c_writeLanes (hk : (s.group k).isSome = true) (hc : cw.getLsbD 2 = true) : ((writeLanes s u (.v n) 32 cw f).g k).c =
    (lanesIn u k).foldl (fun m p => FMap.set 0 m (32 * (cw.toNat % 4) + p.lane) (f p).2) (s.g k).c := by
  obtain ⟨g, hg⟩ := Option.isSome_iff_exists.mp hk
  rw [State.g, group_writeLanes, State.g, hg]
  simp only [Option.map_some, Option.getD_some, hc, if_true, withFlags_c, withResults_c]

/-- A group that does not exist stays without registers. -/
theorem v_writeLanes_none (hk : s.group k = none) : ((writeLanes s u (.v n) 32 cw f).g k).v = (s.g k).v := by
  rw [State.g, group_writeLanes, State.g, hk]
  rfl

theorem mem_lanesIn {p : Pos} : p ∈ lanesIn u k ↔ p ∈ u.active ∧ p.gid = k := by simp [lanesIn]

/-- Distinct lanes of a unit have distinct keys in each group. -/
theorem lanesIn_keys_nodup (hd : (u.active.map fun p => (p.gid, p.lane)).Nodup) (b : Nat) :
    ((lanesIn u k).map fun p => b + p.lane).Nodup := by
  have hsub : ((lanesIn u k).map fun p => (p.gid, p.lane)).Sublist (u.active.map fun p => (p.gid, p.lane)) :=
    List.filter_sublist.map _
  have hpair := List.pairwise_map.mp (hd.sublist hsub)
  refine List.pairwise_map.mpr (hpair.imp_of_mem fun {p q} hp hq hne he => hne ?_)
  rw [(mem_lanesIn.mp hp).2, (mem_lanesIn.mp hq).2, Nat.add_left_cancel he]

end

/-- Settles O51: a lane's key is written once, and no other lane or register has it. -/
theorem laneResults : Obligations.LaneResults := by
  unfold Obligations.LaneResults
  intro s u n cw f hd ha hwf
  refine ⟨fun p hp => ⟨?value, ?full, fun hc => ?flags⟩, fun gid m lane hlane hother => ?frame⟩
  case value =>
    obtain ⟨hg, -⟩ := ha p hp
    show FMap.get 0 ((writeLanes s u (.v n) 32 cw f).g p.gid).v (32 * n + p.lane) = _
    rw [v_writeLanes hg]
    exact FMap.get_foldl_set_of_mem (key := fun p : Pos => 32 * n + p.lane) (hwf p.gid).1 (lanesIn_keys_nodup hd _)
      (mem_lanesIn.mpr ⟨hp, rfl⟩)
  case full =>
    obtain ⟨hg, -⟩ := ha p hp
    obtain ⟨-, -, hempty⟩ := hwf p.gid
    show NSet.has ((writeLanes s u (.v n) 32 cw f).g p.gid).vEmpty (32 * n + p.lane) = false
    rw [vEmpty_writeLanes hg]
    exact NSet.has_foldl_del (key := fun p : Pos => 32 * n + p.lane) hempty (mem_lanesIn.mpr ⟨hp, rfl⟩)
  case flags =>
    obtain ⟨hg, -⟩ := ha p hp
    obtain ⟨-, hcanonical, -⟩ := hwf p.gid
    rw [Group.creg, c_writeLanes hg hc]
    exact FMap.get_foldl_set_of_mem (key := fun p : Pos => 32 * (cw.toNat % 4) + p.lane) hcanonical (lanesIn_keys_nodup hd _)
      (mem_lanesIn.mpr ⟨hp, rfl⟩)
  case frame =>
    cases hg : s.group gid with
    | none => rw [v_writeLanes_none hg]
    | some g =>
      rw [v_writeLanes (by simp [hg])]
      refine FMap.get_foldl_set_of_ne (key := fun p : Pos => 32 * n + p.lane) (fun p hp he => ?_) _
      obtain ⟨hp, hgid⟩ := mem_lanesIn.mp hp
      have hl := (ha p hp).2
      obtain hm | hno := hother
      · omega
      · exact hno p hp ⟨hgid, by omega⟩

end Sys2Proof.Machine
end

section
/-!
PROOFS. The quotient and the remainder of a division (R385), and what the shifts leave in each bit (R392).
-/

namespace Sys2Proof.Machine
open Sys2Proof.Claims

/-! ### Division -/

section
variable {ty : Nat} {a b : Int}

/-- The one quotient of a signed type that its range does not hold (R385). -/
def divOverflows (ty : Nat) (a b : Int) : Prop := signedTy ty = true ∧ a = (tyRange ty).1 ∧ b = -1

theorem divOverflows_iff : divOverflows ty a b ↔ (signedTy ty && a == (tyRange ty).1 && b == -1) = true := by
  simp [divOverflows, and_assoc]

theorem idivOf_exact (hb : b ≠ 0) (ho : ¬ divOverflows ty a b) : idivOf ty a b = Int.tdiv a b := by
  rw [idivOf, if_neg hb, if_neg (mt divOverflows_iff.mpr ho)]

theorem iremOf_exact (hb : b ≠ 0) (ho : ¬ divOverflows ty a b) : iremOf ty a b = Int.tmod a b := by
  rw [iremOf, if_neg hb, if_neg (mt divOverflows_iff.mpr ho)]

theorem divOverflows_ne_zero (ho : divOverflows ty a b) : b ≠ 0 := by
  obtain ⟨-, -, rfl⟩ := ho
  decide

theorem idivOf_overflow (ho : divOverflows ty a b) : idivOf ty a b = a := by
  rw [idivOf, if_neg (divOverflows_ne_zero ho), if_pos (divOverflows_iff.mp ho)]

theorem iremOf_overflow (ho : divOverflows ty a b) : iremOf ty a b = 0 := by
  rw [iremOf, if_neg (divOverflows_ne_zero ho), if_pos (divOverflows_iff.mp ho)]

/-- The remainder of a truncating division has the sign of the dividend, or is 0. -/
theorem tmod_mul_self_nonneg (a b : Int) : 0 ≤ Int.tmod a b * a := by
  obtain ha | ha := Int.le_total 0 a
  · exact mul_nonneg (Int.tmod_nonneg b ha) ha
  · have h : 0 ≤ Int.tmod (-a) b := Int.tmod_nonneg b (by omega)
    rw [Int.neg_tmod] at h
    exact mul_nonneg_of_nonpos_of_nonpos (by omega) ha

end

/-- Settles O3: where the quotient is defined it is that of truncation, and under Q each case is a branch of its own. -/
theorem quotientAndRemainder : Obligations.QuotientAndRemainder := by
  unfold Obligations.QuotientAndRemainder
  intro ty a b
  refine ⟨fun hb ho => ?exact, fun hs hb ha => ⟨idivOf_overflow ⟨hs, ha, hb⟩, iremOf_overflow ⟨hs, ha, hb⟩⟩, fun hb => ?zero⟩
  case exact =>
    rw [idivOf_exact hb ho, iremOf_exact hb ho, Int.natAbs_tmod]
    exact ⟨Int.tdiv_mul_add_tmod a b, Nat.mod_lt _ (Int.natAbs_pos.mpr hb), tmod_mul_self_nonneg a b⟩
  case zero =>
    refine ⟨if_pos hb, fun ht => ?_, fun ht ha => ?_, fun ht ha => ?_⟩
    · simp [idivOf, hb, ht]
    · simp [idivOf, hb, ht, ha]
    · simp [idivOf, hb, ht, ha]

/-! ### Shifts -/

theorem tb_eq_testBit (x k : Nat) : tb x k = x.testBit k := by
  rw [Nat.testBit_eq_decide_div_mod_eq]
  rfl

/-- The integer of a bit pattern and the pattern of an integer are those of bit vectors. -/
theorem sext_eq_toInt {w : Nat} (hw : 0 < w) (x : Nat) : sext w x = (BitVec.ofNat w x).toInt := by
  obtain ⟨k, rfl⟩ : ∃ k, w = k + 1 := ⟨w - 1, by omega⟩
  have h : x % 2 ^ (k + 1) < 2 ^ k ↔ 2 * (x % 2 ^ (k + 1)) < 2 ^ (k + 1) := by omega
  simp [sext, BitVec.toInt_eq_toNat_cond, h]

theorem wrap_eq_toNat (w : Nat) (x : Int) : wrap w x = (BitVec.ofInt w x).toNat := by
  simp [wrap, BitVec.toNat_ofInt]

section
variable {w a n i : Nat}

theorem tb_shiftLeft (hi : i < w) : tb (shiftLeft w a n).1 i = (decide (n ≤ i) && tb a (i - n)) := by
  simp only [tb_eq_testBit, shiftLeft]
  split
  · simp [Nat.testBit_mod_two_pow, Nat.testBit_mul_two_pow, hi]
  · simp [show ¬ n ≤ i by omega]

theorem tb_shiftRight (ha : a < 2 ^ w) : tb (shiftRight w a n).1 i = (decide (i + n < w) && tb a (i + n)) := by
  simp only [tb_eq_testBit, shiftRight]
  rw [← Nat.testBit_mod_two_pow, Nat.mod_eq_of_lt ha]
  split
  · exact Nat.testBit_div_two_pow a i
  · next hn => rw [Nat.zero_testBit, Nat.testBit_lt_two_pow (ha.trans_le (Nat.pow_le_pow_right (by decide) (by omega)))]

/-- An arithmetic shift is that of bit vectors. -/
theorem shiftArith_eq (hw : 0 < w) : (shiftArith w a n).1 =
    ((BitVec.ofNat w a).sshiftRight (if n < w then n else w)).toNat := by
  rw [shiftArith, sext_eq_toInt hw, wrap_eq_toNat, ← BitVec.ofInt_toInt (x := BitVec.sshiftRight _ _), BitVec.toInt_sshiftRight,
    Int.shiftRight_eq_div_pow]
  rfl

theorem tb_shiftArith (hi : i < w) : tb (shiftArith w a n).1 i = tb a (if i + n < w then i + n else w - 1) := by
  have hw : 0 < w := by omega
  simp only [tb_eq_testBit, shiftArith_eq hw, BitVec.testBit_toNat, BitVec.getLsbD_sshiftRight, BitVec.msb_eq_getLsbD_last,
    BitVec.getLsbD_ofNat]
  obtain hn | hn := Nat.lt_or_ge n w
  · simp only [if_pos hn, Nat.add_comm n i]
    split <;> simp [show ¬ w ≤ i by omega, *]
  · simp [show ¬ n < w by omega, show ¬ i + n < w by omega, hw, hi]

theorem tb_rotate (ha : a < 2 ^ w) (hi : i < w) : tb (rotate w a n).1 i = tb a ((i + w - n % w) % w) := by
  have hk : n % w < w := Nat.mod_lt _ (by omega)
  simp only [tb_eq_testBit, rotate]
  generalize n % w = k at hk
  split
  · next h0 => rw [h0, Nat.sub_zero, Nat.add_mod_right, Nat.mod_eq_of_lt hi]
  · next h0 =>
    have hpow : 2 ^ w = 2 ^ k * 2 ^ (w - k) := by rw [← Nat.pow_add, Nat.add_sub_cancel' hk.le]
    have hlow : a / 2 ^ (w - k) < 2 ^ k := Nat.div_lt_of_lt_mul (by rwa [Nat.mul_comm, ← hpow])
    rw [Nat.mul_comm a, hpow, Nat.mul_mod_mul_left, Nat.testBit_two_pow_mul_add _ hlow]
    split
    · next hik => rw [Nat.testBit_div_two_pow, Nat.mod_eq_of_lt (by omega), Nat.add_sub_assoc hk.le]
    · next hik =>
      rw [show i + w - k = i - k + w by omega, Nat.add_mod_right, Nat.testBit_mod_two_pow, decide_eq_true (by omega), Bool.true_and,
        Nat.mod_eq_of_lt (show i - k < w by omega)]

end

/-- Settles O4: each shift by its own lemma. -/
theorem shiftsBitByBit : Obligations.ShiftsBitByBit := by
  unfold Obligations.ShiftsBitByBit
  intro w a n i _ ha hi
  exact ⟨tb_shiftLeft hi, tb_shiftRight ha, tb_shiftArith hi, tb_rotate ha hi⟩

end Sys2Proof.Machine
end

section
/-!
PROOFS. The integer rows: sums, products and carry chains, divisions, logic, shifts, fields, selections and immediates (R384 to R388,
R392 to R394).
-/

namespace Sys2Proof.Machine

open Sys2Proof.Claims

/-! ### Bodies that answer a result of each lane -/

section
variable {i : Instr} {h : Hdr} {sh : Shape} {dst : Opnd} {w : Nat} {cw : BitVec 3} {body : Ux → State → Res}

/-- An instruction whose body answers the results of its lanes and sets no status bit delivers them. -/
theorem delivers_of_body {g : State → Ux → Pos → Nat × BitVec 4} (hx : ∀ s, exec i s = issue h sh s body) (hp : sh.perCore = false)
    (hb : ∀ s u, body u s = .ok { st := writeLanes s u dst w cw (g s u) }) : Delivers i h sh dst w cw g := fun s s1 u hr => by
  rw [hx, issue_plain hr (hb s1 u) rfl, hp]

end

/-! ### Sums and products -/

/-- IADD to IMAX by their exact results; IMULH has no flags. -/
theorem integerSumsAndProducts : IntegerSumsAndProducts := by
  unfold IntegerSumsAndProducts
  intro h f
  refine ⟨?iadd, ?isub, ?imul, ?imad, ?isad, ?iabs, ?ineg, ?imin, ?imax, ?imulh⟩
  case iadd | isub | imul | imad | isad | iabs | ineg | imin | imax | imulh => exact delivers_of_body (fun _ => rfl) rfl fun _ _ => rfl

/-- IMADW and IDOT4: a lane's sum at its own width. -/
theorem wideAndByteProducts : WideAndByteProducts := by
  unfold WideAndByteProducts
  intro h f
  refine ⟨?imadw, ?idot4⟩
  case imadw | idot4 => exact delivers_of_body (fun _ => rfl) rfl fun _ _ => rfl

/-- IADDC and ISUBB: the lanes' results, and one more free value taken. -/
theorem carryChains : CarryChains := by
  unfold CarryChains
  intro h f
  refine ⟨?iaddc, ?isubb⟩
  case iaddc | isubb => exact commits_of_body (fun _ => rfl) fun _ _ _ => rfl

/-- Settles O1: every body answers the lane results that its clause names. -/
theorem integerArithmetic : Obligations.IntegerArithmetic := ⟨integerSumsAndProducts, wideAndByteProducts, carryChains⟩

/-! ### Divisions -/

section
variable {s : State} {u : Ux} {f : FmtA} {p : Pos}

/-- What makes a lane's division undefined, without Q: a divisor of 0 (R385). -/
def divZero (f : FmtA) (s : State) (u : Ux) (p : Pos) : Prop :=
  f.fn.getLsbD 3 = false ∧ rdInt s u (tyOf f.fn.toNat) f.sb.reg p = 0

/-- Without Q, a quotient beyond the range of a signed type (R385). -/
def divOver (f : FmtA) (s : State) (u : Ux) (p : Pos) : Prop :=
  f.fn.getLsbD 3 = false ∧ rdInt s u (tyOf f.fn.toNat) f.sb.reg p ≠ 0 ∧ signedTy (tyOf f.fn.toNat) ∧
    rdInt s u (tyOf f.fn.toNat) f.sa.reg p = (tyRange (tyOf f.fn.toNat)).1 ∧ rdInt s u (tyOf f.fn.toNat) f.sb.reg p = -1

theorem divFault_zero (hz : divZero f s u p) : divFault s u f p = some 66 := by
  obtain ⟨hq, hb⟩ := hz
  simp only [divFault, hq, hb, Bool.false_eq_true, if_false, if_true]

theorem divFault_over (ho : divOver f s u p) : divFault s u f p = some 67 := by
  obtain ⟨hq, -, hs, ha, hb⟩ := ho
  simp only [divFault, hq, hs, ha, hb, Bool.false_eq_true, if_false, if_true, beq_self_eq_true, Bool.and_self]
  exact if_neg (by decide)

theorem divFault_fine (h : ¬ divZero f s u p ∧ ¬ divOver f s u p) : divFault s u f p = none := by
  obtain ⟨hz, ho⟩ := h
  cases hq : f.fn.getLsbD 3 with
  | true => simp [divFault, hq]
  | false =>
    have hb : rdInt s u (tyOf f.fn.toNat) f.sb.reg p ≠ 0 := fun hb => hz ⟨hq, hb⟩
    have hno : ¬ (signedTy (tyOf f.fn.toNat) && rdInt s u (tyOf f.fn.toNat) f.sa.reg p == (tyRange (tyOf f.fn.toNat)).1 &&
        rdInt s u (tyOf f.fn.toNat) f.sb.reg p == -1) = true := fun h => by
      simp only [Bool.and_eq_true, beq_iff_eq] at h
      obtain ⟨⟨hs, ha⟩, hminus⟩ := h
      exact ho ⟨hq, hb, hs, ha, hminus⟩
    simp only [divFault, hq, Bool.false_eq_true, if_false, hb, hno]

variable {q : Nat → Int → Int → Int}

/-- A division that faults in no lane produces its results later (R200, R385). -/
theorem divide_produces (hl : ∀ p ∈ workLanes u (isScalar f.dst), divFault s u f p = none) : divide f u s q =
    .ok (produceLanes s u f.dst (widthOf (tyOf f.fn.toNat)) fun p =>
      wrap (widthOf (tyOf f.fn.toNat)) (q (tyOf f.fn.toNat) (rdInt s u (tyOf f.fn.toNat) f.sa.reg p)
        (rdInt s u (tyOf f.fn.toNat) f.sb.reg p))) := by
  have hn : firstSome ((workLanes u (isScalar f.dst)).map (divFault s u f)) = none :=
    firstSome_eq_none.mpr (List.forall_mem_map.mpr hl)
  simp only [divide, hn]

/-- The lowest lane that faults gives the trap. -/
theorem divide_faults {a b : List Pos} {c : Nat} (hl : workLanes u (isScalar f.dst) = a ++ p :: b)
    (ha : ∀ q ∈ a, divFault s u f q = none) (hp : divFault s u f p = some c) : divide f u s q = trapOf c := by
  have hn : firstSome ((workLanes u (isScalar f.dst)).map (divFault s u f)) = some c := by
    rw [hl, List.map_append, List.map_cons, hp, firstSome_append_some (List.forall_mem_map.mpr ha)]
  simp only [divide, hn]

end

/-- An instruction whose body is a division by `q` produces its results or takes the trap of the lowest lane at fault. -/
theorem division_of_body {i : Instr} {h : Hdr} {sh : Shape} {f : FmtA} {q : Nat → Int → Int → Int}
    (hx : ∀ s, exec i s = issue h sh s fun u s => divide f u s q) :
    let fine (s : State) (u : Ux) (p : Pos) : Prop := ¬ divZero f s u p ∧ ¬ divOver f s u p
    let first (bad : State → Ux → Pos → Prop) (s : State) (u : Ux) : Prop :=
      ∃ a p b, workLanes u (isScalar f.dst) = a ++ p :: b ∧ (∀ q ∈ a, fine s u q) ∧ bad s u p
    Commits i h (fun _ => sh) (fun s u => ∀ p ∈ workLanes u (isScalar f.dst), fine s u p) (fun s u =>
      produceLanes s u f.dst (widthOf (tyOf f.fn.toNat)) fun p => wrap (widthOf (tyOf f.fn.toNat))
        (q (tyOf f.fn.toNat) (rdInt s u (tyOf f.fn.toNat) f.sa.reg p) (rdInt s u (tyOf f.fn.toNat) f.sb.reg p))) ∧
    Traps i h (fun _ => sh) (first (divZero f)) (fun _ _ => { cause := 66 }) ∧
    Traps i h (fun _ => sh) (first (divOver f)) (fun _ _ => { cause := 67 }) := by
  refine ⟨?defined, ?zero, ?overflow⟩
  case defined => exact commits_of_body hx fun s u hl => divide_produces fun p hp => divFault_fine (hl p hp)
  case zero =>
    exact traps_of_body hx fun s u ⟨a, p, b, hl, ha, hp⟩ => divide_faults hl (fun q hq => divFault_fine (ha q hq)) (divFault_zero hp)
  case overflow =>
    exact traps_of_body hx fun s u ⟨a, p, b, hl, ha, hp⟩ => divide_faults hl (fun q hq => divFault_fine (ha q hq)) (divFault_over hp)

/-- Settles O2: IDIV and IREM share one body. -/
theorem divisionAndItsTraps : Obligations.DivisionAndItsTraps := by
  unfold Obligations.DivisionAndItsTraps
  intro h f
  have hdiv := division_of_body (i := .idiv h f) (h := h) (sh := shapeIdiv f) (f := f) (q := idivOf) fun _ => rfl
  have hrem := division_of_body (i := .irem h f) (h := h) (sh := shapeIrem f) (f := f) (q := iremOf) fun _ => rfl
  exact ⟨hdiv, hrem⟩

/-! ### Logic, shifts, fields and selections -/

/-- AND to BREV on patterns, the shifts, the counts, and FUNNEL over two registers. -/
theorem logicAndShifts : LogicAndShifts := by
  unfold LogicAndShifts
  intro h f
  refine ⟨?and, ?or, ?xor, ?btab, ?brev, ?shl, ?shr, ?sar, ?rot, ?popc, ?clz, ?funnel⟩
  case and | or | xor | btab | brev | shl | shr | sar | rot | popc | clz | funnel => exact delivers_of_body (fun _ => rfl) rfl fun _ _ => rfl

/-- BFX, BFI and ICMP deliver; SEL takes one more free value. -/
theorem fieldsCompareSelect : FieldsCompareSelect := by
  unfold FieldsCompareSelect
  intro h f
  refine ⟨?bfx, ?bfi, ?icmp, ?sel⟩
  case bfx | bfi | icmp => exact delivers_of_body (fun _ => rfl) rfl fun _ _ => rfl
  case sel => exact commits_of_body (fun _ => rfl) fun _ _ _ => rfl

/-- Settles O5: every body answers the lane results that its clause names. -/
theorem logicFieldsAndSelection : Obligations.LogicFieldsAndSelection := ⟨logicAndShifts, fieldsCompareSelect⟩

/-! ### Immediates -/

/-- FN[2] stands outside a mask without it. -/
theorem immFn_of_bit {fn : BitVec 22} (h : fn.getLsbD 2 = true) : immFn 3 fn = false := by
  have hne : fn.toNat &&& 3 ≠ fn.toNat := fun he => by
    have ht := congrArg (Nat.testBit · 2) he
    rw [← BitVec.testBit_toNat] at h
    simp only [Nat.testBit_and, h] at ht
    exact absurd ht (by decide)
  simp [immFn, hne]

/-- What the shape of a row with an immediate refuses: a wrong immediate takes 0.13, a wrong FN 0.8. -/
theorem shapeI_imm {f : FmtI} {dn : Nat} {a : Option Nat} {flags fnOk rmw : Bool} : some 13 ∈ (shapeI f dn a flags false fnOk rmw).enc := by
  simp [shapeI, need]

theorem shapeI_fn {f : FmtI} {dn : Nat} {a : Option Nat} {flags immOk rmw : Bool} : some 8 ∈ (shapeI f dn a flags immOk false rmw).enc := by
  simp [shapeI, need]

/-- Settles O6: the results by their bodies, the refused fields by the checks that their shapes list. -/
theorem immediates : Obligations.Immediates := by
  unfold Obligations.Immediates
  intro h f
  refine ⟨?iaddi, ?imuli, ?imadi, ?imini, ?imaxi, ?andi, ?ori, ?xori, ?shli, ?shri, ?sari, fun hlow => ?movi, fun hhigh => ?movhi,
    ?readsDst, rfl, fun sh hsh himm => ?count, fun sh hsh hfn => ?sat, fun hty hfn => ?movfn⟩
  case iaddi | imuli | imadi | imini | imaxi | andi | ori | xori | shli | shri | sari => exact delivers_of_body (fun _ => rfl) rfl fun _ _ => rfl
  case movi => exact delivers_of_body (fun _ => rfl) rfl fun _ _ => if_neg (by rw [hlow]; decide)
  case movhi => exact delivers_of_body (fun _ => rfl) rfl fun _ _ => if_pos hhigh
  case readsDst => simp [shapeImadi, shapeI, immRegs]
  case count =>
    have hno : decide (f.imm.toNat < 64) = false := decide_eq_false (by omega)
    simp only [List.mem_cons, List.not_mem_nil, or_false] at hsh
    obtain rfl | rfl | rfl := hsh
    all_goals
      simp only [shapeShli, shapeShri, shapeSari, hno]
      exact shapeI_imm
  case sat =>
    simp only [List.mem_cons, List.not_mem_nil, or_false] at hsh
    obtain rfl | rfl | rfl | rfl | rfl | rfl | rfl | rfl := hsh
    all_goals
      simp only [shapeImini, shapeImaxi, shapeAndi, shapeOri, shapeXori, shapeShli, shapeShri, shapeSari, immFn_of_bit hfn]
      exact shapeI_fn
  case movfn =>
    simp only [shapeMovi, beq_iff_eq, hty, if_false, immFn_of_bit hfn]
    exact shapeI_fn

end Sys2Proof.Machine
end

section
/-!
PROOFS. Control flow: NOP to JMPT and the votes, and the traps of branch targets, TRAP, BKPT and ILL (R207, R336, R341, R356, R358,
R374 to R382).
-/

namespace Sys2Proof.Machine

open Sys2Proof.Claims

/-! ### The targets of a branch -/

section
variable {s : State} {l : List Pos}

/-- Lanes may go to one target where the lowest of them may enter it (R336). -/
theorem takeTo_enters {t : Nat} (h : mayEnter s l t) : takeTo s l t = .ok (l.map fun q => (q, t)) := by
  cases l with
  | nil => rfl
  | cons p l => exact if_pos (h p rfl)

/-- A target that the lowest lane may not enter is 0.22. -/
theorem takeTo_refused {t : Nat} {p : Pos} (hp : l.head? = some p) (ht : targetOk s p.gid t = false) : takeTo s l t = trapOf 22 := by
  obtain ⟨rest, rfl⟩ := List.head?_eq_some_iff.mp hp
  exact if_neg (by simp [ht])

variable {t : Pos → Nat}

/-- Lanes go to their own targets where each may be entered (R376). -/
theorem takeOwn_goes (h : mayGo s l t) : takeOwn s l t = .ok (l.map fun p => (p, t p)) := by
  have hn : firstSome (l.map fun p => targetFault s p.gid (t p)) = none := firstSome_eq_none.mpr (List.forall_mem_map.mpr h)
  simp only [takeOwn, hn]

/-- The lowest failing lane decides the fault of a register target. -/
theorem takeOwn_faults {a b : List Pos} {p : Pos} {c : Nat} (hl : l = a ++ p :: b) (ha : mayGo s a t)
    (hp : targetFault s p.gid (t p) = some c) : takeOwn s l t = trapOf c := by
  have hn : firstSome (l.map fun p => targetFault s p.gid (t p)) = some c := by
    rw [hl, List.map_append, List.map_cons, hp, firstSome_append_some (List.forall_mem_map.mpr ha)]
  simp only [takeOwn, hn]

end

section
variable {i : Instr} {h : Hdr} {sh : Shape} {f : FmtB}

/-- An instruction that takes some lanes to one target, from a state that it leaves, takes them where they may enter it. -/
theorem branches_to {st : State → Ux → State} {l : State → Ux → List Pos} {t : Ux → Nat}
    (hx : ∀ s, exec i s = issue h sh s fun u s => match takeTo s (l s u) (t u) with
      | .error e => .error e
      | .ok m => .ok (branchEff (st s u) f m)) :
    Commits i h (fun _ => sh) (fun s u => mayEnter s (l s u) (t u)) fun s u => taken f (st s u) (l s u) fun _ => t u :=
  commits_of_body hx fun s u hok => by
    rw [takeTo_enters hok]
    rfl

/-- One that takes the active lanes to targets of their own takes them where each may be entered. -/
theorem branches_own {st : State → Ux → State} {t : State → Ux → Pos → Nat}
    (hx : ∀ s, exec i s = issue h sh s fun u s => match takeOwn s u.active (t s u) with
      | .error e => .error e
      | .ok m => .ok (branchEff (st s u) f m)) :
    Commits i h (fun _ => sh) (fun s u => mayGo s u.active (t s u)) fun s u => taken f (st s u) u.active (t s u) :=
  commits_of_body hx fun s u hok => by
    rw [takeOwn_goes hok]
    rfl

/-- The first takes 0.22 where the lowest of its lanes may not enter the target. -/
theorem branch_to_refused {st : State → Ux → State} {t : Ux → Nat}
    (hx : ∀ s, exec i s = issue h sh s fun u s => match takeTo s u.active (t u) with
      | .error e => .error e
      | .ok m => .ok (branchEff (st s u) f m)) :
    Traps i h (fun _ => sh) (fun s u => ∃ p, u.active.head? = some p ∧ targetOk s p.gid (t u) = false) fun _ _ => { cause := 22 } :=
  traps_of_body hx fun s u ⟨p, hp, ht⟩ => by
    rw [takeTo_refused hp ht]
    rfl

/-- The second takes the fault of the lowest failing lane. -/
theorem branch_own_faults {st : State → Ux → State} {t : State → Ux → Pos → Nat}
    (hx : ∀ s, exec i s = issue h sh s fun u s => match takeOwn s u.active (t s u) with
      | .error e => .error e
      | .ok m => .ok (branchEff (st s u) f m)) (c : Nat) :
    Traps i h (fun _ => sh) (fun s u => ∃ a p b, u.active = a ++ p :: b ∧ mayGo s a (t s u) ∧ targetFault s p.gid (t s u p) = some c)
      fun _ _ => { cause := c } :=
  traps_of_body hx fun s u ⟨a, p, b, hl, ha, hp⟩ => by
    rw [takeOwn_faults hl ha hp]
    rfl

/-- A vote takes every issuing lane where it passes, and none where it does not (R379). -/
theorem votes_of_body {yes : Ux → Prop} {b : Ux → Bool} (hx : ∀ s, exec i s = issue h sh s fun u s => vote f u s (b u))
    (hb : ∀ u, b u = true ↔ yes u) :
    Commits i h (fun _ => sh) (fun s u => u.issuing ≠ [] ∧ yes u ∧ mayEnter s u.issuing (immTarget u f))
      (fun s u => taken f s u.issuing fun _ => immTarget u f) ∧
    Commits i h (fun _ => sh) (fun _ u => ¬ yes u) fun s _ => taken f s [] fun _ => 0 := by
  refine ⟨commits_of_body hx fun s u ⟨hne, hy, hok⟩ => ?passes, commits_of_body hx fun s u hn => ?fails⟩
  case passes =>
    rw [vote, if_pos (by simp [(hb u).mpr hy, hne]), takeTo_enters hok]
    rfl
  case fails =>
    rw [vote, if_neg (by simp [mt (hb u).mp hn])]
    rfl

end

/-! ### The instructions -/

/-- NOP, COLO, EXIT and YIELD. -/
theorem plainControl : PlainControl := by
  unfold PlainControl
  intro h f c
  refine ⟨?nop, ?colo, ?exit, ?yield⟩
  case nop | colo | exit | yield => exact commits_of_body (fun _ => rfl) fun _ _ _ => rfl

/-- BRA, CALL and LOOP go to one target, the others to the lanes' own. -/
theorem branchesTakeTheirLanes : BranchesTakeTheirLanes := by
  unfold BranchesTakeTheirLanes
  intro h f
  refine ⟨?bra, ?brx, ?ret, ?call, ?callx, ?loop, ?jmpt⟩
  case bra | call | loop => exact branches_to fun _ => rfl
  case brx | ret | callx | jmpt => exact branches_own fun _ => rfl

/-- BANY is taken where a lane is active, BALL where every issuing lane is. -/
theorem votedBranches : VotedBranches := by
  unfold VotedBranches
  intro h f
  refine ⟨?bany, ?ball⟩
  case bany => exact votes_of_body (fun _ => rfl) fun u => by simp
  case ball => exact votes_of_body (fun _ => rfl) fun u => beq_iff_eq

/-- Settles O8: the plain instructions, the branches and the votes. -/
theorem controlFlow : Obligations.ControlFlow := ⟨plainControl, branchesTakeTheirLanes, votedBranches⟩

/-- A register target raises 0.22 or 0.23, or nothing. -/
theorem targetFault_cases (s : State) (gid t : Nat) :
    targetFault s gid t = some 22 ∨ targetFault s gid t = some 23 ∨ targetFault s gid t = none := by
  unfold targetFault
  split
  · exact .inl rfl
  · split
    · exact .inr (.inl rfl)
    · split
      · exact .inl rfl
      · exact .inr (.inr rfl)

/-- A slot number above 4 is 0.23 where the address is in form (R376). -/
theorem targetFault_slot {s : State} {gid t : Nat} (ht : t < 2 ^ 57) (hb : bits t 5 3 = 0) (hs : 4 < t % 8) :
    targetFault s gid t = some 23 := by
  rw [targetFault, if_neg (by rw [Nat.div_eq_of_lt ht, hb]; decide), if_pos hs]

/-- The targets of BRA, CALL, BRX, RET and CALLX that may not be entered. -/
theorem refusedBranchTargets : RefusedBranchTargets := by
  unfold RefusedBranchTargets
  intro h f
  refine ⟨?bra, ?call, ?brx, ?ret, ?callx, targetFault_cases, fun s gid t => targetFault_slot⟩
  case bra | call => exact branch_to_refused fun _ => rfl
  case brx | ret | callx => exact branch_own_faults fun _ => rfl

/-- TRAP and BKPT trap where a lane is active; ILL does whenever a unit holds the issue slot. -/
theorem softwareTraps : SoftwareTraps := by
  unfold SoftwareTraps
  intro h f
  refine ⟨?trap, ?bkpt, ?trapIdle, ?bkptIdle, fun s gid slices hc => ?ill⟩
  case trap | bkpt => exact traps_of_body (fun _ => rfl) fun s u ha => if_neg (mt List.isEmpty_iff.mp ha)
  case trapIdle | bkptIdle => exact commits_of_body (fun _ => rfl) fun s u ha => if_pos (List.isEmpty_iff.mpr ha)
  case ill =>
    show execIll h f s = _
    simp only [execIll, hc]

/-- Settles O9: the refused targets and the software traps. -/
theorem controlTraps : Obligations.ControlTraps := ⟨refusedBranchTargets, softwareTraps⟩

end Sys2Proof.Machine
end

section
/-!
PROOFS. FP32 arithmetic and the special functions (R233, R405 to R413, R416), and the conversions (R417 to R423).
-/

namespace Sys2Proof.Machine

open Sys2Proof.Claims

/-- FADD to FSGN: values rounded once, codes, and the results with flags of their own. -/
theorem singlePrecision : SinglePrecision := by
  unfold SinglePrecision
  intro h f
  refine ⟨?fadd, ?fsub, ?fmul, ?ffma, ?fdiv, ?fsqrt, ?fdot2, ?fscale, ?ffrc, ?frnd, ?fmin, ?fmax, ?fmed3, ?fcmp, ?fclass, ?fsgn⟩
  case fadd | fsub | fmul | ffma | fdiv | fsqrt | fdot2 | fscale | ffrc | frnd | fmin | fmax | fmed3 | fcmp | fclass | fsgn =>
    exact deliversF_of_floatEff fun _ => rfl

/-- RCP to SIGM: one function of one source. -/
theorem specialFunctions : SpecialFunctions := by
  unfold SpecialFunctions
  intro h f
  refine ⟨?rcp, ?rsq, ?ex2, ?lg2, ?sint, ?cost, ?tanh, ?sigm⟩
  case rcp | rsq | ex2 | lg2 | sint | cost | tanh | sigm => exact deliversF_of_floatEff fun _ => rfl

/-- Settles O12: every body answers the lane results that its clause names. -/
theorem floatArithmetic : Obligations.FloatArithmetic := ⟨singlePrecision, specialFunctions⟩

/-! ### Conversions -/

/-- CVPK2 and CVPK4 pack where the slot's width is one that they accept (R419). -/
theorem cvpkEff_packs {f : FmtA} {n wide : Nat} {u : Ux} {s : State}
    (h : let sl := slotAt s u.gid (bits f.fn.toNat 5 3)
      slotFault sl (sl.elem && (sl.F.width == wide || sl.F.width == wide / 2) && !(f.fn.getLsbD 9 && sl.F.width == wide)) = none) :
    cvpkEff f n wide u s =
      .ok (floatWrite u s f.dst 0 32 false (cvpkLane s u f (slotAt s u.gid (bits f.fn.toNat 5 3)) n)) := by
  dsimp only at h
  simp only [cvpkEff, h]
  rfl

/-- Settles O13: a slot that passes its check lets the body answer what its clause names. -/
theorem conversions : Obligations.Conversions := by
  unfold Obligations.Conversions
  intro h f
  refine ⟨?cvt, ?cvpk2, ?cvpk4, ?unpk, ?pk6, ?upk6, ?pki4, ?qscl⟩
  case cvt =>
    refine commits_of_body (fun _ => rfl) fun s u hs => ?_
    have hn : (if cvtKind f < 2 then slotFault (slotAt s u.gid (bits f.fn.toNat 5 3)) (slotAt s u.gid (bits f.fn.toNat 5 3)).elem
        else none) = none := by
      split
      · next hk => exact hs hk
      · rfl
    dsimp only
    rw [hn]
    rfl
  case cvpk2 | cvpk4 => exact commits_of_body (fun _ => rfl) fun s u hs => cvpkEff_packs hs
  case unpk | qscl =>
    refine commits_of_body (fun _ => rfl) fun s u hs => ?_
    dsimp only at hs ⊢
    rw [hs]
  case pk6 => exact delivers_of_body (fun _ => rfl) rfl fun _ _ => rfl
  case upk6 =>
    refine commits_of_body (fun _ => rfl) fun s u ⟨ha, hc⟩ => ?_
    dsimp only
    rw [if_neg (mt List.isEmpty_iff.mp ha), hc]
  case pki4 => exact deliversF_of_floatEff fun _ => rfl

end Sys2Proof.Machine
end

section
/-!
PROOFS. Cross-lane exchanges, votes and reductions (R424 to R428, R430), and the moves and condition registers (R425, R431).
-/

namespace Sys2Proof.Machine

open Sys2Proof.Claims

/-- An instruction whose body first needs some cells completes where they are full (R203, R424). -/
theorem commits_withCells {i : Instr} {h : Hdr} {sh : State → Shape} {l : State → Ux → List (RegUse × List Pos)} {e : State → Ux → Eff}
    (hx : ∀ s, exec i s = issue h (sh s) s fun u s => withCells s (l s u) (e s u)) :
    Commits i h sh (fun s u => needCells s (l s u) = none) e :=
  commits_of_body hx fun _ _ hc => withCells_full hc

/-- PULL, PULLT and PERM act where their cells are full; BCST and FIRST also need an active lane. -/
theorem lanesExchangeValues : LanesExchangeValues := by
  unfold LanesExchangeValues
  intro h f
  refine ⟨?pull, ?pullt, ?bcst, ?perm, fun q => ?first⟩
  case pull | pullt | perm => exact commits_withCells fun _ => rfl
  case bcst =>
    refine commits_of_body (fun _ => rfl) fun s u ⟨ha, hc⟩ => ?_
    obtain ⟨p, rest, hu⟩ := List.exists_cons_of_ne_nil ha
    simp only [hu, List.headD_cons] at hc ⊢
    generalize at_ s u _ = q at hc ⊢
    cases q with
    | none => exact withCells_full hc
    | some q => exact withCells_full hc
  case first =>
    refine commits_of_body (fun _ => rfl) fun s u ⟨hq, hc⟩ => ?_
    simp only [hq]
    exact withCells_full hc

/-- POLL to PEERS act where their destination is full. -/
theorem votesAndReductions : VotesAndReductions := by
  unfold VotesAndReductions
  intro h f
  refine ⟨?poll, ?vmask, ?lred, ?lscan, ?peers⟩
  case poll | vmask | lred | lscan | peers => exact commits_withCells fun _ => rfl

/-- Settles O14: the exchanges, and the votes and reductions. -/
theorem crossLane : Obligations.CrossLane := ⟨lanesExchangeValues, votesAndReductions⟩

/-- Settles O17: each body answers what its clause names; CCMOV by the class of its destination. -/
theorem movesAndConditions : Obligations.MovesAndConditions := by
  unfold Obligations.MovesAndConditions
  intro h f
  refine ⟨?mov, ?movs, ?ccset, fun n hn => ?ccmovC, fun hn => ?ccmovData, ?cclog⟩
  case mov | ccset | cclog => exact commits_of_body (fun _ => rfl) fun _ _ _ => rfl
  case movs => exact commits_withCells fun _ => rfl
  case ccmovC =>
    refine commits_of_body (fun _ => rfl) fun s u _ => ?_
    simp only [hn]
  case ccmovData =>
    refine commits_of_body (fun _ => rfl) fun s u _ => ?_
    split
    · next n hc => exact absurd hc (hn n)
    · rfl

end Sys2Proof.Machine
end

section
/-!
PROOFS. Effective addresses, the test of a pointer and its casts (R350, R389 to R391).
-/

namespace Sys2Proof.Machine

open Sys2Proof.Claims

/-- Settles O7: LEA, SPTEST and SPCAST answer each lane's result; LEAX does where its search finds no lane that fails, and takes the
fault of the one that it finds. -/
theorem addressesAndCasts : Obligations.AddressesAndCasts := by
  unfold Obligations.AddressesAndCasts
  intro h f a
  refine ⟨?lea, ?leax, fun p => ?window, ?sptest, ?spcast⟩
  case lea | sptest | spcast => exact delivers_of_body (fun _ => rfl) rfl fun _ _ => rfl
  case leax =>
    refine commits_of_body (fun _ => rfl) fun s u hall => ?_
    dsimp only
    split
    · next p hp =>
      have hfails := List.find?_some hp
      exact absurd (Option.isNone_iff_eq_none.mp hfails) (Option.isSome_iff_ne_none.mp (hall p (List.mem_of_find?_eq_some hp)))
    · rfl
  case window =>
    refine traps_of_body (fun _ => rfl) fun s u hfind => ?_
    dsimp only
    rw [hfind]

end Sys2Proof.Machine
end

section
/-!
PROOFS. The accumulator instructions, the array moves and the plane query (R471, R476 to R480, R484).
-/

namespace Sys2Proof.Machine

open Sys2Proof.Claims

section
variable {s : State} {u : Ux} {f : FmtX}

theorem accChk_eq_none : accChk f = none ↔ f.acc.toNat < 4 := by simp [accChk, need_eq_none]

/-- An array move starts where no slot holds an older access of the unit (R294, R477). -/
theorem startMove_free {job : Job} {cells : List Cell} (h : unitHeld s u = false) : startMove u s job cells = .ok (moved s u job cells) :=
  ordered_free h

/-- What an accumulator instruction answers for a unit with an active lane: the budget, the accumulator where it reads it, and the
checks stop it, or it starts (R108, R312, R313). -/
def accAnswer (f : FmtX) (op : Nat) (reads : Bool) (words : List Nat) (known : Bool) (bytes : Nat) (checks : List (Option Nat)) (s : State)
    (u : Ux) : Res :=
  localX s u op f words known bytes fun k => (if reads then readsAcc s f (own s u) else id) (checked checks k)

variable {op bytes : Nat} {reads known : Bool} {words : List Nat} {checks : List (Option Nat)}

/-- It starts where its budget, its accumulator, its checks and the unit's older accesses let it. -/
theorem accAnswer_opens (hr : reads = true → accSound f (own s u) s = true) (hc : passes checks) (ho : arrayOpens bytes s u) :
    accAnswer f op reads words known bytes checks s u =
      .ok (arrayOpened s u (jobX s u op f words) (own s u) bytes none none) := by
  have hbudget : ∀ n, (if known then some bytes else none) = some n → overBudget s (s.g u.gid).bid n = false := fun n hn =>
    Option.some.inj (Option.ite_none_right_eq_some.mp hn).2 ▸ ho.1
  rw [accAnswer, localX, budgeted_affords hbudget, checked_passes hc]
  cases reads with
  | true => exact (readsAcc_sound (hr rfl)).trans (startX_opens ho)
  | false => exact startX_opens ho

/-- Where its charge is known and exceeds the budget, it takes 9.1. -/
theorem accAnswer_over {n : Nat} (hn : (if known then some bytes else none) = some n) (ho : overBudget s (s.g u.gid).bid n = true) :
    accAnswer f op reads words known bytes checks s u = .error (.trap { cause := 289 }) := by
  rw [accAnswer, localX, hn]
  exact budgeted_over ho

/-- Where it reads an accumulator with an uncorrectable error, it takes 1.15. -/
theorem accAnswer_unsound (hb : ∀ n, (if known then some bytes else none) = some n → overBudget s (s.g u.gid).bid n = false)
    (ha : accSound f (own s u) s = false) : accAnswer f op true words known bytes checks s u =
      .error (.partly { cause := 47, info := (Config.freeWord s.free).toNat % 1024 } { s with free := s.free + 1 }) := by
  rw [accAnswer, localX, budgeted_affords hb]
  exact readsAcc_unsound ha

end

section
variable {i : Instr} {h : Hdr} {sh : State → Shape} {f : FmtX} {op : Nat} {reads : Bool} {ok : State → Ux → Prop}
  {words : State → Ux → List Nat} {bytes : State → Ux → Nat} {known : State → Ux → Bool} {checks : State → Ux → List (Option Nat)}
  {body : Ux → State → Res}

/-- An accumulator instruction joins the array, or takes the trap of the budget or of its accumulator. -/
theorem accumulator_of_body (hx : ∀ s, exec i s = issue h (sh s) s body)
    (hb : ∀ s u, u.active ≠ [] → body u s = accAnswer f op reads (words s u) (known s u) (bytes s u) (checks s u) s u)
    (hok : ∀ s u, f.acc.toNat < 4 → ok s u → passes (checks s u)) :
    let charge (s : State) (u : Ux) : Option Nat := if known s u then some (bytes s u) else none
    Commits i h sh (fun s u => u.active ≠ [] ∧ f.acc.toNat < 4 ∧ (reads = true → accSound f (own s u) s = true) ∧ ok s u ∧
      arrayOpens (bytes s u) s u)
      (fun s u => arrayOpened s u (jobX s u op f (words s u)) (own s u) (bytes s u) none none) ∧
    BudgetTraps i h sh charge ∧ (reads = true → AccErrorTraps i h f sh own charge) := by
  refine ⟨?joins, fun n => ?budget, fun hr => ?accumulator⟩
  case joins =>
    exact commits_of_body hx fun s u ⟨ha, hacc, hr, hs, ho⟩ => (hb s u ha).trans (accAnswer_opens hr (hok s u hacc hs) ho)
  case budget => exact traps_of_body hx fun s u ⟨ha, hn, ho⟩ => (hb s u ha).trans (accAnswer_over hn ho)
  case accumulator =>
    subst hr
    intro s s1 u hr ha hpaid hacc
    rw [hx, issue_stop hr ((hb s1 u ha).trans (accAnswer_unsound hpaid hacc))]
    rfl

end

/-- The checks of an instruction that scales by values of tile memory: its accumulator and the ranges of the values (R471, R478). -/
def scaleChecks (f : FmtX) (rs : State → Ux → List (Nat × Nat)) (s : State) (u : Ux) : List (Option Nat) :=
  let g := s.g u.gid
  let l := s.launchOf g.bid
  [accChk f, elemClear l (rs s u), elemInside l (rs s u), stashClear s g.bid g.bcore (rs s u)]

theorem scaleChecks_pass {f : FmtX} {rs : State → Ux → List (Nat × Nat)} {s : State} {u : Ux} (hacc : f.acc.toNat < 4)
    (hc : elemClear (s.launchOf (s.g u.gid).bid) (rs s u) = none ∧ elemInside (s.launchOf (s.g u.gid).bid) (rs s u) = none ∧
      stashClear s (s.g u.gid).bid (s.g u.gid).bcore (rs s u) = none) : passes (scaleChecks f rs s u) := by
  obtain ⟨hclear, hinside, hstash⟩ := hc
  simp only [scaleChecks, passes_cons, passes_nil, accChk_eq_none]
  exact ⟨hacc, hclear, hinside, hstash, trivial⟩

section
variable (h : Hdr) (f : FmtX)

/-- ACMV reads its accumulator under DIR 0 alone, and moves the window's values or empties its cells. -/
theorem acmv_moves :
    (tb f.fn.toNat 8 = false → AccErrorTraps (.acmv h f) h f (fun _ => shapeAcmv f) own) ∧
    Commits (.acmv h f) h (fun _ => shapeAcmv f) (fun s u => u.active ≠ [] ∧ f.acc.toNat < 4 ∧ unitHeld s u = false ∧
      (tb f.fn.toNat 8 = false → accSound f (own s u) s = true)) fun s u =>
      if tb f.fn.toNat 8 then moved s u (jobX s u 0xD7 f (u.active.flatMap fun p =>
        (List.range (2 ^ bits f.fn.toNat 18 16)).map fun k => (rd s u (.v (bits f.fn.toNat 7 0 + k)) p).toNat)) []
      else moved s u (jobX s u 0xD7 f []) (windowCells u (bits f.fn.toNat 7 0) (2 ^ bits f.fn.toNat 18 16)) := by
  refine ⟨fun hdir s s1 u hr ha _ hacc => ?error, commits_of_body (fun _ => rfl) fun s u ⟨ha, hacc, hh, hr⟩ => ?moves⟩
  case error =>
    have hx : ∀ s, exec (.acmv h f) s = issue h (shapeAcmv f) s _ := fun _ => rfl
    rw [hx, issue_stop hr ((if_neg (mt List.isEmpty_iff.mp ha)).trans (by
      simp only [hdir, Bool.false_eq_true, if_false]
      exact readsAcc_unsound hacc))]
    rfl
  case moves =>
    have hpass : passes [accChk f] := passes_cons.mpr ⟨accChk_eq_none.mpr hacc, passes_nil⟩
    refine (if_neg (mt List.isEmpty_iff.mp ha)).trans ?_
    cases hdir : tb f.fn.toNat 8 with
    | true =>
      simp only [hdir, if_true, checked_passes hpass]
      exact startMove_free hh
    | false =>
      simp only [hdir, Bool.false_eq_true, if_false, checked_passes hpass]
      exact (readsAcc_sound (hr hdir)).trans (startMove_free hh)

end

/-- Settles O29: four bodies by their checks, MSCL and MEPI with the bytes of the ranges that they read, and the two moves. -/
theorem accumulatorInstructions : Obligations.AccumulatorInstructions := by
  unfold Obligations.AccumulatorInstructions
  intro h f
  refine ⟨?acz, ?acld, ?acst, ?mscl, ?msoft, ?mepi, (acmv_moves h f).1, (acmv_moves h f).2, ?plq⟩
  case acz | msoft =>
    refine accumulator_of_body (checks := fun _ _ => [accChk f]) (fun _ => rfl) (fun s u ha => if_neg (mt List.isEmpty_iff.mp ha))
      fun s u hacc _ => ?_
    exact passes_cons.mpr ⟨accChk_eq_none.mpr hacc, passes_nil⟩
  case acld =>
    refine accumulator_of_body (fun _ => rfl) (fun s u ha => if_neg (mt List.isEmpty_iff.mp ha)) fun s u hacc
      ⟨⟨hclear, hinside, hstash⟩, h4, hlow, hhigh⟩ => ?_
    simp only [passes_cons, passes_nil, need_eq_none, accChk_eq_none]
    exact ⟨hacc, hclear, hinside, by simp [h4, hlow, hhigh], hstash, trivial⟩
  case acst =>
    refine accumulator_of_body (fun _ => rfl) (fun s u ha => if_neg (mt List.isEmpty_iff.mp ha)) fun s u hacc
      ⟨⟨hclear, hinside, hstash⟩, hs, h4, hlow, hhigh⟩ => ?_
    simp only [passes_cons, passes_nil, need_eq_none, accChk_eq_none]
    exact ⟨hs, hacc, hclear, hinside, by simp [h4, hlow, hhigh], hstash, trivial⟩
  case mscl =>
    refine accumulator_of_body (checks := scaleChecks f fun s u => (if (msclUse (f.fn.toNat % 4)).a then [(uniX s u f.abase 0, 256)] else []) ++
        if (msclUse (f.fn.toNat % 4)).b then [(uniX s u f.bbase 0, 256)] else [])
      (fun _ => rfl) (fun s u ha => (if_neg (mt List.isEmpty_iff.mp ha)).trans ?_) fun s u hacc hc => scaleChecks_pass hacc hc
    dsimp only
    generalize msclUse (f.fn.toNat % 4) = x
    cases x.a <;> cases x.b <;> rfl
  case mepi =>
    refine accumulator_of_body (checks := scaleChecks f fun s u => if tb f.fn.toNat 3 then [(uniX s u f.bbase 0, 256)] else [])
      (fun _ => rfl) (fun s u ha => (if_neg (mt List.isEmpty_iff.mp ha)).trans ?_) fun s u hacc hc => scaleChecks_pass hacc hc
    cases tb f.fn.toNat 3 <;> rfl
  case plq =>
    refine commits_of_body (fun _ => rfl) fun s u ⟨ha, hacc, hh, r, hr, hk, hp⟩ => ?_
    have hany : (s.launchOf (s.g u.gid).bid).regs.any
        (fun r => r.kind == 2 && panelsOk (s.launchOf (s.g u.gid).bid) r.slot (uniX s u f.abase 0) 1 (slotAt s u.gid r.slot)) = true :=
      List.any_eq_true.mpr ⟨r, hr, by rw [hk]; exact hp⟩
    refine (if_neg (mt List.isEmpty_iff.mp ha)).trans ?_
    rw [checked_passes (by simp only [passes_cons, passes_nil, and_true, need_eq_none, accChk_eq_none]; exact ⟨hacc, hany⟩)]
    exact startMove_free hh

end Sys2Proof.Machine
end

section
/-!
PROOFS. DRAWX, EMIT and EMITV (R132 to R134, R138, R485 to R487).
-/

namespace Sys2Proof.Machine

open Sys2Proof.Claims

section
variable {i : Instr} {h : Hdr} {sh : State → Shape} {f : FmtA} {gauss : Bool} {n size : State → Nat}

/-- An instruction that emits records adds them to the draw of its mesh-stage group where its room holds them (R134, R487). -/
theorem emits_of_body (hx : ∀ s, exec i s = issue h (sh s) s fun u s => emitEff f gauss (n s) (size s) u s) (k : Nat) (d : Draw) :
    Commits i h sh (fun s u => u.active ≠ [] ∧ drawOf s u.gid = some (k, d, true) ∧ d.count + u.active.length ≤ 2 ^ 32 ∧
      (s.b (s.g u.gid).bid).emitted + size s * u.active.length ≤ d.emitb) fun s u =>
    let b := s.b (s.g u.gid).bid
    let rec_ (p : Pos) : Nat × Nat × Prim := ((s.g u.gid).idx, p.lane,
      { gauss := gauss, seq := 0, words := (List.range (n s)).map fun i => rd s u (.v (f.fn.toNat % 256 + i)) p })
    let d1 := { d with count := d.count + u.active.length,
                       emitted := FMap.set [] d.emitted b.lin (FMap.get [] d.emitted b.lin ++ u.active.map rec_) }
    let s1 := fillEmit (s.setDraw k d1) (s.g u.gid).bid d (size s * u.active.length)
    { st := s1.setBlock (s.g u.gid).bid { s1.b (s.g u.gid).bid with emitted := b.emitted + size s * u.active.length } } := by
  refine commits_of_body hx fun s u ⟨ha, hd, hcount, hroom⟩ => ?_
  rw [emitEff, if_neg (mt List.isEmpty_iff.mp ha), hd]
  exact (if_neg (Nat.not_lt.mpr hcount)).trans (if_neg (Nat.not_lt.mpr hroom))

/-- Outside the mesh stage of a draw it takes 8.13. -/
theorem emit_outside (hx : ∀ s, exec i s = issue h (sh s) s fun u s => emitEff f gauss (n s) (size s) u s) :
    Traps i h sh (fun s u => u.active ≠ [] ∧ ∀ k d, drawOf s u.gid ≠ some (k, d, true)) fun _ _ => { cause := drawCause 13 } := by
  refine traps_of_body hx fun s u ⟨ha, hno⟩ => ?_
  rw [emitEff, if_neg (mt List.isEmpty_iff.mp ha)]
  split
  · next k d hd => exact absurd hd (hno k d)
  · rfl

end

/-! ### The draw record (R132, R133) -/

section
variable (s : State) (u : Ux) (e : FmtE)

/-- The launch that issues a draw, after the unit's older stores. -/
def drawxLaunch : Launch := (drainUnit s u).launchOf ((drainUnit s u).g u.gid).bid

/-- The address of a draw record. -/
def drawxVa : Nat := (rdU64 (drainUnit s u) u e.desc).toNat

/-- The draw of the record at that address, with the translations of its pages. -/
def drawxDraw : Draw :=
  let t := drainUnit s u
  let d := Draw.fresh (t.b (t.g u.gid).bid).lid (t.g u.gid).bid
    (wordsOf 16 ((vRead t (drawxLaunch s u).ctx sysRead (drawxVa s u e) 128).getD [])) t.nextLaunch (t.nextLaunch + 1)
  { d with leaves := (d.pagesOf t (drawxLaunch s u).ctx).getD [] }

/-- A slot holds the record. -/
def drawxRecordHeld : Bool :=
  vHeld (drainUnit s u) ((drainUnit s u).g u.gid).core (drawxLaunch s u).ctx (ownWant (drainUnit s u) u.gid false) (drawxVa s u e) 128

/-- A slot or another transaction holds the directory. -/
def drawxListHeld : Bool :=
  vHeld (drainUnit s u) ((drainUnit s u).g u.gid).core (drawxLaunch s u).ctx sysWrite (drawxDraw s u e).pbase (16 * (drawxDraw s u e).ntiles)

/-- The record stands at a boundary and can be read. -/
def drawxReadable : Prop :=
  drawxVa s u e % 64 = 0 ∧ readFail (drainUnit s u) (drawxLaunch s u).ctx false (drawxVa s u e) 128 = none

/-- The record makes a draw of the launches `m` and `r`. -/
def drawxMakes (m r : Launch) : Prop :=
  (drawxDraw s u e).fieldsOk = true ∧ (drawxDraw s u e).recordsOk (drainUnit s u) (drawxLaunch s u).ctx = true ∧
    (drawxDraw s u e).pagesFit (drainUnit s u) (drawxLaunch s u).ctx = true ∧
    drawLaunch (drainUnit s u) (drawxLaunch s u) ((drawxDraw s u e).w 0) = some m ∧
    drawLaunch (drainUnit s u) (drawxLaunch s u) ((drawxDraw s u e).w 1) = some r

/-- The state with the draw in flight. -/
def drawxStarted (m r : Launch) : State :=
  let t := drainUnit s u
  let s1 := ((writeDirectory t (drawxDraw s u e)).setLaunch t.nextLaunch { m with st := .waiting }).setLaunch (t.nextLaunch + 1)
    { r with st := .running }
  { s1.setDraw t.nextDraw (drawxDraw s u e) with nextDraw := t.nextDraw + 1, nextLaunch := t.nextLaunch + 2 }

end

/-- What the body of DRAWX answers: the limit of draws, the unit's older accesses and the record's lines let it wait, and a right record
starts the draw once nothing holds its directory (R132, R133, R486). -/
theorem drawx_answers (h : Hdr) (e : FmtE) : ∃ body : Ux → State → Res, (∀ s, exec (.drawx h e) s = issue h (shapeDrawx e) s body) ∧
    (∀ s u, u.active ≠ [] → 16 ≤ drawsInFlight s → body u s = .error (.wait .draws)) ∧
    (∀ s u, u.active ≠ [] → drawsInFlight s < 16 → unitHeld s u = true → body u s = .error (.wait .slot)) ∧
    (∀ s u, u.active ≠ [] → drawsInFlight s < 16 → unitHeld s u = false → drawxReadable s u e → drawxRecordHeld s u e = true →
      body u s = .error (.wait .slot)) ∧
    ∀ s u m r, u.active ≠ [] → drawsInFlight s < 16 → unitHeld s u = false → drawxReadable s u e → drawxRecordHeld s u e = false →
      drawxMakes s u e m r →
      body u s = if drawxListHeld s u e then .error (.wait .slot) else .ok { st := drawxStarted s u e m r } := by
  refine ⟨_, fun _ => rfl, fun s u ha hd => ?full, fun s u ha hd hh => ?held, fun s u ha hd hh ⟨hal, hread⟩ hrec => ?recordHeld,
    fun s u m r ha hd hh ⟨hal, hread⟩ hrec ⟨hfields, hrecords, hpages, hm, hr⟩ => ?starts⟩
  case full => exact (if_neg (mt List.isEmpty_iff.mp ha)).trans (if_pos hd)
  all_goals rw [if_neg (mt List.isEmpty_iff.mp ha), if_neg (Nat.not_le.mpr hd)]
  case held => exact ordered_held hh
  all_goals
    rw [ordered_free hh]
    extract_lets +onlyGivenNames g lid l va
    have hread : readFail (drainUnit s u) l.ctx false va 128 = none := hread
    rw [if_neg (by simpa [va, drawxVa] using hal), hread]
    dsimp -zeta only
  case recordHeld => exact vFree_held hrec
  case starts =>
    refine (vFree_free hrec).trans ?_
    extract_lets +onlyGivenNames words d0 d
    have hm : drawLaunch (drainUnit s u) l (d.w 0) = some m := hm
    have hr : drawLaunch (drainUnit s u) l (d.w 1) = some r := hr
    have hok : ¬ (!d.fieldsOk || !d.recordsOk (drainUnit s u) l.ctx || !d.pagesFit (drainUnit s u) l.ctx) = true := by
      rw [show d.fieldsOk = true from hfields, show d.recordsOk (drainUnit s u) l.ctx = true from hrecords,
        show d.pagesFit (drainUnit s u) l.ctx = true from hpages]
      decide
    rw [if_neg hok, hm, hr]
    rfl

/-- Settles O31: DRAWX by its answers, EMIT and EMITV by one body. -/
theorem drawsAndEmission : Obligations.DrawsAndEmission := by
  unfold Obligations.DrawsAndEmission
  intro h e f
  obtain ⟨body, hx, hfull, hheld, hrecord, hstarts⟩ := drawx_answers h e
  refine ⟨fun m r => ?drawx, ?full, ?held, fun m r => ?directoryHeld, fun k d => emits_of_body (fun _ => rfl) k d,
    fun k d => emits_of_body (fun _ => rfl) k d, fun i sh hi => ?outside⟩
  case drawx =>
    refine commits_of_body hx fun s u ⟨⟨ha, hd, hh, hal, hread, hrec, hmakes⟩, hlist⟩ => ?_
    exact (hstarts s u m r ha hd hh ⟨hal, hread⟩ hrec hmakes).trans (if_neg (ne_true_of_eq_false hlist))
  case full => exact parks_of_body hx fun s u ⟨ha, hd⟩ => hfull s u ha hd
  case held =>
    refine parks_of_body hx fun s u ⟨ha, hd, hwhy⟩ => ?_
    cases hh : unitHeld s u with
    | true => exact hheld s u ha hd hh
    | false =>
      obtain ⟨hal, hread, hrec⟩ := hwhy.resolve_left (ne_true_of_eq_false hh)
      exact hrecord s u ha hd hh ⟨hal, hread⟩ hrec
  case directoryHeld =>
    refine parks_of_body hx fun s u ⟨⟨ha, hd, hh, hal, hread, hrec, hmakes⟩, hlist⟩ => ?_
    exact (hstarts s u m r ha hd hh ⟨hal, hread⟩ hrec hmakes).trans (if_pos hlist)
  case outside =>
    obtain ⟨rfl, rfl⟩ | ⟨rfl, rfl⟩ := hi
    · exact emit_outside fun _ => rfl
    · exact emit_outside fun _ => rfl

end Sys2Proof.Machine
end

section
/-!
PROOFS. SAVE, REST and CTXSW (R397, R398).
-/

namespace Sys2Proof.Machine

open Sys2Proof.Claims

section
variable {s : State} {u : Ux} {k : State → Res}

/-- How SAVE, REST and CTXSW begin: nothing without an active lane, a wait for the group's producers, then the unit's older accesses. -/
def recordOp (s : State) (u : Ux) (k : State → Res) : Res :=
  ifActive u s <| match producersWait s u with
    | some w => .error w
    | none => ordered s u k

theorem recordOp_ready (ha : u.active ≠ []) (hp : producersWait s u = none) (hh : unitHeld s u = false) :
    recordOp s u k = k (drainUnit s u) := by
  rw [recordOp, ifActive_active ha, hp]
  exact ordered_free hh

theorem recordOp_held (ha : u.active ≠ []) (hp : producersWait s u = none) (hh : unitHeld s u = true) :
    recordOp s u k = .error (.wait .slot) := by
  rw [recordOp, ifActive_active ha, hp]
  exact ordered_held hh

theorem recordOp_producers {w : Wait} (ha : u.active ≠ []) (hp : producersWait s u = some (.wait w)) :
    recordOp s u k = .error (.wait w) := by
  rw [recordOp, ifActive_active ha, hp]

end

/-- Neither a register nor the record's address faults. -/
theorem firstSome_pair {α : Type} {a b : Option α} (ha : a = none) (hb : b = none) : firstSome [a, b] = none := by
  subst ha hb
  rfl

section
variable {i : Instr} {h : Hdr} {sh : Shape} {k : Ux → State → State → Res} {fine : State → Ux → Prop}

/-- One that goes on under `fine` only to wait for a slot waits for that and for what stands before it (R50, R54, R307). -/
theorem recordWaits_of_body (hx : ∀ s, exec i s = issue h sh s fun u s => recordOp s u (k u s))
    (hheld : ∀ s u, fine s u → k u s (drainUnit s u) = .error (.wait .slot)) :
    Parks i h (fun _ => sh) (fun s u => u.active ≠ [] ∧ producersWait s u = none ∧ (unitHeld s u = true ∨ fine s u)) (fun _ _ => .slot) ∧
    ∀ w, Parks i h (fun _ => sh) (fun s u => u.active ≠ [] ∧ producersWait s u = some (.wait w)) fun _ _ => w := by
  refine ⟨parks_of_body hx fun s u ⟨ha, hp, hwhy⟩ => ?slot, fun w => parks_of_body hx fun s u ⟨ha, hp⟩ => recordOp_producers ha hp⟩
  cases hh : unitHeld s u with
  | true => exact recordOp_held ha hp hh
  | false => exact (recordOp_ready ha hp hh).trans (hheld s u (hwhy.resolve_left (ne_true_of_eq_false hh)))

end

/-- Settles O36: each instruction begins by `recordOp`; behind it the registers, the record's pages and its lines are checked in turn.
The `have`s of CTXSW's body are taken out level by level: the kernel would run the reads of memory between them to compare a body under
its `have`s with the same body reduced. -/
theorem groupRecords : Obligations.GroupRecords := by
  unfold Obligations.GroupRecords
  intro h f
  refine ⟨fun t => ?save, fun bs => ?rest, fun bs t hst => ?ctxsw, fun bs h0 h6 => ?badState, fun i sh wr hi => ?waits⟩
  case save =>
    dsimp only
    refine commits_of_body (fun _ => rfl) fun s u ⟨⟨ha, hp, hh⟩, hecc, ⟨hf, hheld⟩, hw⟩ => (recordOp_ready ha hp hh).trans ?_
    simp only [firstSome_pair hecc hf]
    refine (vFree_free hheld).trans ?_
    rw [hw]
    rfl
  case rest =>
    dsimp only
    refine commits_of_body (fun _ => rfl) fun s u ⟨⟨ha, hp, hh⟩, ⟨hf, hheld⟩, hr⟩ => (recordOp_ready ha hp hh).trans ?_
    simp only [hf]
    refine (vFree_free hheld).trans ?_
    rw [hr]
  case ctxsw =>
    refine commits_of_body (fun _ => rfl) fun s u ⟨⟨ha, hp, hh⟩, hecc, ⟨hf, hheld⟩, hr, hw⟩ => (recordOp_ready ha hp hh).trans ?_
    extract_lets +onlyGivenNames g l va
    have hfine : firstSome [saveEcc g, recordFault (drainUnit s u) u.gid true va (recordSize l)] = none := firstSome_pair hecc hf
    have hread : vRead (drainUnit s u) l.ctx (ownWant (drainUnit s u) u.gid false) va (recordSize l) = some bs := hr
    have hkind : ¬ (leVal (bs.take 1) % 8 != 0 && leVal (bs.take 1) % 8 != 6) = true := by
      obtain h0 | h6 := hst
      · rw [h0]; decide
      · rw [h6]; decide
    rw [hfine]
    refine (vFree_free hheld).trans ?_
    rw [hread]
    dsimp -zeta only
    extract_lets +onlyGivenNames st
    rw [if_neg hkind]
    generalize hout : recordBytes l g (quiresNow g (g.nar u.slices)) { saveHead u true true with wdog := g.wdog } = out
    have hwrite : vWrite (drainUnit s u) l.ctx (ownWant (drainUnit s u) u.gid true) va out g.bid g.bcore = some t := hout ▸ hw
    dsimp only
    rw [hwrite]
  case badState =>
    dsimp only
    refine traps_of_body (fun _ => rfl) fun s u ⟨⟨ha, hp, hh⟩, hecc, ⟨hf, hheld⟩, hr⟩ => (recordOp_ready ha hp hh).trans ?_
    extract_lets +onlyGivenNames g l va
    have hfine : firstSome [saveEcc g, recordFault (drainUnit s u) u.gid true va (recordSize l)] = none := firstSome_pair hecc hf
    have hread : vRead (drainUnit s u) l.ctx (ownWant (drainUnit s u) u.gid false) va (recordSize l) = some bs := hr
    rw [hfine]
    refine (vFree_free hheld).trans ?_
    rw [hread]
    dsimp -zeta only
    extract_lets +onlyGivenNames st
    rw [if_pos (by simp [st, h0, h6])]
  case waits =>
    dsimp only
    obtain ⟨rfl, rfl, rfl⟩ | ⟨rfl, rfl, rfl⟩ | ⟨rfl, rfl, rfl⟩ := hi
    · refine recordWaits_of_body (fun _ => rfl) fun s u ⟨hecc, hf, hheld⟩ => ?_
      simp only [firstSome_pair (hecc rfl) hf]
      exact vFree_held hheld
    · refine recordWaits_of_body (fun _ => rfl) fun s u ⟨_, hf, hheld⟩ => ?_
      simp only [hf]
      exact vFree_held hheld
    · refine recordWaits_of_body (fun _ => rfl) fun s u ⟨hecc, hf, hheld⟩ => ?_
      extract_lets +onlyGivenNames g l va
      have hfine : firstSome [saveEcc g, recordFault (drainUnit s u) u.gid true va (recordSize l)] = none :=
        firstSome_pair (hecc rfl) hf
      rw [hfine]
      exact vFree_held hheld

end Sys2Proof.Machine
end

section
/-!
PROOFS. TLB and cache maintenance, the halt, the debug operations and the data breakpoint (R399, R400, R403, R404).
-/

namespace Sys2Proof.Machine

open Sys2Proof.Claims

section
variable {i : Instr} {h : Hdr} {sh : Shape} {k : Ux → State → State → Res}

/-- An instruction that orders the unit's older accesses where a lane is active waits while a slot holds one (R54). -/
theorem parks_of_orderedActive (hx : ∀ s, exec i s = issue h sh s fun u s => ifActive u s (ordered s u (k u s))) :
    Parks i h (fun _ => sh) (fun s u => u.active ≠ [] ∧ unitHeld s u = true) fun _ _ => .slot :=
  parks_of_body hx fun _ _ ⟨ha, hh⟩ => (ifActive_active ha).trans (ordered_held hh)

/-- It goes on after them where none is held. -/
theorem commits_of_orderedActive {ok : State → Ux → Prop} {e : State → Ux → Eff}
    (hx : ∀ s, exec i s = issue h sh s fun u s => ifActive u s (ordered s u (k u s)))
    (hk : ∀ s u, ok s u → k u s (drainUnit s u) = .ok (e s u)) :
    Commits i h (fun _ => sh) (fun s u => u.active ≠ [] ∧ unitHeld s u = false ∧ ok s u) e :=
  commits_of_body hx fun s u ⟨ha, hh, ho⟩ => (ifActive_active ha).trans ((ordered_free hh).trans (hk s u ho))

end

/-- What CFLUSH answers behind the unit's older accesses: by its kind, nothing, every line of the L2, or one line (R400). -/
def cflushAnswer (f : FmtI) (u : Ux) (s s0 : State) : Res :=
  let g := s0.g u.gid
  let kind := f.imm.toNat % 4
  if kind == 3 then .ok { st := s0 }
  else if kind == 2 then
    writesBack s0 (s0.dir.any fun e => e.2.st == 2 || e.2.st == 3) <|
      if linesBusy s0 then .error (.wait .slot) else
      .ok { st := s0.dir.foldl (fun st e => st.setLine e.1 (flushLine e.2 true)) s0 }
  else
    let va := (rdU64 s u f.sa.reg).toNat
    if va ≥ 2 ^ 57 then .error (.trap { cause := memCause 1 2, faddr := va })
    else match reach s0 (s0.launchOf g.bid).ctx (!g.sys) false 1 va with
    | .error c => .error (.trap { cause := c, faddr := va })
    | .ok x =>
      match x.loc with
      | .tile _ _ _ => .ok { st := s0 }
      | .phys pa =>
        let s1 := cleanStashes s0 pa (kind == 1)
        writesBack s0 (lineDirty s0 pa) <|
          if (s0.line (lineOf pa)).busy then .error (.wait .slot) else
          .ok { st := s1.setLine (lineOf pa) (flushLine (s1.line (lineOf pa)) (kind == 1)) }

theorem exec_cflush (h : Hdr) (f : FmtI) (s : State) : exec (.cflush h f) s =
    issue h (shapeCflush f) s fun u s => ifActive u s (ordered s u (cflushAnswer f u s)) := rfl

section
variable {s s0 : State} {u : Ux} {f : FmtI}

theorem cflushAnswer_constants (hk : f.imm.toNat % 4 = 3) : cflushAnswer f u s s0 = .ok { st := s0 } := by
  rw [cflushAnswer, hk]
  rfl

/-- Kind 2 looks at every line. -/
theorem cflushAnswer_all (hk : f.imm.toNat % 4 = 2) : cflushAnswer f u s s0 =
    writesBack s0 (s0.dir.any fun e => e.2.st == 2 || e.2.st == 3) (if linesBusy s0 then .error (.wait .slot) else
      .ok { st := s0.dir.foldl (fun st e => st.setLine e.1 (flushLine e.2 true)) s0 }) := by
  rw [cflushAnswer, hk]
  rfl

/-- No line is written back where none is owned while a slot is open. -/
theorem ownedLines_free (h : memHeld s0 = true → ∀ e ∈ s0.dir, e.2.st ≠ 2 ∧ e.2.st ≠ 3) :
    (s0.dir.any (fun e => e.2.st == 2 || e.2.st == 3) && memHeld s0) = false := by
  cases hm : memHeld s0 with
  | false => exact Bool.and_false _
  | true =>
    rw [Bool.and_true, List.any_eq_false]
    intro e he
    obtain ⟨h2, h3⟩ := h hm e he
    simp [h2, h3]

/-- Kinds 0 and 1 look at the line of their address. -/
theorem cflushAnswer_line {x : Site} {pa : Nat} (hk : f.imm.toNat % 4 < 2) (hx : x.loc = .phys pa)
    (hva : (rdU64 s u f.sa.reg).toNat < 2 ^ 57)
    (hr : reach s0 (s0.launchOf (s0.g u.gid).bid).ctx (!(s0.g u.gid).sys) false 1 (rdU64 s u f.sa.reg).toNat = .ok x)
    (hd : (memHeld s0 && lineDirty s0 pa) = false) (hb : (s0.line (lineOf pa)).busy = false) : cflushAnswer f u s s0 =
      let s1 := cleanStashes s0 pa (f.imm.toNat % 4 == 1)
      .ok { st := s1.setLine (lineOf pa) (flushLine (s1.line (lineOf pa)) (f.imm.toNat % 4 == 1)) } := by
  rw [Bool.and_comm] at hd
  have h3 : ¬ (f.imm.toNat % 4 == 3) = true := by simp; omega
  have h2 : ¬ (f.imm.toNat % 4 == 2) = true := by simp; omega
  unfold cflushAnswer
  dsimp only
  rw [if_neg h3, if_neg h2, if_neg (Nat.not_le.mpr hva), hr]
  dsimp only
  rw [hx]
  dsimp only
  rw [writesBack_free hd, hb]
  rfl

end

/-- Settles O37: CFLUSH by its kind, TLBI behind the unit's older accesses, and the rest where a lane is active. -/
theorem maintenanceAndDebug : Obligations.MaintenanceAndDebug := by
  unfold Obligations.MaintenanceAndDebug
  intro h f
  dsimp only
  refine ⟨?tlbi, fun hk => ?all, fun hk => ?constants, fun hk x pa hx => ?line, fun i sh hi => ?held, fun hk => ?busy, ?halt, ?dbg, ?brks⟩
  case tlbi =>
    exact commits_of_body (fun _ => rfl) fun s u ⟨ha, hh⟩ => (ifActive_active ha).trans (ordered_free hh)
  case all =>
    refine commits_of_orderedActive (exec_cflush h f) fun s u ⟨hd, hb⟩ => ?_
    rw [cflushAnswer_all hk, writesBack_free (ownedLines_free hd), if_neg (ne_true_of_eq_false hb)]
  case constants =>
    exact commits_of_body (exec_cflush h f) fun s u ⟨ha, hh⟩ =>
      (ifActive_active ha).trans ((ordered_free hh).trans (cflushAnswer_constants hk))
  case line =>
    exact commits_of_orderedActive (exec_cflush h f) fun s u ⟨hd, hb, hva, hr⟩ => cflushAnswer_line hk hx hva hr hd hb
  case held =>
    obtain ⟨rfl, rfl⟩ | ⟨rfl, rfl⟩ := hi
    · exact parks_of_orderedActive fun _ => rfl
    · exact parks_of_orderedActive (exec_cflush h f)
  case busy =>
    refine parks_of_body (exec_cflush h f) fun s u ⟨ha, hb⟩ => (ifActive_active ha).trans ?_
    cases hh : unitHeld s u with
    | true => exact ordered_held hh
    | false =>
      rw [ordered_free hh, cflushAnswer_all hk, if_pos hb]
      exact ite_self _
  case halt | dbg | brks => exact commits_ifActive (fun _ => rfl) fun _ _ => rfl

end Sys2Proof.Machine
end

section
/-!
PROOFS. An instruction without an active lane (R290, R340).
-/

namespace Sys2Proof.Machine

open Sys2Proof.Claims

/-- What acts once for its unit does nothing where no lane is active. -/
theorem idle_of_guard {u : Ux} {s : State} {r : Res} (ha : u.active = []) : (if u.active.isEmpty then .ok { st := s } else r) = .ok { st := s } :=
  if_pos (List.isEmpty_iff.mpr ha)

/-- An instruction whose body begins by looking for an active lane does nothing without one. -/
theorem idles_of_guard {i : Instr} {h : Hdr} {sh : Shape} {r : Ux → State → Res}
    (hx : ∀ s, exec i s = issue h sh s fun u s => if u.active.isEmpty then .ok { st := s } else r u s) :
    Commits i h (fun _ => sh) (fun _ u => u.active = []) fun s _ => { st := s } :=
  commits_of_body hx fun _ _ ha => idle_of_guard ha

section
variable {s : State} {u : Ux}

theorem workLanes_idle (ha : u.active = []) (once : Bool) : workLanes u once = [] := by simp [workLanes, ha]

theorem writesHeld_nil : writesHeld s [] = false := by simp [writesHeld, sitesFar]

/-- Without a lane an atomic orders only under sequential consistency. -/
theorem atomClear_nil {f : FmtM} (h : f.ord = 4 → unitHeld s u = false) : atomClear f s u [] :=
  ⟨writesHeld_nil, fun hf => h (by simpa [atomFollows] using hf)⟩

theorem performed_nil {f : FmtM} {groups : Nat} {fp : Bool} {op : Rmw} :
    performed f groups fp op s u [] = { st := if f.ord = 4 then drainUnit s u else s, fst := [(u.gid, 0)] } := by
  by_cases h : f.ord = 4 <;> simp [performed, atomFound, atomAll, h]

end

/-- An atomic or a reduction performs in no lane (R290, R446). -/
theorem idles_of_atomic {i : Instr} {h : Hdr} {sh : Shape} {f : FmtM} {sizes : List Nat} {groups : Nat} {fp : Bool} {op : Rmw}
    (hx : ∀ s, exec i s = issue h sh s fun u s => atomEff f sizes groups fp op u s) :
    Commits i h (fun _ => sh) (fun s u => u.active = [] ∧ (f.ord = 4 → unitHeld s u = false))
      fun s u => { st := if f.ord = 4 then drainUnit s u else s, fst := [(u.gid, 0)] } := by
  refine commits_of_body hx fun s u ⟨ha, hheld⟩ => ?_
  have hsites : atomSites s u f sizes (atomLanes f u) = ([], none) := by
    rw [atomLanes, workLanes_idle ha]
    rfl
  rw [atomEff_performs hsites (atomClear_nil hheld), performed_nil]

/-- Settles O38: nearly every body begins by looking for an active lane; the others find none on their way. -/
theorem noActiveLaneNoEffect : Obligations.NoActiveLaneNoEffect := by
  unfold Obligations.NoActiveLaneNoEffect
  intro h e x i a m
  simp only [List.forall_mem_cons, List.not_mem_nil, false_imp_iff, implies_true, and_true]
  refine ⟨⟨?cpy, ?cpy2d, ?cpyt, ?gath, ?scat, ?stsp, ?ldsp, ?cpypl, ?coll, ?rdma, ?nsend, ?nrecv, ?cfill, ?cinv, ?cabort⟩,
    ⟨?mma, ?mmap, ?mmat, ?mmapt, ?acz, ?acld, ?acmv, ?plq, ?mscl, ?msoft, ?mepi, ?net, ?netr, ?plcv, ?mpairBind, ?mpairRel⟩,
    ⟨?arv, ?arvx, ?binit, ?mswin, ?speed, ?evrec, ?signal, ?cctl, ?stashMap, ?stashUnmap, ?rput, ?rget, ?rrel⟩,
    ⟨?aadd, ?acas, ?radd⟩,
    ⟨?drawx, ?emitv, ?ztest, ?blend, ?tres, ?tlck, ?tlrst, ?splat, ?splatc, ?bldfOpen, ?bldfAdd, ?bldc, ?trace⟩,
    ⟨?rdsr, ?wrsr, ?save, ?rest, ?ctxsw, ?tlbi, ?cflush, ?wake, ?dieq, ?logr, ?perf, ?bud, ?halt, ?dbg, ?brks⟩⟩
  case cpy | cpy2d | cpyt | gath | scat | stsp | ldsp | coll | rdma | nsend | cfill | cinv | cabort | mma | mmap | mmat | mmapt |
    acz | acld | acmv | plq | mscl | msoft | mepi | net | netr | plcv | mpairBind | mpairRel | arv | arvx | binit | mswin | speed |
    evrec | cctl | stashMap | stashUnmap | rput | rget | rrel | drawx | emitv | ztest | blend | tres | tlck | tlrst | splat |
    splatc | bldfOpen | trace | rdsr | wrsr | save | rest | ctxsw | tlbi | cflush | wake | dieq | logr | perf | bud | halt | dbg |
    brks =>
    exact idles_of_guard fun _ => rfl
  case aadd | acas | radd => exact idles_of_atomic fun _ => rfl
  case cpypl =>
    refine commits_of_body (fun _ => rfl) fun s u ha => ?_
    simp only [ha, List.isEmpty_nil, if_true]
    exact idle_of_guard ha
  case nrecv | bldfAdd | bldc =>
    refine commits_of_body (fun _ => rfl) fun s u ha => ?_
    rw [engEff, idle_of_guard ha]
    exact if_pos (List.isEmpty_iff.mpr ha)
  case signal =>
    refine commits_of_body (fun _ => rfl) fun s u ha => ?_
    rw [ha]

end Sys2Proof.Machine
end
